-- ==== Sys2Proof/Word.lean ====
section
/-! DEFINITION. The words of the machine (R2): byte, half, word, double, and their plainest arithmetic. -/

namespace Sys2Proof

/-- A byte (R2). -/
abbrev Byte := BitVec 8

/-- A double: the width of a general register (R70). -/
abbrev W := BitVec 64

/-- All 64 bits set. -/
def W.ones : W := BitVec.allOnes 64

/-- A double from a truth value. -/
def W.ofBool (b : Bool) : W := if b then 1 else 0

end Sys2Proof
end

