-- ==== Sys2Proof/Config.lean ====
section
/-! DEFINITION. What an implementation fixes and the manual does not, and the free values: constants without a body, so that
no proof can rest on what they are (log entries 9, 11, 13). -/

namespace Sys2Proof.Config

/-- Which of the two F32 values that bracket the exact result a special function delivers (09 R190): true for the one
of greater magnitude. The argument numbers the free value (log 11). [log 9, DESIGN CHOICE] -/
opaque sfuPick : Nat → Bool

/-- Position within its die of the first gateway cluster of each die (18 R336, 02 R456). [log 80, DESIGN CHOICE] -/
opaque gatewayFirst (die : Nat) : Fin 10240

/-- Position of the second gateway cluster of each die among the other positions of the die (18 R336, 02 R456). [log 80, DESIGN CHOICE] -/
opaque gatewayOther (die : Nat) : Fin 10239

/-- The memory controller that holds a frame, by the frame's physical address (25 R421): the spec gives no map. [log 92, DESIGN CHOICE] -/
opaque controllerOf (frame : Nat) : Nat

/-- A firmware image other than this package's first one, number 0, carries the record with a key in its chip table (02 R36).
[log 109, DESIGN CHOICE] -/
opaque tableHas (image key : Nat) : Bool

/-- The package identifier PKGID (02 R456). [log 80, DESIGN CHOICE] -/
opaque pkgid : BitVec 128

/-- Draw n of the security processor's random bit generator, 256 bits (26 R428). -/
opaque rngDraw (n : Nat) : BitVec 256

/-- The package's device secret DS (26 R440). -/
opaque deviceSecret : List Byte


/-- The ML-DSA-65 signature of the package's attestation key over a message; the argument n numbers the signature,
since signing may draw randomness (26 R439). -/
opaque mldsaSign (n : Nat) (msg : List Byte) : List Byte

/-- The certificate chain of the attestation key (27 R445). -/
opaque certificate : List Byte

/-- The resident images of the global scheduler, the leaf controllers and the security processor that a firmware image
number stands for (26 R438, 27 R447). -/
opaque firmwareBytes (image : Nat) : List Byte

/-- Translation keys that an evidence record names for a context that belongs to no launch (26 R439). The argument numbers the free
value. [log 9, DESIGN CHOICE] [log 78, DESIGN CHOICE] -/
opaque freeKey : Nat → BitVec 256

end Sys2Proof.Config
end

