-- ==== Sys2Proof/Syntax.lean ====
section
/-! DEFINITION. The instructions of the H640: one constructor for every row of spec/opcode_table.json.
Native instructions carry their operand fields. Gydon instructions carry none: their operand fields are read from the
halfword itself, which the context's instruction register holds. Steps without an encoding (events of units, packets,
host actions) carry none either: the numbers that name the unit, core, context or queue they concern are in State.
(Lean's runtime allows 245 constructors with fields, and the table has 373 rows.) -/

namespace Sys2Proof

/-- A general register number g0 to g15, or any other 4-bit register field (R62). -/
abbrev Reg := Fin 16

/-- A pad tile number pt0 to pt23 (R12). -/
abbrev Tile := Fin 24

/-- A source register with its synchronised-read flag AF or BF (R62, R73). -/
structure Src where
  /-- the register -/
  r : Reg
  /-- read synchronously -/
  f : Bool
deriving DecidableEq, Repr

/-- The type codes of R69. -/
inductive Ty where
  | i64 | i32 | i16 | i8 | i4 | i2 | i1 | n64 | n32 | n16 | n8 | n4 | f32 | f16 | bf16 | e4m3 | e5m2 | ds8
deriving DecidableEq, Repr

/-- The access sizes of a load: SZ 0 to 6 (R63). -/
inductive LSz where
  | n8 | n16 | n32 | n64 | i8 | i16 | i32
deriving DecidableEq, Repr

/-- The access sizes of a store or of LEA: SZ 0 to 3 (R63). -/
inductive SSz where
  | n8 | n16 | n32 | n64
deriving DecidableEq, Repr

/-- The orderings of atomics and fences (R227). -/
inductive Ord where
  | rlx | acq | rel | ar
deriving DecidableEq, Repr

/-- The scopes of R18. -/
inductive Scope where
  | ctx | core | quad | clus | sect | die | part | pkg | host | link | sys
deriving DecidableEq, Repr

/-- The system registers of R80 and R280. -/
inductive SysReg where
  | ctxstat | fpc | geom | fullb
  | sgb (n : Fin 8) | sgl (n : Fin 8)
  | rstk
  | strm (n : Fin 4) | trm (n : Fin 4) | gth (n : Fin 4)
  | tvec | tepc | tstat | tsel | tpc | sfcnt
  | tscr (n : Fin 4)
deriving DecidableEq, Repr

/-- The memory operand of format M (R64): a segment, an index register or none, a displacement in units of the size. -/
structure MOff where
  /-- segment sg0 to sg7 -/
  sg : Fin 8
  /-- index register; none is the encoding AF = 1, A = 15 -/
  idx : Option Src
  /-- displacement -/
  disp : BitVec 10
deriving DecidableEq, Repr

/-- The instructions and steps of the machine, with operand fields first, each part in the order of spec/opcode_table.json. -/
inductive Instr where
  /-- `ADD`. Typed wrapping integer addition. (R113) -/
  | add (t : Ty) (d : Reg) (a b : Src)
  /-- `SUB`. Typed wrapping integer subtraction. (R113) -/
  | sub (t : Ty) (d : Reg) (a b : Src)
  /-- `RSUB`. Typed reverse subtraction gB minus gA. (R113) -/
  | rsub (t : Ty) (d : Reg) (a b : Src)
  /-- `MUL`. Typed low product. (R113) -/
  | mul (t : Ty) (d : Reg) (a b : Src)
  /-- `MULH`. High half of the signed product. (R113) -/
  | mulh (t : Ty) (d : Reg) (a b : Src)
  /-- `MULHN`. High half of the natural product. (R113) -/
  | mulhn (t : Ty) (d : Reg) (a b : Src)
  /-- `AND`. 64-bit bitwise AND. (R114) -/
  | and (d : Reg) (a b : Src)
  /-- `OR`. 64-bit bitwise OR. (R114) -/
  | or (d : Reg) (a b : Src)
  /-- `XOR`. 64-bit bitwise XOR. (R114) -/
  | xor (d : Reg) (a b : Src)
  /-- `ANDN`. gA AND NOT gB. (R114) -/
  | andn (d : Reg) (a b : Src)
  /-- `SHL`. Typed left shift by gB mod w. (R114) -/
  | shl (t : Ty) (d : Reg) (a b : Src)
  /-- `SHR`. Typed logical right shift. (R114) -/
  | shr (t : Ty) (d : Reg) (a b : Src)
  /-- `SAR`. Typed arithmetic right shift. (R114) -/
  | sar (t : Ty) (d : Reg) (a b : Src)
  /-- `ROL`. Typed rotate left. (R114) -/
  | rol (t : Ty) (d : Reg) (a b : Src)
  /-- `MOV`. Copies gA into gD. (R114) -/
  | mov (d : Reg) (a : Src)
  /-- `CLZ`. Counts leading zeros at the type width. (R115) -/
  | clz (t : Ty) (d : Reg) (a : Src)
  /-- `CTZ`. Counts trailing zeros at the type width. (R115) -/
  | ctz (t : Ty) (d : Reg) (a : Src)
  /-- `POPC`. Counts one bits at the type width. (R115) -/
  | popc (t : Ty) (d : Reg) (a : Src)
  /-- `BREV`. Reverses the bits at the type width. (R115) -/
  | brev (t : Ty) (d : Reg) (a : Src)
  /-- `EXT`. Extracts a bit field, optionally sign-extended. (R115) -/
  | ext (e : Bool) (d : Reg) (a b : Src)
  /-- `INS`. Inserts a bit field into gD. (R115) -/
  | ins (d : Reg) (a b : Src)
  /-- `MIN`. Signed minimum. (R116) -/
  | min (t : Ty) (d : Reg) (a b : Src)
  /-- `MAX`. Signed maximum. (R116) -/
  | max (t : Ty) (d : Reg) (a b : Src)
  /-- `MINN`. Natural minimum. (R116) -/
  | minn (t : Ty) (d : Reg) (a b : Src)
  /-- `MAXN`. Natural maximum. (R116) -/
  | maxn (t : Ty) (d : Reg) (a b : Src)
  /-- `SETEQ`. Sets 1 when the operands are equal at the type width. (R116) -/
  | seteq (t : Ty) (d : Reg) (a b : Src)
  /-- `SETNE`. Sets 1 when the operands differ. (R116) -/
  | setne (t : Ty) (d : Reg) (a b : Src)
  /-- `SETLT`. Sets 1 on signed less-than. (R116) -/
  | setlt (t : Ty) (d : Reg) (a b : Src)
  /-- `SETGE`. Sets 1 on signed greater-or-equal. (R116) -/
  | setge (t : Ty) (d : Reg) (a b : Src)
  /-- `SETLTN`. Sets 1 on natural less-than. (R116) -/
  | setltn (t : Ty) (d : Reg) (a b : Src)
  /-- `SETGEN`. Sets 1 on natural greater-or-equal. (R116) -/
  | setgen (t : Ty) (d : Reg) (a b : Src)
  /-- `SEL`. Selects gA or gB by gD being non-zero. (R116) -/
  | sel (d : Reg) (a b : Src)
  /-- `ADD_CONST`. ADD with a constant-window operand. (R117) -/
  | addConst (t : Ty) (d : Reg) (a : Src) (c : Fin 256)
  /-- `RSUB_CONST`. RSUB with a constant-window operand. (R117) -/
  | rsubConst (t : Ty) (d : Reg) (a : Src) (c : Fin 256)
  /-- `MUL_CONST`. MUL with a constant-window operand. (R117) -/
  | mulConst (t : Ty) (d : Reg) (a : Src) (c : Fin 256)
  /-- `AND_CONST`. AND with a constant-window operand. (R117) -/
  | andConst (d : Reg) (a : Src) (c : Fin 256)
  /-- `OR_CONST`. OR with a constant-window operand. (R117) -/
  | orConst (d : Reg) (a : Src) (c : Fin 256)
  /-- `XOR_CONST`. XOR with a constant-window operand. (R117) -/
  | xorConst (d : Reg) (a : Src) (c : Fin 256)
  /-- `SHL_CONST`. SHL with a constant-window shift count. (R117) -/
  | shlConst (t : Ty) (d : Reg) (a : Src) (c : Fin 256)
  /-- `SHR_CONST`. SHR with a constant-window shift count. (R117) -/
  | shrConst (t : Ty) (d : Reg) (a : Src) (c : Fin 256)
  /-- `LDI`. Loads a sign-extended 21-bit immediate. (R118) -/
  | ldi (d : Reg) (i : BitVec 21)
  /-- `LDHI`. Shifts gD up 21 bits and appends a natural immediate. (R119) -/
  | ldhi (d : Reg) (i : BitVec 21)
  /-- `LEA`. Computes a segment address without an access. (R120) -/
  | lea (s : SSz) (d : Reg) (o : MOff)
  /-- `DIV`. Signed divide through the special-function unit; parks. (R121) -/
  | div (t : Ty) (d : Reg) (a b : Src)
  /-- `DIVN`. Natural divide through the special-function unit; parks. (R121) -/
  | divn (t : Ty) (d : Reg) (a b : Src)
  /-- `REM`. Signed remainder through the special-function unit; parks. (R121) -/
  | rem (t : Ty) (d : Reg) (a b : Src)
  /-- `REMN`. Natural remainder through the special-function unit; parks. (R121) -/
  | remn (t : Ty) (d : Reg) (a b : Src)
  /-- `BEQ`. Branches when gA equals gB. (R126) -/
  | beq (a b : Src) (p : BitVec 11)
  /-- `BNE`. Branches when gA differs from gB. (R126) -/
  | bne (a b : Src) (p : BitVec 11)
  /-- `BLT`. Branches on signed less-than. (R126) -/
  | blt (a b : Src) (p : BitVec 11)
  /-- `BGE`. Branches on signed greater-or-equal. (R126) -/
  | bge (a b : Src) (p : BitVec 11)
  /-- `BLTN`. Branches on natural less-than. (R126) -/
  | bltn (a b : Src) (p : BitVec 11)
  /-- `BGEN`. Branches on natural greater-or-equal. (R126) -/
  | bgen (a b : Src) (p : BitVec 11)
  /-- `BZ`. Branches when gA is zero. (R126) -/
  | bz (a : Src) (p : BitVec 11)
  /-- `BNZ`. Branches when gA is non-zero. (R126) -/
  | bnz (a : Src) (p : BitVec 11)
  /-- `BANY`. Branches when any lane of mask kA is set. (R126) -/
  | bany (a : Reg) (p : BitVec 11)
  /-- `BALL`. Branches when every lane of mask kA is set. (R126) -/
  | ball (a : Reg) (p : BitVec 11)
  /-- `JMP`. Unconditional relative jump. (R128) -/
  | jmp (p : BitVec 25)
  /-- `CALL`. Pushes the return address and jumps relative. (R128) -/
  | call (p : BitVec 25)
  /-- `JMPR`. Jumps to a register target. (R129) -/
  | jmpr (a : Src)
  /-- `CALLR`. Pushes the return address and jumps to a register target. (R129) -/
  | callr (a : Src)
  /-- `KAND`. Mask AND. (R137) -/
  | kand (d a b : Reg)
  /-- `KOR`. Mask OR. (R137) -/
  | kor (d a b : Reg)
  /-- `KXOR`. Mask XOR. (R137) -/
  | kxor (d a b : Reg)
  /-- `KNOT`. Mask NOT. (R137) -/
  | knot (d a : Reg)
  /-- `KMOV`. Copies a mask register. (R137) -/
  | kmov (d a : Reg)
  /-- `KMOV_FROM_G`. Loads a mask from the low byte of a general register. (R137) -/
  | kmovFromG (d : Reg) (a : Src)
  /-- `KMOV_TO_G`. Copies a mask into a general register, zero-extended. (R137) -/
  | kmovToG (d a : Reg)
  /-- `COUPLE`. Arrives to form or join a gang and parks until all members arrive. (R139) -/
  | couple (d : Reg) (a : Src)
  /-- `RECOUPLE`. Arrives to rejoin the remembered gang. (R142) -/
  | recouple (d : Reg)
  /-- `PADD`. Packed wrapping add. (R146) -/
  | padd (m : Bool) (t : Ty) (d : Reg) (a b : Src)
  /-- `PSUB`. Packed wrapping subtract. (R146) -/
  | psub (m : Bool) (t : Ty) (d : Reg) (a b : Src)
  /-- `PADDS`. Packed saturating add. (R146) -/
  | padds (m : Bool) (t : Ty) (d : Reg) (a b : Src)
  /-- `PSUBS`. Packed saturating subtract. (R146) -/
  | psubs (m : Bool) (t : Ty) (d : Reg) (a b : Src)
  /-- `PMUL`. Packed low product. (R146) -/
  | pmul (m : Bool) (t : Ty) (d : Reg) (a b : Src)
  /-- `PMULH`. Packed high product. (R146) -/
  | pmulh (m : Bool) (t : Ty) (d : Reg) (a b : Src)
  /-- `PMIN`. Packed minimum. (R146) -/
  | pmin (m : Bool) (t : Ty) (d : Reg) (a b : Src)
  /-- `PMAX`. Packed maximum. (R146) -/
  | pmax (m : Bool) (t : Ty) (d : Reg) (a b : Src)
  /-- `PAVG`. Packed rounded average. (R146) -/
  | pavg (m : Bool) (t : Ty) (d : Reg) (a b : Src)
  /-- `PABS`. Packed saturating absolute value. (R146) -/
  | pabs (m : Bool) (t : Ty) (d : Reg) (a : Src)
  /-- `PSHL`. Packed left shift per lane. (R146) -/
  | pshl (m : Bool) (t : Ty) (d : Reg) (a b : Src)
  /-- `PSHR`. Packed right shift per lane. (R146) -/
  | pshr (m : Bool) (t : Ty) (d : Reg) (a b : Src)
  /-- `PCMP_EQ`. Packed equality compare into a mask. (R147) -/
  | pcmpEq (t : Ty) (k : Reg) (a b : Src)
  /-- `PCMP_NE`. Packed inequality compare into a mask. (R147) -/
  | pcmpNe (t : Ty) (k : Reg) (a b : Src)
  /-- `PCMP_LT`. Packed less-than compare into a mask. (R147) -/
  | pcmpLt (t : Ty) (k : Reg) (a b : Src)
  /-- `PCMP_GE`. Packed greater-or-equal compare into a mask. (R147) -/
  | pcmpGe (t : Ty) (k : Reg) (a b : Src)
  /-- `PSEL`. Selects lanes by k0. (R147) -/
  | psel (t : Ty) (d : Reg) (a b : Src)
  /-- `PSHUF`. Byte shuffle of gA under control gB. (R147) -/
  | pshuf (d : Reg) (a b : Src)
  /-- `PPACK`. Saturating narrow of two registers into one. (R147) -/
  | ppack (t : Ty) (d : Reg) (a b : Src)
  /-- `PUNPK_LO`. Widens the low lanes. (R147) -/
  | punpkLo (t : Ty) (d : Reg) (a : Src)
  /-- `PUNPK_HI`. Widens the high lanes. (R147) -/
  | punpkHi (t : Ty) (d : Reg) (a : Src)
  /-- `PMAC`. Packed dot product into two 32-bit accumulator lanes. (R148) -/
  | pmac (m : Bool) (t : Ty) (d : Reg) (a b : Src)
  /-- `PHADD`. Horizontal sum of lanes plus gB. (R148) -/
  | phadd (m : Bool) (t : Ty) (d : Reg) (a b : Src)
  /-- `PSAD`. Sum of absolute lane differences. (R148) -/
  | psad (m : Bool) (t : Ty) (d : Reg) (a b : Src)
  /-- `SCFG`. Configures a stream port from a 32-byte descriptor. (R154) -/
  | scfg (g : Fin 8) (a : Src) (p : Reg)
  /-- `SBIND`. Binds a configured stream port to its register. (R154) -/
  | sbind (p : Reg)
  /-- `SSTOP`. Unbinds a stream port, keeping its position. (R154) -/
  | sstop (p : Reg)
  /-- `SCNT`. Reads a port's remaining element count. (R154) -/
  | scnt (d p : Reg)
  /-- `FADD`. Scalar floating addition. (R173) -/
  | fadd (t : Ty) (d : Reg) (a b : Src)
  /-- `FSUB`. Scalar floating subtraction. (R173) -/
  | fsub (t : Ty) (d : Reg) (a b : Src)
  /-- `FMUL`. Scalar floating multiplication. (R173) -/
  | fmul (t : Ty) (d : Reg) (a b : Src)
  /-- `FFMA`. Fused multiply-add into gD. (R173) -/
  | ffma (t : Ty) (d : Reg) (a b : Src)
  /-- `FMIN`. Floating minimum. (R173) -/
  | fmin (t : Ty) (d : Reg) (a b : Src)
  /-- `FMAX`. Floating maximum. (R173) -/
  | fmax (t : Ty) (d : Reg) (a b : Src)
  /-- `FABS`. Clears the sign bit. (R173) -/
  | fabs (t : Ty) (d : Reg) (a : Src)
  /-- `FNEG`. Inverts the sign bit. (R173) -/
  | fneg (t : Ty) (d : Reg) (a : Src)
  /-- `FCMP_EQ`. Quiet floating equality compare. (R173) -/
  | fcmpEq (t : Ty) (d : Reg) (a b : Src)
  /-- `FCMP_LT`. Ordered floating less-than compare. (R173) -/
  | fcmpLt (t : Ty) (d : Reg) (a b : Src)
  /-- `FCMP_LE`. Ordered floating less-or-equal compare. (R173) -/
  | fcmpLe (t : Ty) (d : Reg) (a b : Src)
  /-- `FCMP_UN`. Unordered floating compare. (R173) -/
  | fcmpUn (t : Ty) (d : Reg) (a b : Src)
  /-- `FRND`. Rounds to an integral value by FPC.RM. (R173) -/
  | frnd (t : Ty) (d : Reg) (a : Src)
  /-- `FCLASS`. Classifies a floating value into a one-hot mask. (R173) -/
  | fclass (t : Ty) (d : Reg) (a : Src)
  /-- `FCVT`. Converts between floating, DS8 and integer types. (R176) -/
  | fcvt (o : Bool) (t s : Ty) (d : Reg) (a : Src)
  /-- `PFADD`. Packed floating addition. (R178) -/
  | pfadd (m : Bool) (t : Ty) (d : Reg) (a b : Src)
  /-- `PFMUL`. Packed floating multiplication. (R178) -/
  | pfmul (m : Bool) (t : Ty) (d : Reg) (a b : Src)
  /-- `PFFMA`. Packed fused multiply-add. (R178) -/
  | pffma (m : Bool) (t : Ty) (d : Reg) (a b : Src)
  /-- `PFMAX`. Packed floating maximum. (R178) -/
  | pfmax (m : Bool) (t : Ty) (d : Reg) (a b : Src)
  /-- `PFCVT`. Packed floating conversion, narrowing, widening or same width. (R179) -/
  | pfcvt (o : Bool) (t s : Ty) (d : Reg) (a b : Src)
  /-- `BADDQ`. Adds two self-describing blocks and requantises into a third. (R183) -/
  | baddq (t : Ty) (d : Reg) (a b : Src)
  /-- `BQUANT`. Quantises 62 F32 values into a block. (R183) -/
  | bquant (t : Ty) (d : Reg) (a b : Src)
  /-- `BDESC`. Reads a block's header fields. (R184) -/
  | bdesc (d : Reg) (a : Src)
  /-- `DSEXP`. Expands four DS8 weights into I16 lanes. (R185) -/
  | dsexp (h : Bool) (d : Reg) (a : Src)
  /-- `SRCP`. Special-function reciprocal; parks for the token. (R189) -/
  | srcp (t : Ty) (d : Reg) (a : Src)
  /-- `SRSQ`. Special-function reciprocal square root. (R189) -/
  | srsq (t : Ty) (d : Reg) (a : Src)
  /-- `SSQRT`. Special-function square root. (R189) -/
  | ssqrt (t : Ty) (d : Reg) (a : Src)
  /-- `SEXP2`. Special-function base-2 exponential. (R189) -/
  | sexp2 (t : Ty) (d : Reg) (a : Src)
  /-- `SLOG2`. Special-function base-2 logarithm. (R189) -/
  | slog2 (t : Ty) (d : Reg) (a : Src)
  /-- `SSIN`. Special-function sine of turns. (R189) -/
  | ssin (t : Ty) (d : Reg) (a : Src)
  /-- `SCOS`. Special-function cosine of turns. (R189) -/
  | scos (t : Ty) (d : Reg) (a : Src)
  /-- `STANH`. Special-function hyperbolic tangent. (R189) -/
  | stanh (t : Ty) (d : Reg) (a : Src)
  /-- `SFDIV`. Special-function floating division. (R189) -/
  | sfdiv (t : Ty) (d : Reg) (a b : Src)
  /-- `LD`. Load through a segment, parking on a miss. (R200) -/
  | ld (s : LSz) (d : Reg) (o : MOff)
  /-- `ST`. Store through a segment into the store buffer or scratchpad. (R200) -/
  | st (s : SSz) (d : Reg) (o : MOff)
  /-- `LDRO`. Load through the cluster's read-only path. (R206) -/
  | ldro (s : LSz) (d : Reg) (o : MOff)
  /-- `PREF`. Prefetch hint of one line; never faults. (R206) -/
  | pref (o : MOff)
  /-- `LDX`. Remote load from another core's scratchpad window. (R215) -/
  | ldx (s : LSz) (d : Reg) (a b : Src)
  /-- `LDX_W`. Reads a remote-window register. (R214) -/
  | ldxW (d w : Reg)
  /-- `STX`. Remote store into another core's scratchpad window via the store buffer. (R215) -/
  | stx (s : SSz) (d : Reg) (a b : Src)
  /-- `STX_W`. Lead context writes a remote-window register. (R214) -/
  | stxW (d w : Reg)
  /-- `STASH`. Puts a pad tile into stash mode over 1 KiB of global memory. (R209) -/
  | stash (l : Tile) (a : Src) (g : Reg)
  /-- `STASH_OFF`. Writes back a stash tile and leaves stash mode. (R210) -/
  | stashOff (l : Tile)
  /-- `WBACK`. Writes back dirty stash words of one line. (R211) -/
  | wback (a : Src) (g : Reg)
  /-- `WBACK_TILE`. Writes back every dirty word of a stash tile. (R211) -/
  | wbackTile (l : Tile)
  /-- `DISCARD`. Drops one line without write-back. (R212) -/
  | discard (a : Src) (g : Reg)
  /-- `AADD_N32`. Atomic add, 32-bit natural. (R230) -/
  | aaddN32 (o : Ord) (s : Scope) (d : Reg) (a : Src) (g : Reg)
  /-- `AADD_I32`. Atomic add, 32-bit signed. (R230) -/
  | aaddI32 (o : Ord) (s : Scope) (d : Reg) (a : Src) (g : Reg)
  /-- `AADD_64`. Atomic add, 64-bit. (R230) -/
  | aadd64 (o : Ord) (s : Scope) (d : Reg) (a : Src) (g : Reg)
  /-- `AAND_N32`. Atomic AND, 32-bit natural. (R230) -/
  | aandN32 (o : Ord) (s : Scope) (d : Reg) (a : Src) (g : Reg)
  /-- `AAND_I32`. Atomic AND, 32-bit signed. (R230) -/
  | aandI32 (o : Ord) (s : Scope) (d : Reg) (a : Src) (g : Reg)
  /-- `AAND_64`. Atomic AND, 64-bit. (R230) -/
  | aand64 (o : Ord) (s : Scope) (d : Reg) (a : Src) (g : Reg)
  /-- `AOR_N32`. Atomic OR, 32-bit natural. (R230) -/
  | aorN32 (o : Ord) (s : Scope) (d : Reg) (a : Src) (g : Reg)
  /-- `AOR_I32`. Atomic OR, 32-bit signed. (R230) -/
  | aorI32 (o : Ord) (s : Scope) (d : Reg) (a : Src) (g : Reg)
  /-- `AOR_64`. Atomic OR, 64-bit. (R230) -/
  | aor64 (o : Ord) (s : Scope) (d : Reg) (a : Src) (g : Reg)
  /-- `AXOR_N32`. Atomic XOR, 32-bit natural. (R230) -/
  | axorN32 (o : Ord) (s : Scope) (d : Reg) (a : Src) (g : Reg)
  /-- `AXOR_I32`. Atomic XOR, 32-bit signed. (R230) -/
  | axorI32 (o : Ord) (s : Scope) (d : Reg) (a : Src) (g : Reg)
  /-- `AXOR_64`. Atomic XOR, 64-bit. (R230) -/
  | axor64 (o : Ord) (s : Scope) (d : Reg) (a : Src) (g : Reg)
  /-- `ASWAP_N32`. Atomic swap, 32-bit natural. (R230) -/
  | aswapN32 (o : Ord) (s : Scope) (d : Reg) (a : Src) (g : Reg)
  /-- `ASWAP_I32`. Atomic swap, 32-bit signed. (R230) -/
  | aswapI32 (o : Ord) (s : Scope) (d : Reg) (a : Src) (g : Reg)
  /-- `ASWAP_64`. Atomic swap, 64-bit. (R230) -/
  | aswap64 (o : Ord) (s : Scope) (d : Reg) (a : Src) (g : Reg)
  /-- `ACAS_N32`. Atomic compare-and-swap, 32-bit natural. (R230) -/
  | acasN32 (o : Ord) (s : Scope) (d : Reg) (a : Src) (g : Reg)
  /-- `ACAS_I32`. Atomic compare-and-swap, 32-bit signed. (R230) -/
  | acasI32 (o : Ord) (s : Scope) (d : Reg) (a : Src) (g : Reg)
  /-- `ACAS_64`. Atomic compare-and-swap, 64-bit. (R230) -/
  | acas64 (o : Ord) (s : Scope) (d : Reg) (a : Src) (g : Reg)
  /-- `AMIN`. Atomic signed minimum. (R230) -/
  | amin (o : Ord) (s : Scope) (t : Bool) (d : Reg) (a : Src) (g : Reg)
  /-- `AMAX`. Atomic signed maximum. (R230) -/
  | amax (o : Ord) (s : Scope) (t : Bool) (d : Reg) (a : Src) (g : Reg)
  /-- `AMINN`. Atomic natural minimum. (R230) -/
  | aminn (o : Ord) (s : Scope) (t : Bool) (d : Reg) (a : Src) (g : Reg)
  /-- `AMAXN`. Atomic natural maximum. (R230) -/
  | amaxn (o : Ord) (s : Scope) (t : Bool) (d : Reg) (a : Src) (g : Reg)
  /-- `AFADD`. Atomic F32 add at the slice. (R232) -/
  | afadd (o : Ord) (s : Scope) (d : Reg) (a : Src) (g : Reg)
  /-- `FENCE`. Performs release and/or acquire actions on the CORE path. (R250) -/
  | fence (o : Ord) (s : Scope)
  /-- `XFENCE`. Orders accesses across two or more paths. (R255) -/
  | xfence (p : BitVec 6) (s : Reg)
  /-- `TRINIT`. Initialises a truss and wakes its waiters with 2. (R308) -/
  | trinit (a : Src)
  /-- `TRJOIN`. Makes the context a truss member. (R308) -/
  | trjoin (a : Src)
  /-- `TRARRIVE`. Marks the member arrived and returns the phase. (R308) -/
  | trarrive (d : Reg) (a : Src)
  /-- `TREXPECT`. Adds expected bytes to the truss. (R308) -/
  | trexpect (a b : Src)
  /-- `TRWAIT`. Waits for the phase to change, with an optional limit. (R308) -/
  | trwait (d : Reg) (a b : Src)
  /-- `TRTEST`. Reads truss state without waiting. (R308) -/
  | trtest (d : Reg) (a : Src)
  /-- `TRDROP`. Ends a truss membership. (R308) -/
  | trdrop (a : Src)
  /-- `CHSEND`. Sends a flit to a channel of a core, parking until accepted. (R317) -/
  | chsend (n : Fin 4) (d : Reg) (a : Src)
  /-- `CHRECV`. Takes the oldest flit of a channel, parking when empty. (R317) -/
  | chrecv (n : Fin 4) (d b : Reg)
  /-- `CHRECV_FROM`. Takes the oldest flit from a named sender, forming an edge while parked. (R317) -/
  | chrecvFrom (n : Fin 4) (d : Reg) (a : Src)
  /-- `CHPOLL`. Reads a channel's head tag and flit count. (R317) -/
  | chpoll (n : Fin 4) (d : Reg)
  /-- `CPFILL`. Issues a copy job filling a tile from global memory. (R329) -/
  | cpfill (q : Bool) (l : Tile) (d : Reg) (a b : Src)
  /-- `CPDRAIN`. Issues a copy job draining a tile to global memory. (R329) -/
  | cpdrain (q : Bool) (l : Tile) (d : Reg) (a b : Src)
  /-- `CPGATH`. Issues a gather copy job into a tile. (R329) -/
  | cpgath (q : Bool) (l : Tile) (d : Reg) (a b : Src)
  /-- `CPSCAT`. Issues a scatter copy job from a tile. (R329) -/
  | cpscat (q : Bool) (l : Tile) (d : Reg) (a b : Src)
  /-- `CPWAIT`. Waits for a copy job and returns its status. (R331) -/
  | cpwait (d : Reg) (a : Src)
  /-- `CPPOLL`. Returns a copy job's status without waiting. (R331) -/
  | cppoll (d : Reg) (a : Src)
  /-- `TLSTAT`. Reads a tile-table entry. (R331) -/
  | tlstat (l : Tile) (d : Reg)
  /-- `TLSET`. Sets a tile EMPTY or READY. (R331) -/
  | tlset (l : Tile) (a : Src)
  /-- `MXMUL`. Issues a matrix multiply job into accumulator slots. (R348) -/
  | mxmul (q u v w : Bool) (s : Fin 4) (d : Reg) (a b : Src)
  /-- `MXMULG`. Issues a group-mode tile multiply chosen by GEOM. (R351) -/
  | mxmulg (q u v w : Bool) (s : Fin 4) (d : Reg) (a b : Src)
  /-- `MXZERO`. Issues a job zeroing an accumulator slot. (R352) -/
  | mxzero (q : Bool) (s : Fin 4) (d : Reg)
  /-- `MXREAD`. Issues a job writing accumulator slots to a destination. (R352) -/
  | mxread (q : Bool) (s : Fin 4) (d : Reg) (a : Src)
  /-- `MXWAIT`. Waits for a matrix job and returns its status. (R354) -/
  | mxwait (d : Reg) (a : Src)
  /-- `MXPOLL`. Returns a matrix job's status without waiting. (R354) -/
  | mxpoll (d : Reg) (a : Src)
  /-- `SPAWN`. Lead context starts a helper in a free context. (R268) -/
  | spawn (d : Reg) (a b : Src)
  /-- `REAP`. Lead context ends a context without its consent. (R269) -/
  | reap (a : Src)
  /-- `WAKE`. Lead context wakes a sleeping context or sets its pending wake. (R270) -/
  | wake (a : Src)
  /-- `WAKE_V`. Lead context writes a value into a context's register and wakes it. (R270) -/
  | wakeV (n : Reg) (a b : Src)
  /-- `SLEEP`. Parks until a WAKE, the cycle limit or a trap. (R272) -/
  | sleep (d : Reg) (a : Src)
  /-- `HOP`. Moves the context to a free context of another core. (R273) -/
  | hop (d : Reg) (a : Src)
  /-- `TRAP`. Stops the context with a TRAP number. (R286) -/
  | trap (n : Fin 64)
  /-- `ERET_CTX`. The lead resumes a stopped context at TPC. (R286) -/
  | eretCtx (a : Src)
  /-- `MFS`. Reads a system register. (R80) -/
  | mfs (r : SysReg) (d : Reg)
  /-- `MTS`. Writes a system register within its access rules. (R80) -/
  | mts (r : SysReg) (a : Src)
  /-- `SFREC`. Moves the oldest store-fault record to scratchpad. (R286) -/
  | sfrec (d : Reg) (a : Src)
  /-- `FLTINFO`. Reads a double of a context's fault slot. (R286) -/
  | fltinfo (i : Fin 4) (d : Reg) (a : Src)
  /-- `CNTRD`. Reads a per-context counter. (R294) -/
  | cntrd (d n : Reg)
  /-- `CNTRD_UNIT`. Reads a per-partition shared-unit count. (R296) -/
  | cntrdUnit (u : Fin 8) (d : Reg)
  /-- `CNTCFG`. Configures and starts a counter. (R294) -/
  | cntcfg (e : Fin 16) (n : Reg)
  /-- `CNTSTOP`. Stops a counter. (R294) -/
  | cntstop (n : Reg)
  /-- `LNCH`. Enqueues a packet from scratchpad onto a command queue. (R389) -/
  | lnch (d : Reg) (a b : Src)
  /-- `RELNCH`. Enqueues a RELAUNCH packet onto a command queue. (R389) -/
  | relnch (d : Reg) (a b : Src)
  /-- `DTMARK`. Records a span as read by the traced block. (R390) -/
  | dtmark (d : Reg) (a : Src) (g : Reg)
  /-- `DTWAVE`. Returns the current wave number. (R390) -/
  | dtwave (d : Reg)
  /-- `GTOPEN`. Opens a gate handle with requested rights. (R406) -/
  | gtopen (r : Fin 8) (d : Reg) (a : Src)
  /-- `GTSIG`. Releases and signals a gate, optionally setting its value. (R406) -/
  | gtsig (v n : Bool) (h : Fin 4) (d : Reg) (a : Src)
  /-- `GTWAIT`. Waits until a gate's SEQ reaches a target, then acquires. (R406) -/
  | gtwait (h : Fin 4) (d : Reg) (a : Src)
  /-- `GTPOLL`. Reads a gate's SEQ and VALUE without acquire. (R406) -/
  | gtpoll (h : Fin 4) (d : Reg)
  /-- `GTXFER`. Copies data into a gate's transfer window. (R410) -/
  | gtxfer (g : Fin 8) (h : Fin 4) (d : Reg) (a b : Src)
  /-- `GTCLOSE`. Closes a gate handle slot. (R406) -/
  | gtclose (h : Fin 4)
  /-- `EVREQ`. Requests signed evidence from the security processor. (R439) -/
  | evreq (g : Fin 8) (d : Reg) (a b : Src)
  /-- `KINST`. Installs a wrapped tenant key and starts rotation. (R440) -/
  | kinst (g : Fin 8) (d : Reg) (a : Src)
  /-- `CMPSW`. Switches the context's current compartment. (R441) -/
  | cmpsw (d : Reg) (a : Src)
  /-- `MOV_16`. 16-bit MOV. (R90) -/
  | mov16 (d a : Reg)
  /-- `ADD_16`. 16-bit ADD.i64 gD, gD, gA. (R90) -/
  | add16 (d a : Reg)
  /-- `SUB_16`. 16-bit SUB.i64 gD, gD, gA. (R90) -/
  | sub16 (d a : Reg)
  /-- `AND_16`. 16-bit AND gD, gD, gA. (R90) -/
  | and16 (d a : Reg)
  /-- `OR_16`. 16-bit OR gD, gD, gA. (R90) -/
  | or16 (d a : Reg)
  /-- `XOR_16`. 16-bit XOR gD, gD, gA. (R90) -/
  | xor16 (d a : Reg)
  /-- `LDI_16`. 16-bit LDI of a 7-bit signed immediate. (R90) -/
  | ldi16 (d : Reg) (i : BitVec 7)
  /-- `LD_I64_16`. 16-bit 64-bit load indexed by gA. (R90) -/
  | ldI6416 (d a : Reg) (g : Fin 8)
  /-- `ST_I64_16`. 16-bit 64-bit store indexed by gA. (R90) -/
  | stI6416 (d a : Reg) (g : Fin 8)
  /-- `LD_N32_16`. 16-bit 32-bit zero-extending load. (R90) -/
  | ldN3216 (d a : Reg) (g : Fin 8)
  /-- `ST_N32_16`. 16-bit 32-bit store. (R90) -/
  | stN3216 (d a : Reg) (g : Fin 8)
  /-- `BZ_16`. 16-bit BZ with a 7-bit displacement. (R90) -/
  | bz16 (d : Reg) (p : BitVec 7)
  /-- `BNZ_16`. 16-bit BNZ with a 7-bit displacement. (R90) -/
  | bnz16 (d : Reg) (p : BitVec 7)
  /-- `MOV_F_16`. 16-bit MOV with a synchronised read of gA. (R90) -/
  | movF16 (d a : Reg)
  /-- `GYDON_LI`. Gydon: loads a sign-extended 8-bit immediate into bD. (R41) -/
  | gydonLi
  /-- `GYDON_LHI`. Gydon: replaces bits 31:24 of bD with an 8-bit immediate. (R41) -/
  | gydonLhi
  /-- `GYDON_MV`. Gydon: copies bA into bD. (R41) -/
  | gydonMv
  /-- `GYDON_ADD`. Gydon: 32-bit wrapping addition. (R42) -/
  | gydonAdd
  /-- `GYDON_SUB`. Gydon: 32-bit wrapping subtraction. (R42) -/
  | gydonSub
  /-- `GYDON_AND`. Gydon: bitwise AND. (R42) -/
  | gydonAnd
  /-- `GYDON_OR`. Gydon: bitwise OR. (R42) -/
  | gydonOr
  /-- `GYDON_XOR`. Gydon: bitwise XOR. (R42) -/
  | gydonXor
  /-- `GYDON_SHL`. Gydon: left shift by bB mod 32. (R42) -/
  | gydonShl
  /-- `GYDON_SHR`. Gydon: logical right shift by bB mod 32. (R42) -/
  | gydonShr
  /-- `GYDON_LDB`. Gydon: window-checked byte load, parking until the data returns. (R43) -/
  | gydonLdb
  /-- `GYDON_LDH`. Gydon: window-checked halfword load, parking until the data returns. (R43) -/
  | gydonLdh
  /-- `GYDON_LDW`. Gydon: window-checked word load, parking until the data returns. (R43) -/
  | gydonLdw
  /-- `GYDON_STW`. Gydon: word store into SCR, parking until acknowledged. (R43) -/
  | gydonStw
  /-- `GYDON_BEQ`. Gydon: branch when bD equals bA. (R44) -/
  | gydonBeq
  /-- `GYDON_BNE`. Gydon: branch when bD differs from bA. (R44) -/
  | gydonBne
  /-- `GYDON_BLT`. Gydon: branch when bD is below bA, signed. (R44) -/
  | gydonBlt
  /-- `GYDON_JMP`. Gydon: unconditional halfword-relative jump. (R44) -/
  | gydonJmp
  /-- `GYDON_TBL`. Gydon: searches TAB for a key and returns the record index or all ones. (R45) -/
  | gydonTbl
  /-- `GYDON_FIELD`. Gydon: writes a value into the D, A, B or C8 field of an instruction word using a record's FDESC. (R46) -/
  | gydonField
  /-- `GYDON_EMIT`. Gydon: checks a 32-bit word against the chip table and appends it to OUT. (R47) -/
  | gydonEmit
  /-- `GYDON_EMIT_H`. Gydon: checks a 16-bit word against the chip table and appends it to OUT. (R47) -/
  | gydonEmitH
  /-- `GYDON_ORIG`. Gydon: adds or replaces an origin-map entry. (R48) -/
  | gydonOrig
  /-- `GYDON_DONE`. Gydon: ends the translation, checks branch targets and starts the cache write. (R49) -/
  | gydonDone
  /-- `GYDON_FAIL`. Gydon: ends the translation and refuses the binary with a reason code. (R50) -/
  | gydonFail
  /-- `GYDON_READ_REPLY`. A Gydon window or TAB access returns and its parked instruction continues. (R51) -/
  | gydonReadReply
  /-- `DONE_COMPLETE`. The DONE check and cache write finish, the entry is cached and context 15 returns to the leaf controller. (R49) -/
  | doneComplete
  /-- `RET`. Pops a return address, filling from sg7 or exiting when empty. (R133) -/
  | ret
  /-- `EXIT`. Waits for its stores, drops memberships, handles and streams, reports the block and frees the context. (R136) -/
  | exit
  /-- `NOP`. Does nothing. (R129) -/
  | nop
  /-- `DECOUPLE`. All gang members part. (R141) -/
  | decouple
  /-- `GANG_ARRIVAL`. A COUPLE or RECOUPLE arrival reaches the leader's core; the last one forms the gang and wakes every member. (R139) -/
  | gangArrival
  /-- `STREAM_ELEMENT_ARRIVAL`. A prefetched read-stream element arrives and wakes a pop parked on it. (R155) -/
  | streamElementArrival
  /-- `SFU_REQUEST_START`. The quad's special-function unit starts its oldest queued request. (R192) -/
  | sfuRequestStart
  /-- `RETURN_TOKEN`. A special-function or divide result token writes gD and flags and wakes the context, or becomes a pending token. (R189) -/
  | returnToken
  /-- `DRAIN`. Parks until every earlier store of the context has completed or been recorded. (R208) -/
  | drain
  /-- `STASH_FILL`. Invalid words of a stash line are filled from the slice and the parked access continues. (R209) -/
  | stashFill
  /-- `TRANSLATION_WALK_END`. A translation walk at the cluster port ends: proceed, EPROT, or page not present. (R198) -/
  | translationWalkEnd
  /-- `MIGRATION_PULL_COMPLETE`. A pulled page lands, the leaves are written and waiting accesses are reissued. (R426) -/
  | migrationPullComplete
  /-- `LOAD_REPLY`. Data for a parked load, LDX or fill returns and the context re-enters rotation. (R202) -/
  | loadReply
  /-- `STORE_COMPLETE`. A buffered store is written at its slice and acknowledged, registering ownership and updating dirty tables. (R203) -/
  | storeComplete
  /-- `REMOTE_ACCESS`. An LDX or STX arrives at the target core and is granted or refused by its windows. (R215) -/
  | remoteAccess
  /-- `ATOMIC_AT_SLICE`. An atomic request is performed at its word's slice as one action. (R230) -/
  | atomicAtSlice
  /-- `ATOMIC_REPLY`. An atomic's old value returns, acquire actions run and the context wakes. (R230) -/
  | atomicReply
  /-- `REVOKE`. A revoke reaches a core and clears the owned mark of its cached word. (R239) -/
  | revoke
  /-- `FAR_COPY_INVALIDATION`. A die applies an invalidation of its far copy of a written line. (R258) -/
  | farCopyInvalidation
  /-- `SWEEP_MARKER`. A sweep marker returns from a die; the last one ends the sweep. (R259) -/
  | sweepMarker
  /-- `HIO_WRITE`. A write from a root port or host agent is performed at its home slice. (R263) -/
  | hioWrite
  /-- `RO_LINE_EXPIRY`. A read-only-cache line leaves 65,536 cycles after its fill. (R254) -/
  | roLineExpiry
  /-- `TRWAIT_DEADLINE`. A TRWAIT's deadline passes and it completes with 0. (R308) -/
  | trwaitDeadline
  /-- `FLIT_ARRIVAL`. A flit reaches a channel, is accepted when room exists and wakes a matching receive. (R317) -/
  | flitArrival
  /-- `CHANNEL_PROBE_TIMER`. An edge has stood for 1,024 cycles and a probe is sent. (R319) -/
  | channelProbeTimer
  /-- `CHANNEL_PROBE`. A probe reaches a core and is forwarded, dropped, or starts a confirm. (R319) -/
  | channelProbe
  /-- `CHANNEL_CONFIRM`. A confirm checks an edge and may stop the cycle's contexts with ECHAN. (R319) -/
  | channelConfirm
  /-- `COPY_JOB_START`. The copy unit starts the next queued job in core rotation. (R332) -/
  | copyJobStart
  /-- `COPY_BANK_WRITE`. A fill or gather writes bytes into a tile bank and counts them into its truss. (R334) -/
  | copyBankWrite
  /-- `COPY_GLOBAL_WRITE_ACCEPT`. A slice accepts a drain or scatter write and its bytes count into the truss. (R334) -/
  | copyGlobalWriteAccept
  /-- `COPY_JOB_FAULT`. A running copy job meets a fault and ends at the failing element. (R333) -/
  | copyJobFault
  /-- `COPY_JOB_COMPLETE`. A copy job's last write is applied and its status and tile state update. (R332) -/
  | copyJobComplete
  /-- `GATEWAY_SEED`. The gateway block queue seeds the next block into a freed gateway context. (R336) -/
  | gatewaySeed
  /-- `MATRIX_JOB_START`. The matrix engine starts the next queued job in core rotation. (R355) -/
  | matrixJobStart
  /-- `MATRIX_JOB_COMPLETE`. A matrix job completes, writing its results and status. (R355) -/
  | matrixJobComplete
  /-- `MATRIX_JOB_FAULT`. A matrix job meets a global fault while running. (R358) -/
  | matrixJobFault
  /-- `YIELD`. Gives way to every other ready context once. (R271) -/
  | yield
  /-- `SLEEP_LIMIT`. A SLEEP's cycle limit passes and it completes with 0. (R272) -/
  | sleepLimit
  /-- `HOP_TARGET_REQUEST`. The target leaf controller grants or refuses a free context to a HOP. (R273) -/
  | hopTargetRequest
  /-- `HOP_IMAGE_ARRIVAL`. A HOP image arrives, acquires and becomes READY on the target. (R273) -/
  | hopImageArrival
  /-- `PREEMPT`. System software pre-empts a core, which drains and saves its state. (R276) -/
  | preempt
  /-- `RESUME`. A saved core is restored, its inbox applied and issue restarted. (R276) -/
  | resume
  /-- `INBOX_MESSAGE`. A message addressed to a saved core enters its inbox. (R277) -/
  | inboxMessage
  /-- `ERET`. The lead leaves its handler. (R286) -/
  | eret
  /-- `HANDLER_ENTRY`. The lead context enters its trap handler at its next boundary. (R283) -/
  | handlerEntry
  /-- `LEAD_RESTART`. System software restarts a fallen lead at a named pc. (R284) -/
  | leadRestart
  /-- `DTFORGET`. Marks the block to rerun always. (R390) -/
  | dtforget
  /-- `GATE_TABLE_OPERATION`. A gate request reaches the table and is performed in the gate's order. (R406) -/
  | gateTableOperation
  /-- `GATE_REPLY`. A gate reply returns to its context, which wakes. (R407) -/
  | gateReply
  /-- `GATE_TRANSFER_COMPLETE`. Every write of a GTXFER is performed and it completes. (R410) -/
  | gateTransferComplete
  /-- `GATE_REFILL_TICK`. Every 65,536 cycles each access-list bucket is refilled and waiters proceed. (R403) -/
  | gateRefillTick
  /-- `GATE_MIGRATION_SEND`. A held gate with no operation in progress is sent to the destination table. (R412) -/
  | gateMigrationSend
  /-- `GATE_MIGRATION_ARRIVAL`. A migrated gate record arrives, HELD clears and parked operations are forwarded. (R412) -/
  | gateMigrationArrival
  /-- `EVIDENCE_COMPLETE`. The evidence record is written and EVREQ completes. (R439) -/
  | evidenceComplete
  /-- `KEY_INSTALL_COMPLETE`. The security processor checks the blob and KINST completes or faults. (R440) -/
  | keyInstallComplete
  /-- `ROTATION_SWEEP_STEP`. The key-rotation sweep re-encrypts one line; the last ends the rotation. (R435) -/
  | rotationSweepStep
  /-- `EXIT_16`. 16-bit EXIT. (R90) -/
  | exit16
  /-- `RET_16`. 16-bit RET. (R90) -/
  | ret16
  /-- `LAUNCH`. The command processor takes a LAUNCH packet, validates it and begins translation and admission. (R368) -/
  | launch
  /-- `RELAUNCH`. The command processor takes a RELAUNCH packet and runs in full or swaps tables for waves. (R384) -/
  | relaunch
  /-- `MARK`. The command processor takes a MARK packet and holds its queue. (R371) -/
  | mark
  /-- `MARK_STORE`. Once earlier packets complete, a MARK releases, stores its value and advances REPLAY. (R371) -/
  | markStore
  /-- `WAITVAL`. The command processor takes a WAITVAL packet and holds its queue. (R371) -/
  | waitval
  /-- `WAITVAL_SATISFIED`. A WAITVAL's condition holds, it acquires and the queue proceeds. (R371) -/
  | waitvalSatisfied
  /-- `INVALID_PACKET`. A packet with TYPE 5 to 255 holds its queue without a report. (R367) -/
  | invalidPacket
  /-- `TRANSLATION_START`. The leaf controller reserves context 15 and starts the translator in Gydon mode. (R21) -/
  | translationStart
  /-- `LAUNCH_ADMIT`. The global scheduler admits a waiting launch against sector budgets, or rejects it. (R373) -/
  | launchAdmit
  /-- `SEED_BLOCK`. A leaf controller seeds the next block into a free eligible context. (R376) -/
  | seedBlock
  /-- `WAVE_END`. A relaunch wave ends and the next selection test runs. (R385) -/
  | waveEnd
  /-- `LAUNCH_COMPLETE`. A launch completes, its charge is released and its report written. (R370) -/
  | launchComplete
  /-- `UNCORRECTABLE_ERROR`. An uncorrectable memory error fences and resets the owning partition. (R291) -/
  | uncorrectableError
  /-- `PARTITION_RESET`. A partition is reset, its state dropped and its queues replayed. (R392) -/
  | partitionReset
  /-- `WATCHDOG_EXPIRY`. A partition makes no progress for a whole watchdog interval and is reset. (R393) -/
  | watchdogExpiry
  /-- `PARTITION_ENABLE`. Setting PCFG.EN checks the configuration and resets the partition into service. (R419) -/
  | partitionEnable
  /-- `PARTITION_DISABLE`. Clearing PCFG.EN resets the partition and frees its clusters. (R419) -/
  | partitionDisable
  /-- `REGISTER_WRITE`. A host write to a control-window register with no behaviour of its own. (R445) -/
  | registerWrite
  /-- `PSHOOT`. Removes cached translations and copies of a page on every port of the partition. (R420) -/
  | pshoot
  /-- `PSHOOT_COMPLETE`. All in-progress walks and accesses have ended and GO clears. (R420) -/
  | pshootComplete
  /-- `PDROP`. Invalidates every line of a frame without write-back. (R420) -/
  | pdrop
  /-- `DOORBELL_REISSUE`. Wake doorbell action 0 reissues every access waiting on a token. (R290) -/
  | doorbellReissue
  /-- `DOORBELL_GIVE_UP`. Wake doorbell action 1 ends waiting accesses with EPNP. (R290) -/
  | doorbellGiveUp
  /-- `SCRUB_TAGGED_REQUEST`. A tagged request reaches a controller, creating a scrub record and reading zeros for uncleared lines. (R421) -/
  | scrubTaggedRequest
  /-- `SCRUB_CLEAR_LINE`. The background clear zeroes one line; the last clears UNSCR and frees the record. (R421) -/
  | scrubClearLine
  /-- `GATE_CREATE`. Command-ring command creating a gate. (R400) -/
  | gateCreate
  /-- `GATE_CHANGE`. Command-ring command changing a gate's record. (R413) -/
  | gateChange
  /-- `GATE_DESTROY`. Command-ring command destroying a gate, waking parked contexts with EGATE 3. (R413) -/
  | gateDestroy
  /-- `GATE_MIGRATE`. Command-ring command that sets HELD and starts moving a gate. (R412) -/
  | gateMigrate
  /-- `CREATE_COMPARTMENT`. Security-processor command creating a compartment with a fresh key. (R428) -/
  | createCompartment
  /-- `SET_FRAME_TAG`. Security-processor command setting a frame tag and advancing its counter. (R429) -/
  | setFrameTag
  /-- `READ_CERTIFICATE`. Security-processor command returning the attestation certificate chain. (R445) -/
  | readCertificate
  /-- `FIRMWARE_UPDATE`. Writes a new firmware slot image and rewrites a marker copy. (R449) -/
  | firmwareUpdate
  /-- `THERMAL_READING`. Every 100 µs sector temperatures are read, halving admission or shutting down on overheat. (R454) -/
  | thermalReading
  /-- `FIRMWARE_MESSAGE`. A 64-byte command-link message is received between a leaf and the global scheduler. (R444) -/
  | firmwareMessage
  /-- `PERMIT_RETURN`. A send permit returns to a waiting sender. (R444) -/
  | permitReturn
  /-- `PACKAGE_RESET`. Power-up or package reset runs the boot ROM slot decision. (R448) -/
  | packageReset
  /-- `PCIE_LINK_TRAINING`. A root port trains by the LTSSM to the best common generation and width. (R450) -/
  | pcieLinkTraining
  /-- `LINK_PARTNER_DETECT`. A Herlek link senses a partner and enters PROBE. (R451) -/
  | linkPartnerDetect
  /-- `LINK_PROBE_EXCHANGE`. Both ends exchange generations and PKGNUM and enter TRAIN. (R451) -/
  | linkProbeExchange
  /-- `LINK_TRAIN_RESULT`. Equalisation at a generation succeeds, falls back or goes DOWN. (R451) -/
  | linkTrainResult
  /-- `LINK_FLIT_RECEIVE`. A flit is received; errors are replayed and LOCK or RETRAIN may follow. (R451) -/
  | linkFlitReceive
  /-- `LINK_RETRAIN_REQUEST`. System software requests a link to train again from DETECT. (R451) -/
  | linkRetrainRequest
  /-- `ILLEGAL_ENCODING`. A fetched native word or Gydon halfword that matches no record or opcode raises EILL precisely. (R66) -/
  | illegalEncoding
  /-- `FETCH_FAULT`. The fetch of a parcel beyond sg0's limit, without X, or outside the Gydon image raises ESEG or EPROT, or parks on a page not present. (R60) -/
  | fetchFault
  /-- `BLOCK_OPERATION_COMPLETE`. A BADDQ or BQUANT finishes its 20 or 36 parked cycles, writes its block and flags, and returns its context to rotation. (R186) -/
  | blockOperationComplete
  /-- `STASH_WRITE_BACK_ACKNOWLEDGED`. The slice acknowledges a dirty stash word's write-back, registering ownership and releasing a parked WBACK, STASH.OFF or release. (R211) -/
  | stashWriteBackAcknowledged
  /-- `SLICE_SUM_COMPLETE`. The sum of slice counts for CNTRD.UNIT with u 6 or 7 is gathered and written to gD, waking the context. (R296) -/
  | sliceSumComplete
  /-- `FAULT_RING_REGISTER_WRITE`. A host write to RCONS, RBASE or RCFG of a fault ring frees room or enables the ring, so waiting records are written. (R459) -/
  | faultRingRegisterWrite
  /-- `PSTAT_READ`. A host read of PSTAT returns ERR and then clears it. (R418) -/
  | pstatRead
  /-- `LINK_LOSS_OF_LOCK`. A Herlek link loses lock because its partner fails or disappears, moving both ends out of ACTIVE. (R451) -/
  | linkLossOfLock
deriving DecidableEq, Repr

end Sys2Proof
end

