-- ==== Sys2Proof/Machine/Bits.lean ====
section
/-! DEFINITION. Bit fields, widths of types, sign and zero extension (R2, R63, R70, R111). -/

namespace Sys2Proof.Machine

/-- The width of a type in bits (R69, R163). -/
def tyWidth : Ty → Nat
  | .i64 | .n64 => 64
  | .i32 | .n32 | .f32 => 32
  | .i16 | .n16 | .f16 | .bf16 => 16
  | .i8 | .n8 | .e4m3 | .e5m2 | .ds8 => 8
  | .i4 | .n4 => 4
  | .i2 => 2
  | .i1 => 1

/-- An I type (R69). -/
def tySigned : Ty → Bool
  | .i64 | .i32 | .i16 | .i8 | .i4 | .i2 | .i1 => true
  | _ => false

/-- A floating type, DS8 among them (R175). -/
def tyFloat : Ty → Bool
  | .f32 | .f16 | .bf16 | .e4m3 | .e5m2 | .ds8 => true
  | _ => false

/-- The low w bits of a double as a natural number: Bits (R111). -/
def lowBits (w : Nat) (x : W) : Nat := x.toNat % 2 ^ w

/-- The low w bits of a number read as a signed value. -/
def signedOf (w : Nat) (n : Nat) : Int := if n < 2 ^ (w - 1) then (n : Int) else (n : Int) - (2 : Int) ^ w

/-- Val (R111): the low bits of a double by the type. -/
def tyVal (t : Ty) (x : W) : Int :=
  let n := lowBits (tyWidth t) x
  if tySigned t then signedOf (tyWidth t) n else n

/-- A double from the low w bits of an integer, extended by the sign or by zeros (R70). -/
def extend (w : Nat) (sx : Bool) (v : Int) : W :=
  let n := (v % (2 : Int) ^ w).toNat
  .ofInt 64 (if sx then signedOf w n else n)

/-- Put (R111): an integer kept to the type's width and extended by the type. -/
def tyPut (t : Ty) (v : Int) : W := extend (tyWidth t) (tySigned t) v

/-- Bytes of a load size (R63). -/
def lszBytes : LSz → Nat
  | .n8 | .i8 => 1
  | .n16 | .i16 => 2
  | .n32 | .i32 => 4
  | .n64 => 8

/-- A load size that sign-extends (R63). -/
def lszSigned : LSz → Bool
  | .i8 | .i16 | .i32 => true
  | _ => false

/-- Bytes of a store size (R63). -/
def sszBytes : SSz → Nat
  | .n8 => 1 | .n16 => 2 | .n32 => 4 | .n64 => 8

/-- A loaded value extended as SZ says (R63). -/
def lszExtend (z : LSz) (n : Nat) : W := extend (8 * lszBytes z) (lszSigned z) n

/-- Bits lo to lo + n − 1 of a double. -/
def bitsOf (x : W) (lo n : Nat) : Nat := x.toNat / 2 ^ lo % 2 ^ n

/-- Bits lo to lo + n − 1 of a number. -/
def natBits (x lo n : Nat) : Nat := x / 2 ^ lo % 2 ^ n

/-- Bit i of a number. -/
def natBit (x i : Nat) : Bool := x / 2 ^ i % 2 == 1

/-- Bytes lo to lo + n − 1 of a little-endian number. -/
def natBytes (x lo n : Nat) : Nat := x / 256 ^ lo % 256 ^ n

/-- The little-endian bytes of a number. -/
def toBytes : Nat → Nat → List Byte
  | 0, _ => []
  | n + 1, v => .ofNat 8 v :: toBytes n (v / 256)

/-- The number whose little-endian bytes are given. -/
def ofBytes : List Byte → Nat
  | [] => 0
  | b :: r => b.toNat + 256 * ofBytes r

/-- Lane i of width w of a double (R144). -/
def lane (w : Nat) (x : W) (i : Nat) : Nat := x.toNat / 2 ^ (w * i) % 2 ^ w

/-- A double from lanes of width w, lane 0 first (R144). -/
def ofLanes (w : Nat) (l : List Nat) : W := .ofNat 64 (l.foldr (fun v acc => v % 2 ^ w + 2 ^ w * acc) 0)

/-- x rounded up to a multiple of n. -/
def roundUp (x n : Nat) : Nat := (x + n - 1) / n * n

end Sys2Proof.Machine
end

