-- ==== Sys2Proof/Machine/Assoc.lean ====
section
/-! DEFINITION. Plain-data maps and byte memories. A map is a list of keys and values in rising order of key; a memory is a
list of cells in rising order of address that lists no zero byte (what an unlisted address reads as, log entry 4). -/

namespace Sys2Proof.Machine

/-- A map from numbers, as plain data. -/
abbrev Assoc (α : Type) := List (Nat × α)

/-- The value at a key. -/
def aget? {α : Type} : Assoc α → Nat → Option α
  | [], _ => none
  | (k, v) :: r, i => if k = i then some v else aget? r i

/-- The value at a key, or a default. -/
def aget {α : Type} (m : Assoc α) (i : Nat) (dflt : α) : α := (aget? m i).getD dflt

/-- The map with a new value at a key; the rising order is kept. -/
def aset {α : Type} : Assoc α → Nat → α → Assoc α
  | [], i, v => [(i, v)]
  | (k, w) :: r, i, v =>
    if k = i then (i, v) :: r else if i < k then (i, v) :: (k, w) :: r else (k, w) :: aset r i v

/-- The map without a key. -/
def adel {α : Type} (m : Assoc α) (i : Nat) : Assoc α := m.filter fun e => e.1 != i

/-- A byte memory. -/
abbrev Memory := List Host.Cell

/-- The byte that an unlisted address reads as (log entry 4). -/
def unlistedByte : Byte := 0

/-- The byte at an address. [log 4, DESIGN CHOICE] -/
def Memory.byte : Memory → Nat → Byte
  | [], _ => unlistedByte
  | (a, v) :: r, i => if a = i then v else Memory.byte r i

/-- A cell put into a list of cells in rising order of address. -/
def Memory.insert : Memory → Nat → Byte → Memory
  | [], i, v => [(i, v)]
  | (a, w) :: r, i, v => if i < a then (i, v) :: (a, w) :: r else (a, w) :: Memory.insert r i v

/-- The memory with one byte written. Writing what an unlisted address reads as removes the cell. -/
def Memory.put (m : Memory) (i : Nat) (v : Byte) : Memory :=
  let r := m.filter fun c => c.1 != i
  if v = unlistedByte then r else Memory.insert r i v

/-- The n bytes from an address, as a little-endian number (R2). -/
def Memory.load (m : Memory) (a : Nat) : Nat → Nat
  | 0 => 0
  | n + 1 => (Memory.byte m a).toNat + 256 * Memory.load m (a + 1) n

/-- The memory with n bytes written from an address, little-endian (R2). -/
def Memory.store (m : Memory) (a : Nat) : Nat → Nat → Memory
  | 0, _ => m
  | n + 1, v => Memory.store (Memory.put m a (.ofNat 8 v)) (a + 1) n (v / 256)

/-- The memory with a list of bytes written from an address. -/
def Memory.putAll (m : Memory) (a : Nat) : List Byte → Memory
  | [] => m
  | b :: r => Memory.putAll (Memory.put m a b) (a + 1) r

/-- The bytes of a range. -/
def Memory.bytes (m : Memory) (a n : Nat) : List Byte := (List.range n).map fun i => Memory.byte m (a + i)

/-- Cells in strictly rising order of address, each above a bound. -/
def Memory.rising : Nat → Memory → Bool
  | _, [] => true
  | n, (a, _) :: r => decide (n ≤ a) && Memory.rising (a + 1) r

/-- The canonical form: rising addresses and no cell that equals what an unlisted address reads as. -/
def Memory.wf (m : Memory) : Bool := Memory.rising 0 m && m.all fun c => c.2 != unlistedByte

end Sys2Proof.Machine
end

