-- ==== Sys2Proof/Machine/CoreTypes.lean ====
section
/-! DEFINITION. The state of a context and of a core: registers, stream ports, requests in flight, parks, scratchpad,
data cache, store buffer, tiles, channels, traps and job queues (01 R8, R12; 03; 06; 07; 10; 14; 15; 17; 18; 20). -/

namespace Sys2Proof.Machine

/-- The park reasons of R82, held in CTXSTAT.PARK. -/
inductive Park where
  | none | full | mem | pnp | store | drain | fence | tile | stream | sfu | sleep | gang | hop | ctx | truss | chan | gate
  | copy | mx | launch | key | sfault | fenced
deriving DecidableEq, Repr

/-- The fault codes of R67. -/
inductive FaultCode where
  | eill | epriv | eseg | eprot | epnp | ealign | enack | escope | egate | etile | estream | emx | etruss | echan | etrace
  | emem | emeter | eemit | ekey | ectx
deriving DecidableEq, Repr

/-- What parked or running contexts may wait for when their instruction is to be issued again (R82): the condition is
tested each time the core chooses a context, so a wait that is over makes the context READY. -/
inductive Wait where
  /-- only an agent's own step moves the context on (a reply, a token, a wake) -/
  | agent
  /-- every listed register must be full (R73, R74) -/
  | full (rs : List Reg)
  /-- room in the store buffer (R202) -/
  | room
  /-- no buffered store of another compartment covers these bytes of virtual memory (R431) -/
  | foreign (va n : Nat)
  /-- the context's own stores have left the buffer (R208) -/
  | drained
  /-- the context's own stores to a 64-byte line have left the buffer (R212) -/
  | lineDrained (line : Nat)
  /-- the tile is READY (R201) -/
  | tileReady (n : Nat)
  /-- the tile is neither FILLING nor DRAINING (R209, R331) -/
  | tileIdle (n : Nat)
  /-- the tile admits a fill (true) or a drain (false) (R323) -/
  | tileFor (n : Nat) (fill : Bool)
  /-- an element of the port has arrived (R155) -/
  | element (port : Nat)
  /-- the page-fault entry of a token has been answered (R290) -/
  | page (token : Nat)
  /-- a phase of a release or a fence at a scope; `hio` says that HIO writes are awaited too (R238, R255, R260) -/
  | fence (sc : Scope) (hio : Bool)
  /-- the path steps and the cross-die release of an XFENCE with a path set at a scope (R255) -/
  | xfence (paths : BitVec 6) (sc : Scope)
  /-- no gate request of the lead is set aside any more (R283, R413) -/
  | aside
  /-- a page of virtual memory that is being pulled has landed (25 R426) -/
  | pulled (va : Nat)
  /-- one of the port's 64 page-fault entries is free (R290) -/
  | ports
  /-- the controller of a frame, by its physical address, has a free scrub record (R421) -/
  | scrub (frame : Nat)
  /-- every store of context x of the core is gone (R269) -/
  | storesOf (x : Nat)
  /-- a channel of the core holds a flit, from sender `src` if named (R317) -/
  | flit (ch : Nat) (src : Option Nat)
  /-- the copy queue has room (R329) -/
  | copyRoom
  /-- copy job `id` has completed (R331) -/
  | copyDone (id : Nat)
  /-- the matrix queue has room (R353) -/
  | mxRoom
  /-- matrix job `id` has completed (R354) -/
  | mxDone (id : Nat)
deriving DecidableEq, Repr

/-- The state of a context (R265); READY and WAITING are told apart by `Ctx.notBefore` and `Ctx.yields`. -/
inductive CtxSt where
  | free | run | parked (w : Wait) | stopped
deriving DecidableEq, Repr

/-- An element fetched ahead by a read stream: its value, or the fault of its fetch (R155). -/
inductive Elem where
  | val (v : W)
  | bad (c : FaultCode)
deriving DecidableEq, Repr

/-- A stream port (R150 to R158). -/
structure Port where
  /-- CFG -/
  cfg : Bool := false
  /-- BOUND -/
  bound : Bool := false
  /-- the descriptor's 32 bytes as a number (R151) -/
  desc : Nat := 0
  /-- position: inner index of the next element -/
  i0 : Nat := 0
  /-- position: outer index of the next element -/
  i1 : Nat := 0
  /-- REMAIN -/
  remain : Nat := 0
  /-- elements fetched and not yet popped, at most 8 -/
  ahead : List Elem := []
  /-- the handler has given up this page for the element that is fetched next (R290) -/
  gone : Option Nat := none
  /-- the page-fault token that the fetch of the next element waits for (R290) -/
  page : Option Nat := none
deriving DecidableEq, Repr

/-- Where the translation of an access stands (R198). -/
inductive Xl where
  /-- the walk has not ended -/
  | walk
  /-- translated, with the physical address -/
  | ready (pa : Nat)
  /-- served by the core itself: the scratchpad, or a stash tile (R134) -/
  | here
deriving DecidableEq, Repr

/-- The operation of an atomic (R231). -/
inductive AOp where
  | add | and | or | xor | swap | cas | min | max | minn | maxn | fadd
deriving DecidableEq, Repr

/-- A special-function or divide operation sent to the quad's unit (R121, R189). -/
inductive SfuOp where
  | rcp | rsq | sqrt | exp2 | log2 | sin | cos | tanh | fdiv | div | rem
deriving DecidableEq, Repr

/-- A gate operation sent to the gate table (R406 to R411). -/
inductive GateOp where
  | open (rights : Nat) (gate : Nat)
  | sig (nb : Bool) (val : Option W)
  | wait (target : W)
  | poll
  /-- source, window offset, length, and the physical addresses of the source's 64 KiB pages -/
  | xfer (src dst len : Nat) (pages : List Nat)
deriving DecidableEq, Repr

/-- A request in flight for a parked context: what its reply will do. -/
inductive Req where
  /-- LD that missed, through the data cache (R200) -/
  | load (d : Reg) (sz : LSz) (va : Nat) (xl : Xl)
  /-- LDRO (R206) -/
  | ldro (d : Reg) (sz : LSz) (va : Nat) (xl : Xl)
  /-- the descriptor read of SCFG (R154) -/
  | desc (port : Nat) (va : Nat) (xl : Xl)
  /-- the fill of a stash line before a load or a store goes on (R209) -/
  | stashFill (tile : Nat) (line : Nat)
  /-- the walk of STASH (R209) -/
  | stash (tile : Nat) (va : Nat)
  /-- the walk of DISCARD (R212) -/
  | discard (va : Nat)
  /-- a return-stack spill at a CALL: the return address, the target and whether translation is pending (R132, R134) -/
  | spill (ret target : W) (va : Nat) (xl : Xl)
  /-- a return-stack fill at a RET (R133, R134) -/
  | fill (va : Nat) (xl : Xl)
  /-- LDX on its way (R215) -/
  | ldx (d : Reg) (sz : LSz) (target addr : Nat)
  /-- a global atomic that has not left the core: its release is awaited (R230, R236) -/
  | atomicOut (d : Reg) (op : AOp) (w64 : Bool) (sx : Bool) (v n : W) (va : Nat) (ord : Ord) (sc : Scope) (xl : Xl)
  /-- a global atomic performed at its slice, its old value on the way back; markers of the acquire's sweep still out -/
  | atomicBack (d : Reg) (w64 sx : Bool) (old : W) (ord : Ord) (sc : Scope) (sweep : Option (List (Nat × Nat)))
  /-- a request of the special-function unit, with FPC.RM as read at issue (R189) -/
  | sfu (d : Reg) (op : SfuOp) (t : Ty) (a b : W) (rm : Nat) (started : Bool)
  /-- a block operation whose operands are checked; its store to the destination is pending (R181) -/
  | block (d : Nat) (bytes : List Byte) (flags : W)
  /-- dirty words of stash tiles on the way to the slice; what is written back: a line of a tile, or the whole tile (R211) -/
  | wback (tile : Nat) (line : Option Nat) (off : Bool)
  /-- the slice sum of CNTRD.UNIT (R296) -/
  | sliceSum (d : Reg) (misses : Bool)
  /-- CHSEND's flit waiting for its target (R317) -/
  | send (ch target : Nat) (lo hi : W)
  /-- a blocking copy job (R329) -/
  | copyJob (d : Reg) (id : Nat)
  /-- a blocking matrix job (R353) -/
  | mxJob (d : Reg) (id : Nat)
  /-- a truss wait: address, token (R308) -/
  | trwait (d : Reg) (addr : Nat) (tok : Bool)
  /-- SLEEP (R272) -/
  | sleep (d : Reg)
  /-- an arrival at COUPLE or RECOUPLE, and whether it has reached the leader's core (R139, R142) -/
  | gang (d : Reg) (re : Bool) (first n : Nat) (here : Bool := false)
  /-- HOP: the result register, and the target's partition index (R273) -/
  | hop (d : Reg) (target : Nat)
  /-- a HOP image on its way to a granted context, or waiting there for its sweep of arrival (R273) -/
  | hopIn (d : Reg) (sweep : Option (List (Nat × Nat)))
  /-- a gate operation before the table has performed it: its release is awaited (R407, R408) -/
  | gateOut (d : Reg) (h : Nat) (op : GateOp)
  /-- a gate operation performed: registers to write, and the acquire's sweep (R407, R408) -/
  | gateBack (regs : List (Reg × W)) (acq : Bool) (slot : Option (Nat × W)) (sweep : Option (List (Nat × Nat)))
  /-- a gate operation that waits at the table (R403, R407, R412) -/
  | gateHeld (d : Reg) (h : Nat) (op : GateOp)
  /-- a GTXFER copying its bytes: gate, source, window offset, length, pages of the source (R411) -/
  | gateCopy (gate : Nat) (src dst len : Nat) (pages : List Nat)
  /-- LNCH or RELNCH putting its packet into a queue (R389) -/
  | enqueue (d : Reg) (q : Nat) (packet : List Byte)
  /-- EVREQ: address of the evidence, nonce (R439) -/
  | evidence (d : Reg) (va : Nat) (nonce : List Byte)
  /-- KINST: the blob's bytes (R440) -/
  | keyInst (d : Reg) (blob : List Byte)
  /-- the second part of a fence: markers still out (R259, R260) -/
  | fenceSweep (sweep : List (Nat × Nat))
  /-- a Gydon access: the address in the translation area, or none for the chip table alone (R43, R45 to R47, R51) -/
  | gydon (va : Option Nat)
  /-- DONE: the cache write has not completed (R49) -/
  | gydonDone
  /-- REAP of context x, whose stores are awaited (R269) -/
  | reap (x : Nat)
deriving DecidableEq, Repr

/-- What an abandoned instruction gives back: full bits it read, and stream positions it popped (R74, R156). -/
structure Undo where
  /-- full bits to set again -/
  full : BitVec 16 := 0
  /-- ports to restore, with the held value of the register -/
  ports : List (Nat × Port × W) := []
  /-- the instruction's scope was clamped: CLAMPED and its event are entered when it completes (R241, R295) -/
  clamp : Bool := false
  /-- elements popped: their counts are taken back (R295) -/
  pops : Nat := 0
deriving DecidableEq, Repr

/-- The progress of a release, an acquire or a fence that is being waited for. -/
structure Prog where
  /-- stores with a smaller number are awaited (R238) -/
  seq : Nat := 0
  /-- HIO writes with a smaller number are awaited, where the scope or the fence names them (R255, R260) -/
  hio : Nat := 0
  /-- former cores of the context, whose jobs it has observed: the invalidations that they caused are awaited by an XFENCE (R255) -/
  cores : List Nat := []
  /-- the release part is over and the sweep's markers are out: home die and number of invalidations sent before (R259) -/
  sweep : Option (List (Nat × Nat)) := none
deriving DecidableEq, Repr

/-- A pending token (R275): a register to write before the next issue, with a value, and whether the pc moves on. -/
structure Token where
  /-- register -/
  reg : Nat
  /-- value -/
  val : W
  /-- bytes by which the pc moves on when the token is written -/
  step : Nat
  /-- flags that FPC takes with the value (R194) -/
  flags : W := 0
  /-- the value is a special-function token, counted when it is written (R293) -/
  sfu : Bool := false
  /-- what else a gate request that is set aside writes: further registers, a handle slot (R406) -/
  more : List (Nat × W) := []
  gth : Option (Nat × W) := none
deriving DecidableEq, Repr

/-- A request of the lead that had left the core when the lead entered its handler or fell: it is performed, and its result is written
before the lead issues again after that (R275, R283, R458). -/
structure Aside where
  /-- the request, until its result is there -/
  req : Option Req := none
  /-- pc of the instruction, and its length -/
  pc : W
  len : Nat
  /-- progress of the request -/
  prog : Option Prog := none
  /-- the instruction's scope was clamped -/
  clamp : Bool := false
  /-- the result, once it is there -/
  token : Option Token := none
deriving DecidableEq, Repr

/-- What a context runs for: a block of a launch, a helper, the lead, or a translation. -/
inductive Role where
  | none
  /-- block index of launch l of the partition (R376) -/
  | block (l index : Nat)
  | helper
  | lead
  /-- the translation of launch l (R24) -/
  | translator (l : Nat)
deriving DecidableEq, Repr

/-- The read record that a block gathers (R381, R382). -/
structure ReadSet where
  /-- runs of tiles: first and last tile, in ascending order, separated by at least one tile -/
  runs : List (Nat × Nat) := []
  /-- OVER: more than 30 runs -/
  tooMany : Bool := false
  /-- OUTSIDE -/
  outside : Bool := false
  /-- FORGET -/
  forget : Bool := false
deriving DecidableEq, Repr

/-- The Gydon registers of a translating context (R24). -/
structure Gydon where
  /-- b0 to b7 -/
  b : Vector (BitVec 32) 8 := .replicate 8 0
  /-- program counter in halfwords -/
  pc : Nat := 0
  /-- units left -/
  meter : Nat := 0
  /-- halfwords emitted -/
  outLen : Nat := 0
  /-- entries of the origin map -/
  mapLen : Nat := 0
deriving DecidableEq, Repr

/-- A context of a core (R265). -/
structure Ctx where
  /-- state -/
  st : CtxSt := .free
  /-- last park reason, CTXSTAT.PARK (R82) -/
  park : Park := .none
  /-- first cycle at which the context may issue again (R265, R268, R283) -/
  notBefore : Nat := 0
  /-- contexts that must issue or leave before a YIELD ends (R271) -/
  yields : List Nat := []
  /-- program counter: offset in sg0 (R124) -/
  pc : W := 0
  /-- the instruction register: the word fetched for the instruction being executed (R281 WORD) -/
  iword : BitVec 32 := 0
  /-- g0 to g15 -/
  g : Vector W 16 := .replicate 16 0
  /-- full bits -/
  full : BitVec 16 := 0xFFFF
  /-- k0 to k3 -/
  k : Vector (BitVec 8) 4 := .replicate 4 0xFF
  /-- SGB0 to SGB7 -/
  sgb : Vector W 8 := .replicate 8 0
  /-- SGL0 to SGL7 -/
  sgl : Vector W 8 := .replicate 8 0x0300000000000000
  /-- CTXSTAT.CLAMPED -/
  clamped : Bool := false
  /-- CTXSTAT.MODE is 1 (Gydon) -/
  gydonMode : Bool := false
  /-- CTXSTAT.TRACE -/
  trace : Bool := false
  /-- the gang the context is coupled in: first core index, n (R139) -/
  gang : Option (Nat × Nat) := none
  /-- the remembered gang (R139) -/
  gangOld : Option (Nat × Nat) := none
  /-- the instruction that the gang's leader has fetched and this member has not completed: word, length (R140) -/
  gword : Option (Nat × Nat) := none
  /-- the outcome and the target of the gang's instruction as this member has completed it (R141) -/
  gout : Option (Bool × W) := none
  /-- FPC -/
  fpc : W := 0
  /-- GEOM -/
  geom : W := 0
  /-- return stack, top first -/
  rstk : List W := []
  /-- SC -/
  sc : Nat := 0
  /-- stream ports s0 to s3 -/
  ports : Vector Port 4 := .replicate 4 {}
  /-- TRM0 to TRM3 -/
  trm : Vector W 4 := .replicate 4 0
  /-- GTH0 to GTH3 -/
  gth : Vector W 4 := .replicate 4 0
  /-- cnt0 to cnt7 -/
  cnt : Vector W 8 := .replicate 8 0
  /-- pending-wake bit (R270) -/
  pendWake : Bool := false
  /-- pending token (R275) -/
  token : Option Token := none
  /-- absolute deadline of SLEEP or TRWAIT (R272, R309) -/
  deadline : Option Nat := none
  /-- cycle since which the context has been parked -/
  parkedAt : Nat := 0
  /-- current compartment (R430) -/
  comp : Nat := 0
  /-- what the context runs for -/
  role : Role := .none
  /-- the block's read set being gathered (R382) -/
  reads : ReadSet := {}
  /-- request in flight -/
  req : Option Req := none
  /-- what abandoning the parked instruction restores -/
  undo : Undo := {}
  /-- progress of a release or fence -/
  prog : Option Prog := none
  /-- jobs whose completion the context has observed: engine (true copy), identifier (R255) -/
  observed : List (Bool × Nat) := []
  /-- the cores of the die that the context has left by HOP since it came to the die (R255, R260) -/
  cores : List Nat := []
  /-- DRAIN stops after itself if a store of the context is recorded while it waits (R208) -/
  draining : Bool := false
  /-- the page-fault answer was "give up": the reissued access takes EPNP at this page (R290) -/
  giveUp : Option Nat := none
  /-- the instruction waits, or has waited, for a page-fault entry of the port: its park is counted (R290, R295) -/
  entryWait : Bool := false
  /-- bytes by which the pc moves on when the request in flight completes; 0 when it has moved on (R458) -/
  step : Nat := 0
  /-- bytes by which the pc has moved on ahead of the result of the request in flight (R458) -/
  back : Nat := 0
  /-- the lead's request that is set aside (R283, R458) -/
  aside : Option Aside := none
  /-- the context stands for a request that is set aside: its result is kept -/
  later : Bool := false
  /-- a member of the remembered gang has ended since it parted (R142) -/
  gangLost : Bool := false
  /-- an instruction has completed in the current cycle (R393) -/
  fresh : Bool := false
  /-- being reaped: frees itself when its stores are gone (R269) -/
  reaping : Bool := false
  /-- Gydon registers -/
  gyd : Gydon := {}
deriving DecidableEq, Repr

/-- What a buffered store is (R204 SRC; spills are settled before they enter, R134). -/
inductive SbSrc where
  | st | push | stx | spill
deriving DecidableEq, Repr

/-- A store-buffer entry (R202): one aligned 8-byte word with a byte mask, or an STX to a target core. -/
structure SbEntry where
  /-- order of entry -/
  seq : Nat
  /-- issuing context -/
  ctx : Nat
  /-- pc of the store -/
  pc : W
  /-- what made it -/
  src : SbSrc
  /-- virtual address, or the target's local address of an STX -/
  va : Nat
  /-- target core's partition index, for an STX -/
  target : Nat := 0
  /-- access size code -/
  sz : SSz
  /-- the stored bytes, in the low bits -/
  data : W
  /-- compartment (R431) -/
  comp : Nat := 0
  /-- private-code offset of the store, as its pc stood in the code at issue (R58, R204) -/
  priv : Nat := 0xFFFFFFFF
  /-- translation -/
  xl : Xl := .walk
  /-- waits for the answer to a page-fault token (R203) -/
  page : Option Nat := none
  /-- the handler gave up: recorded with EPNP (R203) -/
  gaveUp : Bool := false
  /-- recorded fault waiting for room in the queue (R204): code, subcode -/
  fault : Option (FaultCode × Nat) := none
  /-- the store came from a traced or tracked launch: launch and block index of the writer, or none (R383) -/
  writer : Option (Nat × Nat) := none
deriving DecidableEq, Repr

/-- A line of the core's data cache (R205, R431). -/
structure DLine where
  /-- virtual line number -/
  vline : Nat
  /-- address space -/
  asid : Nat
  /-- compartment -/
  comp : Nat
  /-- eight words -/
  words : Vector W 8
  /-- valid marks -/
  valid : BitVec 8
  /-- owned marks (R239) -/
  owned : BitVec 8
  /-- physical line, for revokes -/
  pline : Nat
  /-- recency stamp -/
  stamp : Nat
deriving DecidableEq, Repr

/-- The states of a tile (R322). -/
inductive TileSt where
  | empty | filling | ready | draining
deriving DecidableEq, Repr

/-- Stash mode of a tile (R209): the mapped address, the translation, the marks of its 128 words. -/
structure Stash where
  /-- virtual address of the 1 KiB -/
  va : Nat
  /-- physical address -/
  pa : Nat
  /-- address space -/
  asid : Nat
  /-- the walk's W right -/
  wright : Bool
  /-- compartment -/
  comp : Nat
  /-- valid words -/
  valid : BitVec 128
  /-- dirty words -/
  dirty : BitVec 128
  /-- writers of the dirty words: word, launch and block if any (22 R383) -/
  wrote : List (Nat × Option (Nat × Nat)) := []
  /-- the translation has been removed (25 R420), or was not restored (14 R276): the next fill walks again -/
  stale : Bool := false
deriving DecidableEq, Repr

/-- A tile-table entry (R322). -/
structure TileEnt where
  /-- STATE -/
  st : TileSt := .ready
  /-- JOBS -/
  jobs : Nat := 0
  /-- LAST -/
  last : Nat := 0
  /-- stash mode -/
  stash : Option Stash := none
deriving DecidableEq, Repr

/-- A flit of a channel (R315). -/
structure Flit where
  /-- first double -/
  lo : W
  /-- second double -/
  hi : W
  /-- partition index of the sending core -/
  src : Nat
  /-- sending context -/
  ctx : Nat
deriving DecidableEq, Repr

/-- A fault slot (R281). -/
structure Slot where
  /-- VALID -/
  valid : Bool := false
  /-- KIND -/
  kind : Nat := 0
  /-- CODE, or the TRAP number -/
  code : Nat := 0
  /-- SUB -/
  sub : Nat := 0
  /-- PRIV -/
  priv : Nat := 0xFFFFFFFF
  /-- PC -/
  pc : W := 0
  /-- WORD -/
  word : W := 0
  /-- ADDR -/
  addr : W := 0
deriving DecidableEq, Repr

/-- A store-fault record (R204), as its four doubles. -/
abbrev SfRec := Vector W 4

/-- The kinds of copy job (R328). -/
inductive CopyKind where
  | fill | drain | gath | scat
deriving DecidableEq, Repr

/-- A copy job (R324 to R330). -/
structure CopyJob where
  /-- identifier -/
  id : Nat
  /-- kind -/
  kind : CopyKind
  /-- tile -/
  tile : Nat
  /-- the 32-byte record as a number -/
  record : Nat
  /-- segment base and limit registers at issue -/
  sgb : W
  sgl : W
  /-- truss address -/
  truss : Option Nat
  /-- issuing context -/
  ctx : Nat
  /-- pc of the instruction -/
  pc : W
  /-- compartment -/
  comp : Nat
  /-- writer: launch and block index, for tracked memory -/
  writer : Option (Nat × Nat)
  /-- elements (or plane rows) done -/
  done : Nat := 0

  /-- the index word of the element that is next, once it has been read (R335) -/
  idx : Option Nat := none
  /-- the issuing context has ended (R136, R293) -/
  gone : Bool := false
  /-- waits for a page-fault token -/
  page : Option Nat := none
  /-- the handler gave up -/
  gaveUp : Bool := false
deriving DecidableEq, Repr

/-- The kinds of matrix job (R347). -/
inductive MxKind where
  | mul (n : Nat) | mulg (c0 : Nat) | zero | read
deriving DecidableEq, Repr

/-- A matrix job (R348 to R355). -/
structure MxJob where
  /-- identifier -/
  id : Nat
  /-- kind -/
  kind : MxKind
  /-- NA, NB, AD -/
  na : Bool
  nb : Bool
  ad : Bool
  /-- slot -/
  slot : Nat
  /-- A record, or the destination record of MXREAD -/
  recA : Nat
  /-- B record -/
  recB : Nat
  /-- segment base and limit at issue, for a global record -/
  sgb : W
  sgl : W
  /-- GEOM at issue -/
  geom : W
  /-- issuing context -/
  ctx : Nat
  /-- pc of the instruction -/
  pc : W
  /-- compartment -/
  comp : Nat
  /-- writer: launch and block index, for tracked memory -/
  writer : Option (Nat × Nat)
  /-- pad tiles that the job claims (R356) -/
  claims : List Nat := []
  /-- the issuing context has ended (R136, R293) -/
  gone : Bool := false
  /-- aligned words that a running job has read already: of the scratchpad, by address / 8, and of global memory, by virtual address / 8
  (R357) -/
  got : List (Nat × Nat) := []
  gotG : List (Nat × Nat) := []
  /-- aligned words of the destination that a running job has written already (R357) -/
  put : List Nat := []
  /-- waits for a page-fault token -/
  page : Option Nat := none
  /-- the handler gave up -/
  gaveUp : Bool := false
deriving DecidableEq, Repr

/-- The status kept of a completed job (R330, R354). -/
structure JobStat where
  /-- identifier -/
  id : Nat
  /-- fault code number, or 0 -/
  code : Nat
  /-- SUB -/
  sub : Nat
  /-- DONE of a copy job -/
  done : Nat
  /-- OVF of a matrix job -/
  ovf : Bool
  /-- the failing address -/
  addr : Nat
deriving DecidableEq, Repr

/-- A message in the inbox of a core that is away: store k of core g, the access or flit of context x of core g, the HOP image for
context x of core g, or the token that context x of the core itself keeps (R277). -/
inductive Msg where
  | stx (g k : Nat)
  | ldx (g x : Nat)
  | flit (g x : Nat)
  | hop (g x : Nat)
  | token (x : Nat)
deriving DecidableEq, Repr

/-- A core (R8, R11). -/
structure CoreSt where
  /-- contexts 0 to 15 -/
  ctxs : Vector Ctx 16 := .replicate 16 {}
  /-- scratchpad bytes 0x0000 to 0x5FFF -/
  pad : Memory := []
  /-- tile table, pt0 to pt23 -/
  tiles : Vector TileEnt 24 := .replicate 24 {}
  /-- data cache -/
  dcache : List DLine := []
  /-- recency stamp of the data cache -/
  dstamp : Nat := 0
  /-- store buffer, oldest first -/
  sb : List SbEntry := []
  /-- number of the next store to enter -/
  sbSeq : Nat := 0
  /-- store-fault record queue, oldest first -/
  sfq : List SfRec := []
  /-- W0 to W3 -/
  win : Vector W 4 := .replicate 4 0
  /-- channels ch0 to ch3, oldest flit first -/
  chans : Vector (List Flit) 4 := .replicate 4 []
  /-- CHSEND requests that arrived at full channels, and receives in the order in which they parked: core, context -/
  chanQ : List (Nat × Nat) := []
  /-- TVEC -/
  tvec : W := 0
  /-- TEPC -/
  tepc : W := 0
  /-- TSTAT.TACT -/
  tact : Bool := false
  /-- TSTAT.TPEND -/
  tpend : BitVec 16 := 0
  /-- TSEL -/
  tsel : Nat := 0
  /-- TPC of each context -/
  tpc : Vector W 16 := .replicate 16 0
  /-- TSCR0 to TSCR3 -/
  tscr : Vector W 4 := .replicate 4 0
  /-- fault slots -/
  slots : Vector Slot 16 := .replicate 16 {}
  /-- accumulators acc0 to acc3: word 2,048 × slot + 128 × row + column -/
  acc : Assoc (BitVec 32) := []
  /-- copy queue, oldest first (queued jobs) -/
  copyQ : List CopyJob := []
  /-- next copy identifier -/
  copyId : Nat := 1
  /-- statuses of completed copy jobs, newest first, at most 16 -/
  copyStat : List JobStat := []
  /-- matrix queue, oldest first (queued jobs) -/
  mxQ : List MxJob := []
  /-- next matrix identifier -/
  mxId : Nat := 1
  /-- statuses of completed matrix jobs, newest first, at most 16 -/
  mxStat : List JobStat := []
  /-- every matrix job that has completed since the core was prepared for its launch, newest first (R362) -/
  mxEnded : List Nat := []
  /-- the context that issued last (R266) -/
  lastIssuer : Nat := 15
  /-- the cycle in which the core issued last, plus one; 0 for never (the model's own field) -/
  issuedAt : Nat := 0
  /-- the deadline of the TRWAIT that the lead left when it entered its handler, with its pc (R283, R309) -/
  tkeep : Option (W × Nat) := none
  /-- the lead has fallen (R284) -/
  fallen : Bool := false
  /-- the lead is falling, with this code and pc: contexts that are being reaped still have stores (R284) -/
  falling : Option (Nat × W) := none
  /-- issue has stopped for a pre-emption that saves to this address (R276 steps 1 and 2) -/
  stopping : Option Nat := none
  /-- saved by pre-emption at this address (R276) -/
  away : Option Nat := none
  /-- inbox while away, oldest first (R277) -/
  inbox : List Msg := []
  /-- launch for which the core was prepared last, and its wave (R88, R375, R397) -/
  launch : Option Nat := none
  lwave : Nat := 0
  /-- halted by an uncorrectable error until the reset (R291) -/
  halted : Bool := false
deriving DecidableEq, Repr

end Sys2Proof.Machine
end

