-- ==== Sys2Proof/Machine/UnitTypes.lean ====
section
/-! DEFINITION. The state of the units outside the cores: clusters, quads, cache slices, partitions with their queues,
launches, translations and compartments, fault rings, gates, memory controllers, links and firmware
(10 R196 to R198; 12 R239; 13 R254 to R263; 15 R288 to R296; 18; 20; 22; 24 to 27). -/

namespace Sys2Proof.Machine

/-- A line of the second-level cache: a home line or a far copy (13 R257, 25 R423). -/
structure SLine where
  /-- die of the slice -/
  die : Nat
  /-- physical line number, PA / 64 -/
  line : Nat
  /-- the line's eight words -/
  words : Vector W 8
  /-- written since the fill (home lines only) -/
  dirty : Bool
  /-- world of the frame that holds it (26 R432) -/
  world : Nat := 0
  /-- partition whose request filled it -/
  filler : Nat
  /-- way, 0 to 15 -/
  way : Nat
  /-- cycle of the last fill or refresh -/
  stamp : Nat
deriving DecidableEq, Repr

/-- A far-copy invalidation on its way (13 R258). -/
structure Inval where
  /-- home die -/
  home : Nat
  /-- die of the far copy -/
  die : Nat
  /-- physical line number -/
  line : Nat
  /-- number in the order of sending -/
  seq : Nat
  /-- core whose write caused it, or none -/
  src : Option Nat
deriving DecidableEq, Repr

/-- A translation held by a cluster port (10 R198). -/
structure TlbEnt where
  /-- partition -/
  part : Nat
  /-- virtual page number in units of 64 KiB; the low five bits are zero for a 2 MiB page -/
  vpage : Nat
  /-- 2 MiB page -/
  big : Bool
  /-- physical address of the page -/
  pa : Nat
  /-- rights R, W, X of the leaf -/
  r : Bool
  w : Bool
  x : Bool
  /-- UNSCR of the leaf and the leaf's physical address (25 R421) -/
  unscr : Bool
  leaf : Nat
deriving DecidableEq, Repr

/-- A page-fault entry of a cluster port (15 R290). -/
structure PFault where
  /-- partition -/
  part : Nat
  /-- virtual page number in units of 64 KiB -/
  vpage : Nat
  /-- wake token -/
  token : Nat
deriving DecidableEq, Repr

/-- A line of a cluster's read-only cache (13 R254). -/
structure RoLine where
  /-- physical line number -/
  line : Nat
  /-- world and compartment -/
  world : Nat
  comp : Nat
  /-- the line's words -/
  words : Vector W 8
  /-- cycle of the fill -/
  filled : Nat
  /-- recency stamp -/
  stamp : Nat
deriving DecidableEq, Repr

/-- A message of a command link (27 R444): a fault record for the ring of a partition, the report that a block has ended (partition, launch,
block), or any other, as a number that stands for its 64 bytes. -/
inductive CmdMsg where
  | record (p : Nat) (words : List W)
  | ended (p l i : Nat)
  | other (v : Nat)
deriving DecidableEq, Repr

/-- One direction of a leaf's pair of command links (27 R444). -/
structure CmdLink where
  /-- send permits that the sender holds -/
  permits : Nat := 4
  /-- messages sent and not consumed, oldest first -/
  sent : List CmdMsg := []
  /-- messages that wait for a permit, oldest first -/
  wait : List CmdMsg := []
deriving DecidableEq, Repr

/-- A cluster: memory port, read-only cache, copy unit, matrix engine, permits (01 R8). -/
structure Cluster where
  /-- translations held -/
  tlb : List TlbEnt := []
  /-- outstanding page faults, at most 64 -/
  pfaults : List PFault := []
  /-- read-only cache -/
  ro : List RoLine := []
  /-- recency stamp of the read-only cache -/
  roStamp : Nat := 0
  /-- core (0 to 7) that the copy unit served last -/
  copyLast : Nat := 7
  /-- the running copy job with its core (0 to 7) -/
  copyRun : Option (Nat × CopyJob) := none
  /-- core (0 to 7) that the matrix engine served last -/
  mxLast : Nat := 7
  /-- the running matrix job with its core (0 to 7) -/
  mxRun : Option (Nat × MxJob) := none
  /-- jobs issued to and completed by the matrix engine since the cluster's assignment (15 R296) -/
  mxIssued : Nat := 0
  mxDone : Nat := 0
  /-- jobs issued to and completed by the copy unit (15 R296) -/
  copyIssued : Nat := 0
  copyDone : Nat := 0
  /-- the command link from the leaf to the global scheduler, and the one back (27 R444) -/
  up : CmdLink := {}
  down : CmdLink := {}
deriving DecidableEq, Repr

/-- A request of a quad's special-function unit (09 R192, R193). -/
structure SfuReq where
  /-- core, and context, 16 once the context has gone -/
  core : Nat
  ctx : Nat
  /-- issue cycle -/
  issued : Nat
  /-- cycles from its start to its token -/
  lat : Nat := 0
  /-- cycle in which its token is due, once it has started -/
  due : Nat := 0
deriving DecidableEq, Repr

/-- A quad: its special-function requests in age order and its unit counts (09 R192, 15 R296). -/
structure Quad where
  /-- requests not yet started -/
  queue : List SfuReq := []
  /-- requests started and not returned -/
  busy : List SfuReq := []
  /-- the first cycle in which a request may start, and the cycle of the last token plus one -/
  started : Nat := 0
  returned : Nat := 0
  /-- requests issued and completed -/
  issued : Nat := 0
  done : Nat := 0
deriving DecidableEq, Repr

/-- A scrub record of a memory controller (25 R421). -/
structure Scrub where
  /-- physical address of the frame -/
  frame : Nat
  /-- bytes of the frame: 64 KiB or 2 MiB -/
  size : Nat
  /-- lines (numbered in the frame) that are cleared, beside those below `pos` -/
  cleared : List Nat
  /-- the background clear's position: lines below it are cleared -/
  pos : Nat
  /-- physical address of the leaf, partition and virtual page -/
  leaf : Nat
  part : Nat
  vpage : Nat
  /-- no line is uncleared any more, and the PSHOOT of the page has not completed -/
  shooting : Bool := false
deriving DecidableEq, Repr

/-- A write on the HIO path that has reached the package and is not performed (13 R263). -/
structure HioWr where
  /-- root port or host agent -/
  port : Nat
  /-- number in the order of arrival -/
  seq : Nat
  /-- physical address -/
  pa : Nat
  /-- bytes -/
  bytes : List Byte
  /-- the write comes from world 0 (26 R430) -/
  sys : Bool
deriving DecidableEq, Repr

/-- A frame tag with its region counter and the lines not written since the tag change (26 R429, R433). -/
structure FrameTag where
  /-- WORLD -/
  world : Nat := 0
  /-- COMP -/
  comp : Nat := 0
  /-- SEALED -/
  sealed : Bool := false
  /-- region counter, 32 bits -/
  ctr : Nat := 0
  /-- the tag has changed: lines of the frame that were written since; none while every line may be read -/
  written : Option (List Nat) := none
deriving DecidableEq, Repr

/-- A fault ring (27 R459). -/
structure Ring where
  /-- RBASE.BASE -/
  base : Nat := 0
  /-- RCFG.EN -/
  en : Bool := false
  /-- RCFG.SZLOG -/
  szlog : Nat := 0
  /-- PROD -/
  prod : Nat := 0
  /-- CONS -/
  cons : Nat := 0
  /-- the interrupt line was raised and not yet taken by system software -/
  line : Bool := false
  /-- records waiting for room, oldest first, as four doubles (15 R288) -/
  wait : List (List W) := []
deriving DecidableEq, Repr

/-- An access-list entry of a gate (24 R402). -/
structure Acl where
  en : Bool := false
  part : Nat := 0
  comp : Nat := 0
  rights : Nat := 0
  pkg : Nat := 0
  rate : Nat := 0
  burst : Nat := 0
  tokens : Nat := 0
  /-- the entry is not rate-limited: BURST was 0 at the last refill tick, or at the gate's creation (R403, R413) -/
  free : Bool := true
deriving DecidableEq, Repr

/-- A gate of the gate table (24 R401, R412). -/
structure Gate where
  /-- SEQ -/
  seq : Nat := 0
  /-- VALUE -/
  value : W := 0
  /-- VALID -/
  valid : Bool := false
  /-- HELD -/
  held : Bool := false
  /-- OWNER -/
  owner : Nat := 0
  /-- INST -/
  inst : Nat := 0
  /-- WBASE and WLEN -/
  wbase : Nat := 0
  wlen : Nat := 0
  /-- access list -/
  acl : Vector Acl 8 := .replicate 8 {}
  /-- shared regions: base and length -/
  shr : Vector (Nat × Nat) 4 := .replicate 4 (0, 0)
  /-- where the gate moves to while it is HELD, or the forwarding entry that it left: package and index (R412) -/
  fwd : Option (Nat × Nat) := none
  /-- requests that have reached the gate and wait there, oldest first: core, context (R403, R412) -/
  queue : List (Nat × Nat) := []
  /-- gate key: its draw number (26 R434) -/
  key : Nat := 0
deriving DecidableEq, Repr

/-- A compartment (26 R428). -/
structure Comp where
  /-- EXISTS -/
  made : Bool := false
  /-- ENTRY -/
  entry : Nat := 0
  /-- KSTATE -/
  kstate : Nat := 0
  /-- K -/
  k : Nat := 0
  /-- KNEW -/
  knew : Nat := 0
  /-- the rotation sweep's position while KSTATE is 2: the physical line below which it is done (R435) -/
  sweep : Nat := 0
  /-- frames that have left the sweep's order, because their tag has changed since it began (R436) -/
  left : List Nat := []
deriving DecidableEq, Repr

/-- A world: its compartments and its scrambler key (26 R428, R432). -/
structure World where
  /-- compartments 0 to 15 -/
  comps : Vector Comp 16 := (Vector.replicate 16 {}).set 0 { made := true }
  /-- scrambler key -/
  skey : Nat := 0
deriving DecidableEq, Repr

/-- A write of the device into partition memory that waits for a scrub record of its frame (25 R421). -/
structure DevWr where
  /-- the leaf of its page -/
  leaf : TlbEnt
  /-- partition, physical address, bytes, value -/
  part : Nat
  pa : Nat
  n : Nat
  v : Nat
deriving DecidableEq, Repr

/-- An entry of a translation cache (02 R55 to R57). -/
structure XEntry where
  /-- key, 256 bits -/
  key : Nat
  /-- virtual address of the native code -/
  va : Nat
  /-- OUT length in halfwords -/
  outLen : Nat
  /-- origin map: native offset, private offset -/
  omap : List (Nat × Nat)
  /-- units used -/
  units : Nat
  /-- order of last use -/
  used : Nat
  /-- runs taken in the translation area: first address and bytes -/
  spans : List (Nat × Nat)
deriving DecidableEq, Repr

/-- The translation in progress in a partition (02 R24 to R30, R57). -/
structure Xlat where
  /-- launch -/
  l : Nat
  /-- translation key -/
  key : Nat
  /-- lengths in bytes of the translator image, of IN and of ARG, whose copies lie in the translation area -/
  xlen : Nat
  plen : Nat
  argl : Nat
  /-- capacity of OUT in halfwords -/
  cap : Nat
  /-- budget -/
  budget : Nat
  /-- virtual addresses of the working copies: image, IN, ARG, SCR, OUT, origin map -/
  vImage : Nat
  vIn : Nat
  vArg : Nat
  vScr : Nat
  vOut : Nat
  vMap : Nat
  /-- runs taken in the translation area -/
  spans : List (Nat × Nat) := []
  /-- far-copy invalidations with a smaller number are awaited before the start: the working copies have been written (R25, R30) -/
  inval : Nat := 0
  /-- context 15 of the first core has been started (it is only reserved before) -/
  started : Bool := false
  /-- emitted halfwords as the checker has seen them, latest first -/
  out : List (BitVec 16) := []
  /-- lengths and branch spans of the emitted instructions, latest first: halfword, length, FLO, FW (FW 0: no branch) -/
  notes : List (Nat × Nat × Nat × Nat) := []
  /-- entries of the origin map, latest first -/
  omap : List (Nat × Nat) := []
deriving DecidableEq, Repr

/-- Where a launch stands (22 R367 to R376). -/
inductive LStage where
  /-- taken; waits for its translation key's translation, or for context 15 (01 R21 steps 2 to 4) -/
  | key
  /-- being translated -/
  | xlat
  /-- waits for admission (R373) -/
  | admission
  /-- its blocks are being assigned and run -/
  | run
  /-- every block of the wave has ended; completion pending -/
  | done
deriving DecidableEq, Repr

/-- A trace descriptor as read, with the parameter digest (22 R379, R380). -/
structure TBind where
  /-- guard -/
  gbase : Nat
  glen : Nat
  /-- used ranges: base, tiles -/
  ranges : List (Nat × Nat)
  /-- AREA -/
  area : Nat
  /-- NT -/
  nt : Nat
  /-- PDIG -/
  pdig : Nat
deriving DecidableEq, Repr

/-- A launch of a partition (22). -/
structure Launch where
  /-- queue and index of its packet -/
  q : Nat
  i : Nat
  /-- PRIO of its queue when it was taken -/
  prio : Nat := 0
  /-- RELAUNCH -/
  re : Bool
  /-- FLAGS -/
  serial : Bool
  gw : Bool
  trace : Bool
  tset : Nat
  /-- QUOTA, ECLASS, WLIM -/
  quota : Nat
  eclass : Nat
  wlim : Nat
  /-- LID -/
  lid : Nat
  /-- SEED1 to SEED3 -/
  seed1 : W
  seed2 : W
  seed3 : W
  /-- BLOCKS -/
  blocks : Nat
  /-- first cluster and number of clusters, package positions -/
  first : Nat
  count : Nat
  /-- SEGS: SGB and SGL of sg1 to sg7 (entry 0 unused) -/
  sgb : Vector W 8
  sgl : Vector W 8
  /-- translation key -/
  key : Nat
  /-- translator image, private code, arguments: as read -/
  image : List Byte
  priv : List Byte
  arg : List Byte
  /-- OUT capacity in halfwords and budget -/
  cap : Nat
  budget : Nat
  /-- constant image -/
  konst : List Byte
  /-- data image and its destination, to be copied before the first block (0: no copy) -/
  data : List Byte
  dataTo : Nat
  /-- the trace descriptor of a traced launch -/
  trc : Option TBind := none
  /-- stage -/
  stage : LStage
  /-- order in which the launch reached step 4 of R21; none while it waits behind a translation of its key (02 R22) -/
  step4 : Option Nat := none
  /-- cores on which the actions of R375 have been performed for this launch's current wave (23 R397) -/
  prepared : List Nat := []
  /-- native code: virtual address and halfwords -/
  code : Nat := 0
  outLen : Nat := 0
  /-- order of arrival at the global scheduler -/
  arrival : Nat := 0
  /-- charges: sector, units -/
  charge : List (Nat × Nat) := []
  /-- next block to assign (position in the wave's list) -/
  next : Nat := 0
  /-- blocks selected for this wave; none stands for every block -/
  select : Option (List Nat) := none
  /-- blocks that have run in this relaunch -/
  ran : List Nat := []
  /-- blocks running: index, core, context -/
  live : List (Nat × Nat × Nat) := []
  /-- wave number, and the final-wave mark -/
  wave : Nat := 1
  final : Bool := false
  /-- the wave set: tile, writer (R385) -/
  wset : Assoc Nat := []
  /-- report fields (R372) -/
  rcode : Nat := 0
  rsub : Nat := 0
  reason : Nat := 0
  units : Nat := 0
  gpc : Nat := 0
  runs : Nat := 0
  full : Bool := false
  hit : Bool := false
  unset : Nat := 0
deriving DecidableEq, Repr

/-- The launch has been admitted and its blocks are assigned and run (22 R373, R385). -/
def Launch.inRun (l : Launch) : Bool := match l.stage with | .run => true | _ => false

/-- A trace set of a partition (22 R379 to R384). -/
structure TSet where
  /-- bound at least once -/
  bound : Bool := false
  /-- VALID -/
  valid : Bool := false
  /-- LID, BLOCKS, PDIG, NT -/
  lid : Nat := 0
  blocks : Nat := 0
  pdig : Nat := 0
  nt : Nat := 0
  /-- guard -/
  gbase : Nat := 0
  glen : Nat := 0
  /-- ranges: base, tiles -/
  ranges : List (Nat × Nat) := []
  /-- AREA -/
  area : Nat := 0
  /-- ACT is 1 (table B) -/
  act : Bool := false
  /-- BUSY -/
  busy : Bool := false
  /-- frame map: physical 4 KiB frame to tile -/
  frames : Assoc Nat := []
  /-- physical 4 KiB frames of the trace area, each with the bytes of the frame that belong to the area: first and end -/
  areaFrames : List (Nat × Nat × Nat) := []
  /-- the launch that runs on the set -/
  launch : Option Nat := none
deriving DecidableEq, Repr

/-- What a queue waits for besides its packets (22 R367, R371): the index of the packet, its scope, address and value, and where its
release or its acquire stands. -/
inductive QWait where
  | none
  /-- a MARK taken and not written; the release has begun behind the HIO writes below a number -/
  | mark (i sc addr v : Nat) (hio : Option Nat)
  /-- a WAITVAL not satisfied; its sweep has begun behind the invalidations and the HIO writes below two numbers -/
  | waitval (i sc cond addr v : Nat) (swept : Option (Nat × Nat))
deriving DecidableEq, Repr

/-- A partition (01 R20; 22; 25 R416 to R420; 26 R428). -/
structure Part where
  /-- PBASE, PLEN -/
  base : Nat := 0
  len : Nat := 0
  /-- PCFG -/
  en : Bool := false
  guest : Bool := true
  strap : Bool := false
  mig : Bool := false
  sysp : Bool := false
  wdog : Nat := 0
  asid : Nat := 0
  /-- PTROOT -/
  troot : Nat := 0
  /-- PQTAB -/
  qtab : Nat := 0
  /-- PSTAT -/
  rst : Bool := false
  err : Nat := 0
  resets : Nat := 0
  /-- PSHOOT and PDROP as written, GO included -/
  shoot : W := 0
  drop : W := 0
  /-- physical runs that the translations removed by the PSHOOT in progress reached: first line and lines (R420) -/
  shotRuns : List (Nat × Nat) := []
  /-- PWMASK0 to PWMASK7 -/
  wmask : Vector (BitVec 16) 8 := .replicate 8 0
  /-- PFREE and PMSRC -/
  pfree : W := 0
  pmsrc : W := 0

  /-- pages for which the source in another package has answered that its walk ends with V = 0, until the fault that follows is answered
  (R426) -/
  noPage : List Nat := []
  /-- pages asked of the source in another package (R426, 27 R452) -/
  pulls : List Nat := []
  /-- cores on which a gateway block of the partition has run (13 R255) -/
  gwCores : List Nat := []
  /-- index of the next frame to take from the ring of PFREE -/
  pfreeAt : Nat := 0
  /-- PXAREA, PXCAP -/
  xarea : Nat := 0
  xcap : Nat := 0
  /-- queue served last -/
  lastQ : Nat := 7
  /-- waits of the eight queues -/
  qwait : Vector QWait 8 := .replicate 8 .none
  /-- command-processor page-fault token awaited by a queue's packet, and answers "give up": pages (22 R372) -/
  cpToken : Option Nat := none
  cpGone : List Nat := []
  /-- the page that cpToken stands for -/
  cpPage : Nat := 0
  /-- number of launches that have reached step 4 of R21 -/
  xorder : Nat := 0
  /-- launches by number -/
  launches : Assoc Launch := []
  /-- next launch number -/
  nextL : Nat := 0
  /-- translation cache and order of use -/
  xcache : List XEntry := []
  xuse : Nat := 0
  /-- translation in progress -/
  xlat : Option Xlat := none
  /-- trace sets -/
  tsets : Vector TSet 4 := .replicate 4 {}
  /-- world (26 R428) -/
  world : Nat := 0
  /-- evidence requests in order: core, context (26 R439) -/
  evQ : List (Nat × Nat) := []
  /-- cycle of the last progress (22 R393) -/
  progress : Nat := 0
deriving DecidableEq, Repr

/-- A cycle probe or confirm of named receives (17 R319): the path of edges from the origin. -/
structure Probe where
  /-- edges crossed, origin first: core, context, and the cycle since which the edge stands -/
  path : List (Nat × Nat × Nat)
  /-- core that the probe travels to -/
  dest : Nat
  /-- confirm pass: edges still to check, in reverse order -/
  confirm : Option (List (Nat × Nat × Nat))
deriving DecidableEq, Repr

/-- What the package of a migration's source hands over: the partition's record, its world's, and its saved cores by global index there
(25 R425, 26 R428). -/
structure Peer where
  /-- record of the partition -/
  part : Part
  /-- its world -/
  world : World
  /-- cores -/
  cores : Assoc CoreSt
deriving DecidableEq, Repr

/-- A context image on its way by HOP: the context of the core that was granted, the sending core, and the context as it will stand
there (14 R273, R274). -/
structure Hop where
  /-- target core and context -/
  core : Nat
  ctx : Fin 16
  /-- sending core -/
  src : Nat
  /-- the image -/
  image : Ctx
deriving DecidableEq, Repr

/-- What waits at the sender for a link, in order (27 R452): the request for a page of partition p, a page that another package has asked
for, the request of context x of core g for a gate that is elsewhere, the record of a gate for an index there. -/
inductive LinkMsg where
  | pull (p vpage : Nat)
  | page (vpage : Nat) (bytes : List Byte)
  | gateOp (g x : Nat)
  | gate (i : Nat) (k : Gate)
deriving DecidableEq, Repr

/-- The states of a Herlek link (27 R451). -/
inductive LinkSt where
  | detect | probe | train (g : Nat) | lock (g : Nat) | active (g : Nat) | retrain (g : Nat) | down
deriving DecidableEq, Repr

/-- A Herlek link (27 R451, R452). -/
structure Link where
  /-- state -/
  st : LinkSt := .detect
  /-- the partner's highest generation and package number, once exchanged -/
  partner : Option (Nat × Nat) := none
  /-- consecutive good flits in LOCK -/
  good : Nat := 0
  /-- cycles of the replays of the last millisecond -/
  replays : List Nat := []
  /-- flits delivered -/
  delivered : Nat := 0
  /-- cycle in which the training began -/
  since : Nat := 0
  /-- traffic that waits at this end, oldest first -/
  out : List LinkMsg := []
deriving DecidableEq, Repr

/-- A flash slot image (27 R447): a number that stands for its content, and whether its signature is good. -/
structure FlashSlot where
  image : Nat := 0
  good : Bool := true
deriving DecidableEq, Repr


end Sys2Proof.Machine
end

