-- ==== Sys2Proof/Machine/State.lean ====
section
/-! DEFINITION. The state of the whole package, the reasons a step can stop, and the state after reset. -/

namespace Sys2Proof.Machine

/-- The numbers that name what an event acts on: partition, port, link or die p; core, cluster, quad or gate g;
context, queue or slot x; a small index n; a value v; and bytes. -/
structure Ev where
  /-- partition, port, link or die -/
  p : Nat := 0
  /-- core, cluster, quad, gate or frame -/
  g : Nat := 0
  /-- context, launch, queue or slot -/
  x : Nat := 0
  /-- a small index -/
  n : Nat := 0
  /-- a value -/
  v : Nat := 0
  /-- bytes carried from the host -/
  bytes : List Byte := []
deriving DecidableEq, Repr

/-- A move of the agenda (log 1): what happens at the next step. -/
inductive Move where
  /-- core g issues for one cycle -/
  | issue (g : Nat)
  /-- n cycles pass -/
  | tick (n : Nat)
  /-- an event of the instruction table happens, on what `e` names -/
  | event (i : Instr) (e : Ev)
  /-- a write reaches the package on the HIO path: port, address, bytes, from world 0 (13 R263) -/
  | hio (port pa : Nat) (bytes : List Byte) (sys : Bool)
  /-- a single-bit error is corrected somewhere (15 R291) -/
  | corrected
  /-- what another package hands over of the source of the migration into partition p arrives (25 R425) -/
  | peer (p : Nat) (r : Peer)
deriving DecidableEq, Repr

/-- The state of the package. -/
structure State where
  /-- package clock cycle -/
  cycle : Nat := 0
  /-- moves still to come; empty: the focus core issues (log 1) -/
  agenda : List Move := []
  /-- the focus: core and context whose instruction is executed (log 1) -/
  core : Nat := 0
  ctx : Fin 16 := 0
  /-- the numbers of the event being executed -/
  ev : Ev := {}
  /-- number of the next free value (log 9) -/
  freeCnt : Nat := 0
  /-- physical memory below the second-level cache -/
  mem : Memory := []
  /-- lines of the second-level cache, home lines and far copies -/
  lines : List SLine := []
  /-- owner core of each 8-byte word, by PA / 8 (12 R239) -/
  owners : Assoc Nat := []
  /-- far-copy invalidations not yet applied, in order of sending -/
  invals : List Inval := []
  /-- number of the next invalidation -/
  invSeq : Nat := 0
  /-- accesses and misses of each die's slices, by partition: 16 × die + partition (15 R296) -/
  l2Acc : Assoc Nat := []
  l2Miss : Assoc Nat := []
  /-- HIO writes not performed, in order of arrival -/
  hioQ : List HioWr := []
  /-- number of the next HIO write -/
  hioSeq : Nat := 0
  /-- HIO accesses refused (26 R430) -/
  hioRefused : Nat := 0
  /-- frame tags by PA / 65,536 -/
  tags : Assoc FrameTag := []
  /-- scrub records, at most 1,024 -/
  scrubs : List Scrub := []
  /-- device writes that wait for a scrub record, oldest first (25 R421) -/
  devQ : List DevWr := []
  /-- worlds by identifier (26 R428) -/
  worlds : Assoc World := []
  /-- what other packages have handed over, by destination partition (25 R425) -/
  peers : Assoc Peer := []
  /-- clusters by Hilbert position -/
  clusters : Assoc Cluster := []
  /-- quads by position: 2 × cluster + quad -/
  quads : Assoc Quad := []
  /-- cores by global index: 8 × cluster + core -/
  cores : Assoc CoreSt := []
  /-- context images on their way by HOP (14 R274) -/
  hops : List Hop := []
  /-- partitions 0 to 15 -/
  parts : Vector Part 16 := .replicate 16 {}
  /-- cycle probes and confirms under way (17 R319) -/
  probes : List Probe := []
  /-- gate table, by index -/
  gates : Assoc Gate := []
  /-- refill ticks of the gate table that have happened (24 R403) -/
  refills : Nat := 0
  /-- gate records on the way to a destination: table index there, record (24 R412) -/
  gateMoves : List (Nat × Gate) := []
  /-- fault rings 0 to 63 -/
  rings : Vector Ring 64 := .replicate 64 {}
  /-- next wake token -/
  nextToken : Nat := 1
  /-- ESB of sectors whose budget was written -/
  esb : Assoc Nat := []
  /-- last temperature of each sector -/
  temps : Assoc Nat := []
  /-- sectors that have exceeded the threshold and not fallen below it since (22 R373) -/
  hot : List Nat := []
  /-- THERM -/
  therm : Nat := 95
  /-- every core is gated and admission has stopped after the package limit (27 R454) -/
  gated : Bool := false
  /-- number of launches that have asked for admission -/
  arrivals : Nat := 0
  /-- PKGNUM -/
  pkgnum : Nat := 0
  /-- code on the board management port -/
  board : Option Nat := none
  /-- flash slots A and B -/
  slotA : FlashSlot := {}
  slotB : FlashSlot := {}
  /-- marker copies 0 and 1, 32 bytes each as numbers -/
  marker0 : Nat := 0
  marker1 : Nat := 0
  /-- resident firmware: the slot booted (0 A, 1 B), or none -/
  booted : Option Nat := some 0
  /-- image of the booted firmware -/
  bootImage : Nat := 0
  /-- PCIe root ports: generation and width, or untrained -/
  pcie : Vector (Option (Nat × Nat)) 8 := .replicate 8 none
  /-- Herlek links -/
  links : Vector Link 16 := .replicate 16 {}
  /-- the command ring's 64 KiB, and the entry, 0 to 511, that is performed next (27 R445) -/
  cmdRing : Memory := []
  ringPos : Nat := 0
  /-- values of PSTAT that system software has read, latest first (25 R418) -/
  statReads : List Nat := []
  /-- the flash slot that the update in progress has written (27 R449) -/
  updated : Option Nat := none
  /-- draws of the security processor's random bit generator -/
  draws : Nat := 0
  /-- single-bit errors corrected (15 R291) -/
  corrected : Nat := 0
  /-- the package's scrambler key, drawn at boot (26 R432, R434) -/
  pkgKey : Nat := 0
deriving DecidableEq, Repr

/-- Reasons for which the machine stops with a fault. Every fault code of the manual is taken inside the package
(15 R279), so none of them is here. -/
inductive Fault where
  /-- raised by `step` when both flash slots failed their signature at the last package reset: the boot ROM has stopped
  and nothing runs (27 R448); safe -/
  | bootStopped
deriving DecidableEq, Repr

/-- Reasons for which a step is refused. -/
inductive Refusal where
  /-- raised by `exec` for an instruction that has no meaning yet; safe -/
  | notModelled (mnemonic : String)
deriving DecidableEq, Repr

/-- The package after power-up: no partition is enabled, every core is free of contexts, memory lists nothing. [log 3, DESIGN CHOICE] -/
def State.reset : State := {}

end Sys2Proof.Machine
end

