-- ==== Sys2Proof/Machine/Access.lean ====
section
/-! DEFINITION. Access to the parts of the state: cores, contexts, clusters, quads, partitions; general registers, masks,
full bits. -/

namespace Sys2Proof.Machine

/-- Core g (8 × cluster + core, R9). -/
def State.coreAt (s : State) (g : Nat) : CoreSt := aget s.cores g {}
/-- The state with a new core g. -/
def State.setCore (s : State) (g : Nat) (c : CoreSt) : State := { s with cores := aset s.cores g c }
/-- Context x of core g. -/
def State.ctxAt (s : State) (g : Nat) (x : Fin 16) : Ctx := (s.coreAt g).ctxs[x]
/-- The core with a new context x. -/
def CoreSt.setCtx (c : CoreSt) (x : Fin 16) (v : Ctx) : CoreSt := { c with ctxs := c.ctxs.set x v }
/-- The state with a new context x of core g. -/
def State.setCtxAt (s : State) (g : Nat) (x : Fin 16) (v : Ctx) : State := s.setCore g ((s.coreAt g).setCtx x v)
/-- The context whose instruction is being executed. -/
def State.cur (s : State) : Ctx := s.ctxAt s.core s.ctx
/-- The state with a new executing context. -/
def State.setCur (s : State) (v : Ctx) : State := s.setCtxAt s.core s.ctx v
/-- The core of the executing context. -/
def State.here (s : State) : CoreSt := s.coreAt s.core
/-- The state with a new core of the executing context. -/
def State.setHere (s : State) (c : CoreSt) : State := s.setCore s.core c
/-- The state with the focus on context x of core g. -/
def State.focus (s : State) (g : Nat) (x : Fin 16) : State := { s with core := g, ctx := x }
/-- Cluster h. -/
def State.clusterAt (s : State) (h : Nat) : Cluster := aget s.clusters h {}
/-- The state with a new cluster h. -/
def State.setCluster (s : State) (h : Nat) (c : Cluster) : State := { s with clusters := aset s.clusters h c }
/-- Quad q. -/
def State.quadAt (s : State) (q : Nat) : Quad := aget s.quads q {}
/-- The state with a new quad q. -/
def State.setQuad (s : State) (q : Nat) (c : Quad) : State := { s with quads := aset s.quads q c }
/-- Partition p (modulo 16). -/
def State.part (s : State) (p : Nat) : Part := s.parts[Fin.ofNat 16 p]
/-- The state with a new partition p. -/
def State.setPart (s : State) (p : Nat) (v : Part) : State := { s with parts := s.parts.set (Fin.ofNat 16 p) v }
/-- A context number from a number. -/
def ctxNo (x : Nat) : Fin 16 := Fin.ofNat 16 x

/-- The enabled partition that holds cluster h (R20). -/
def State.partOfCluster (s : State) (h : Nat) : Option Nat :=
  (List.range 16).find? fun p => let t := s.part p; t.en && decide (t.base ≤ h ∧ h < t.base + t.len)
/-- The partition of core g; 16 when no enabled partition holds it. -/
def State.partNo (s : State) (g : Nat) : Nat := (s.partOfCluster (g / 8)).getD 16
/-- The registers of the partition of core g; reset values when no enabled partition holds it. -/
def State.partOf (s : State) (g : Nat) : Part := match s.partOfCluster (g / 8) with | some p => s.part p | none => {}
/-- The partition of the executing context. -/
def State.curPart (s : State) : Part := s.partOf s.core
/-- Partition core index of core g (R20, c0). -/
def State.coreIndex (s : State) (g : Nat) : Nat := g - 8 * (s.partOf g).base
/-- Cores of the partition of core g (c6). -/
def State.coreCount (s : State) (g : Nat) : Nat := 8 * (s.partOf g).len
/-- Global index of the partition core index i of the partition of core g. -/
def State.coreNo (s : State) (g i : Nat) : Nat := 8 * (s.partOf g).base + i

/-- World w (26 R428). -/
def State.worldAt (s : State) (w : Nat) : World := aget s.worlds w {}
/-- The state with world w changed. -/
def State.modWorld (s : State) (w : Nat) (f : World → World) : State := { s with worlds := aset s.worlds w (f (s.worldAt w)) }
/-- Compartment c of the world of a partition's registers. -/
def State.compOf (s : State) (r : Part) (c : Nat) : Comp := (s.worldAt r.world).comps[Fin.ofNat 16 c]

/-- Value of a general register of the executing context. -/
def State.g (s : State) (r : Reg) : W := s.cur.g[r]
/-- Full bit of a general register of a context (R73). -/
def Ctx.isFull (c : Ctx) (r : Reg) : Bool := c.full.getLsbD r.val
/-- The context with a general register written; its full bit is set (R73). -/
def Ctx.setG (c : Ctx) (r : Reg) (v : W) : Ctx := { c with g := c.g.set r v, full := c.full ||| (1#16 <<< r.val) }
/-- The context with the full bit of a register cleared by a synchronised read (R73). -/
def Ctx.clearFull (c : Ctx) (r : Reg) : Ctx := { c with full := c.full &&& ~~~(1#16 <<< r.val) }
/-- Mask register kN (R76). -/
def Ctx.mask (c : Ctx) (r : Reg) : BitVec 8 := c.k[Fin.ofNat 4 r.val]
/-- The context with a mask register written. -/
def Ctx.setMask (c : Ctx) (r : Reg) (v : BitVec 8) : Ctx := { c with k := c.k.set (Fin.ofNat 4 r.val) v }
/-- The context with its pc moved on by n bytes. -/
def Ctx.advance (c : Ctx) (n : Nat) : Ctx := { c with pc := c.pc + .ofNat 64 n }
/-- The state with the executing context's pc moved on by n bytes. -/
def State.advance (s : State) (n : Nat) : State := s.setCur (s.cur.advance n)
/-- The state with the executing context changed. -/
def State.modCur (s : State) (f : Ctx → Ctx) : State := s.setCur (f s.cur)
/-- The state with the core of the executing context changed. -/
def State.modHere (s : State) (f : CoreSt → CoreSt) : State := s.setHere (f s.here)
/-- The state with core g changed. -/
def State.modCore (s : State) (g : Nat) (f : CoreSt → CoreSt) : State := s.setCore g (f (s.coreAt g))
/-- The state with context x of core g changed. -/
def State.modCtx (s : State) (g : Nat) (x : Fin 16) (f : Ctx → Ctx) : State := s.setCtxAt g x (f (s.ctxAt g x))
/-- The state with cluster h changed. -/
def State.modCluster (s : State) (h : Nat) (f : Cluster → Cluster) : State := s.setCluster h (f (s.clusterAt h))
/-- The state with quad q changed. -/
def State.modQuad (s : State) (q : Nat) (f : Quad → Quad) : State := s.setQuad q (f (s.quadAt q))
/-- The state with partition p changed. -/
def State.modPart (s : State) (p : Nat) (f : Part → Part) : State := s.setPart p (f (s.part p))

end Sys2Proof.Machine
end

