-- ==== Sys2Proof/Machine/Place.lean ====
section
/-! DEFINITION. Where things lie: dies, sectors and the grid (R8, R9, R455), the cache index hash (R424), scopes as sets of
cores (R18), gateway clusters (R336), the identity words of the constant window (R87). -/

namespace Sys2Proof.Machine

/-- Die of a cluster position (R9). -/
def dieOfCluster (h : Nat) : Nat := h / 10240
/-- Die of a core. -/
def dieOf (g : Nat) : Nat := dieOfCluster (g / 8)
/-- Global sector of a cluster position (R9). -/
def sectorOf (h : Nat) : Nat := h / 256
/-- Quad of a core: 2 × cluster + quad (R9). -/
def quadOf (g : Nat) : Nat := 2 * (g / 8) + g % 8 / 4

/-- One round of D2XY at side n (R455): the state is (x, y, t). -/
def d2xyStep (st : Nat × Nat × Nat) (n : Nat) : Nat × Nat × Nat :=
  let (x, y, t) := st
  let rx := t / 2 % 2
  let ry := (t ^^^ rx) % 2
  let (x, y) := if ry = 0 then (if rx = 1 then (n - 1 - y, n - 1 - x) else (y, x)) else (x, y)
  (x + n * rx, y + n * ry, t / 4)

/-- D2XY (R455): place d of the order-4 Hilbert curve of a square. -/
def d2xy (d : Nat) : Nat × Nat :=
  let (x, y, _) := [1, 2, 4, 8].foldl d2xyStep (0, 0, d)
  (x, y)

/-- Grid row and column of a position within its die (R455). -/
def gridOf (h : Nat) : Nat × Nat :=
  let p := h % 10240
  let sq := p / 256
  let br := sq / 8
  let bc := if br % 2 = 0 then sq % 8 else 7 - sq % 8
  let (x, y) := d2xy (p % 256)
  let (u, v) := if bc = 7 then (y, x) else if br % 2 = 0 then (x, y) else (15 - x, 15 - y)
  (16 * br + v, 16 * bc + u)

/-- Home die of a physical address: the XOR of the twelve 3-bit groups above bit 15 (R424). -/
def homeDie (pa : Nat) : Nat := (List.range 12).foldl (fun a j => a ^^^ natBits pa (3 * j + 16) 3) 0
/-- Slice of a physical address on each die (R424). -/
def sliceOf (pa : Nat) : Nat := 128 * (natBits pa 16 36 % 48) + (natBits pa 9 7 ^^^ natBits pa 16 7)
/-- Set of a physical address in its slice (R424). -/
def setOf (pa : Nat) : Nat := natBits pa 6 3 + 8 * (natBits pa 16 4 ^^^ natBits pa 20 4)

/-- Core d lies in scope sc as seen from core c (R18); scopes above PART hold every core of the package. -/
def inScope (s : State) (sc : Scope) (c d : Nat) : Bool :=
  let samePart := s.partOfCluster (c / 8) == s.partOfCluster (d / 8)
  match sc with
  | .ctx | .core => c == d
  | .quad => quadOf c == quadOf d
  | .clus => c / 8 == d / 8
  | .sect => samePart && sectorOf (c / 8) == sectorOf (d / 8)
  | .die => samePart && dieOf c == dieOf d
  | .part => samePart
  | .pkg | .host | .link | .sys => true

/-- A gateway cluster (R336). -/
def isGateway (h : Nat) : Bool :=
  let d := dieOfCluster h
  let a := (Config.gatewayFirst d).val
  let b := (Config.gatewayOther d).val
  h % 10240 == a || h % 10240 == (if b < a then b else b + 1)

/-- The partition's clusters lie on more than one die (R260). -/
def Part.multiDie (p : Part) : Bool := dieOfCluster p.base != dieOfCluster (p.base + p.len - 1)

/-- The identity words c0 to c15 of core g for a launch of `blocks` blocks (R87). -/
def idWords (s : State) (g blocks : Nat) : List Nat :=
  let h := g / 8
  let (row, col) := gridOf h
  let c3 := g % 8 + 8 * (g % 8 / 4) + 2 ^ 8 * row + 2 ^ 16 * col
  let c4 := dieOf g + 2 ^ 8 * (sectorOf h % 40) + 2 ^ 16 * sectorOf h
  [s.coreIndex g, g, h, c3, c4, s.partNo g, s.coreCount g, blocks] ++ List.replicate 8 0

end Sys2Proof.Machine
end

