-- ==== Sys2Proof/Machine/Caches.lean ====
section
/-! DEFINITION. Physical memory as the slices and the memory controllers hold it: home lines, far copies, way masks, scrub
records, frame tags, ownership, invalidations (12 R239, R240; 13 R257, R258; 25 R421 to R424; 26 R430, R433). -/

namespace Sys2Proof.Machine

/-- The scrub record of the frame that holds an address (R421). -/
def State.scrubOf (s : State) (pa : Nat) : Option Scrub := s.scrubs.find? fun r => decide (r.frame ≤ pa ∧ pa < r.frame + r.size)

/-- A line of a frame under scrub that is not yet cleared; lines are numbered in the frame (R421). -/
def Scrub.uncleared (r : Scrub) (i : Nat) : Bool := decide (r.pos ≤ i) && !r.cleared.contains i

/-- The words of a line in the memory below the second-level cache; an uncleared line of a frame under scrub reads zeros
(R421). [log 98, DESIGN CHOICE] -/
def State.memLine (s : State) (line : Nat) : Vector W 8 :=
  let clear := match s.scrubOf (64 * line) with
    | some r => r.uncleared (line - r.frame / 64)
    | none => false
  if clear then .replicate 8 0 else .ofFn fun i => .ofNat 64 (Memory.load s.mem (64 * line + 8 * i.val) 8)

/-- The tag of the frame that holds an address (R429). -/
def State.tagOf (s : State) (pa : Nat) : FrameTag := aget s.tags (pa / 65536) {}

/-- The controller's check of a line read that is not tagged by UNSCR: a line not written since the tag change fails
(R429, R433). [log 64, DEDUCED] [log 110, DESIGN CHOICE] -/
def State.lineReadable (s : State) (line : Nat) : Bool :=
  match (s.tagOf (64 * line)).written, s.scrubOf (64 * line) with
  | some l, none => l.contains line
  | _, _ => true

/-- A line written to the memory below the second-level cache (R421, R429). [log 98, DESIGN CHOICE] -/
def State.writeMemLine (s : State) (line : Nat) (words : Vector W 8) : State :=
  let m := (List.finRange 8).foldl (fun m i => Memory.store m (64 * line + 8 * i.val) 8 (words[i]).toNat) s.mem
  let sc := s.scrubs.map fun r =>
    if r.frame ≤ 64 * line ∧ 64 * line < r.frame + r.size then { r with cleared := (line - r.frame / 64) :: r.cleared } else r
  let t := s.tagOf (64 * line)
  let tags := match t.written with
    | some l => aset s.tags (64 * line / 65536) { t with written := some (line :: l) }
    | none => s.tags
  { s with mem := m, scrubs := sc, tags := tags }

/-- The line of a die's slice, a home line or a far copy; a line that was filled for another world is not served (R432). [log 93, DEDUCED] -/
def State.findLine (s : State) (die line : Nat) : Option SLine :=
  s.lines.find? fun l => l.die == die && l.line == line && l.world == (s.tagOf (64 * line)).world

/-- The fill mask of a partition in the slices of a die (R423); an agent that is no partition has none. -/
def State.fillMask (s : State) (p die : Nat) : BitVec 16 := if p < 16 then (s.part p).wmask[Fin.ofNat 8 die] else 0

/-- A hit refreshes the stamp when the line's way lies in its filler's mask (R423). -/
def State.refresh (s : State) (die line : Nat) : State :=
  { s with lines := s.lines.map fun l =>
      if l.die == die && l.line == line && (s.fillMask l.filler die).getLsbD l.way then { l with stamp := s.cycle } else l }

/-- The same for every home line of n bytes from a physical address, which a unit other than a core reads (R423). -/
def State.touchLines (s : State) (pa n : Nat) : State :=
  { s with lines := s.lines.map fun l =>
      if l.die == homeDie (64 * l.line) && decide (pa / 64 ≤ l.line ∧ 64 * l.line < pa + n) && (s.fillMask l.filler l.die).getLsbD l.way
      then { l with stamp := s.cycle } else l }

/-- The key under which frames are encrypted changes: their lines fail their check until they are written to memory again (R429, R433,
R434). -/
def State.rekey (s : State) (f : Nat → FrameTag → Bool) : State :=
  { s with tags := s.tags.map fun e => if f e.1 e.2 then (e.1, { e.2 with written := some [] }) else e }

/-- The lines of a die's slice in the set of a line (R424). -/
def State.lineSet (s : State) (die line : Nat) : List SLine :=
  s.lines.filter fun l => l.die == die && sliceOf (64 * l.line) == sliceOf (64 * line) && setOf (64 * l.line) == setOf (64 * line)

/-- The age order of a way in a set: an invalid way counts as the oldest (R423). -/
def wayStamp (l : List SLine) (w : Nat) : Nat :=
  match l.find? fun k => k.way == w with
  | some k => k.stamp + 1
  | none => 0

/-- The older of two ways; of equals, the first. -/
def olderWay (l : List SLine) (b : Option Nat) (w : Nat) : Option Nat :=
  match b with
  | none => some w
  | some v => if wayStamp l w < wayStamp l v then some w else some v

/-- The way that a fill takes: an invalid way of the mask, or the one with the oldest stamp (R423). -/
def State.victimWay (s : State) (p die line : Nat) : Option Nat :=
  ((List.range 16).filter fun w => (s.fillMask p die).getLsbD w).foldl (olderWay (s.lineSet die line)) none

/-- The line leaves its slice; a dirty home line of the frame's world is written back (R423, R432). [log 93, DEDUCED] -/
def State.dropLine (s : State) (l : SLine) : State :=
  let s := if l.dirty && l.world == (s.tagOf (64 * l.line)).world then s.writeMemLine l.line l.words else s
  { s with lines := s.lines.filter fun k => !(k.die == l.die && k.line == l.line) }

/-- A line filled into a die's slice for a partition; with an empty mask nothing is allocated (R423). [log 8, DEDUCED] -/
def State.fillLine (s : State) (p die line : Nat) (words : Vector W 8) (dirty : Bool) : State :=
  match s.victimWay p die line with
  | none => s
  | some w =>
    let old := (s.lineSet die line).find? fun l => l.way == w
    let s := match old with | some l => s.dropLine l | none => s
    let keep := s.lines.filter fun k => !(k.die == die && k.line == line)
    { s with lines := { die := die, line := line, words := words, dirty := dirty, world := (s.tagOf (64 * line)).world, filler := p,
                        way := w, stamp := s.cycle } :: keep }

/-- The words of a line at its home: the slice's line, or memory's (R257). -/
def State.homeLine (s : State) (line : Nat) : Vector W 8 :=
  match s.findLine (homeDie (64 * line)) line with
  | some l => l.words
  | none => s.memLine line

/-- A number of n bytes at a physical address, as the homes hold it. -/
def State.homeLoad (s : State) (pa : Nat) : Nat → Nat
  | 0 => 0
  | n + 1 =>
    let w := (s.homeLine (pa / 64))[Fin.ofNat 8 (pa % 64 / 8)]
    bitsOf w (8 * (pa % 8)) 8 + 256 * s.homeLoad (pa + 1) n

/-- The aligned 8-byte word at a physical address, as its home holds it. -/
def State.homeWord (s : State) (pa : Nat) : Nat := ((s.homeLine (pa / 64))[Fin.ofNat 8 (pa % 64 / 8)]).toNat

/-- An access, or a miss, counted at the slices of a die for a partition; an agent that is no partition has no counts (R296). [log 28, DEDUCED] -/
def State.countL2 (s : State) (p die : Nat) (miss : Bool) : State :=
  if p ≥ 16 then s else
  let k := 16 * die + p
  let s := { s with l2Acc := aset s.l2Acc k (aget s.l2Acc k 0 + 1) }
  if miss then { s with l2Miss := aset s.l2Miss k (aget s.l2Miss k 0 + 1) } else s

/-- A line read at its home for a partition, counted there and filling the home slice; `tagged` says that the leaf has UNSCR set.
None: the line fails its tag check (R296, R429, R433). [log 28, DEDUCED] -/
def State.readHome (s : State) (p line : Nat) (tagged : Bool) : Option (Vector W 8 × State) :=
  let d := homeDie (64 * line)
  match s.findLine d line with
  | some l => some (l.words, (s.refresh d line).countL2 p d false)
  | none =>
    if tagged || s.lineReadable line then
      let w := s.memLine line
      some (w, (s.fillLine p d line w false).countL2 p d true)
    else none

/-- A line read by a core of a die for a partition: the die's far copy serves it when present, and a read of a line homed
elsewhere leaves a far copy (R257, log 8, DEDUCED). [log 28, DEDUCED] -/
def State.readFrom (s : State) (p die line : Nat) (tagged : Bool) : Option (Vector W 8 × State) :=
  if die = homeDie (64 * line) then s.readHome p line tagged
  else match s.findLine die line with
    | some l => some (l.words, (s.refresh die line).countL2 p die false)
    | none => (s.readHome p line tagged).map fun (w, t) => (w, (t.fillLine p die line w false).countL2 p die true)

/-- Bytes of a word replaced under a byte mask. -/
def mergeWord (old new : W) (mask : Nat) : W :=
  .ofNat 64 ((List.range 8).foldl (fun a i => a + (bitsOf (if natBit mask i then new else old) (8 * i) 8) * 256 ^ i) 0)

/-- The owned mark of a physical word cleared in a core's data cache (R239). -/
def CoreSt.revoke (c : CoreSt) (word : Nat) : CoreSt :=
  { c with dcache := c.dcache.map fun l =>
      if l.pline == word / 8 then { l with owned := l.owned &&& ~~~(1#8 <<< (word % 8)) } else l }

/-- A new owner of a physical word, or none; another core that owned it is revoked first (R239). [log 7, DEDUCED] -/
def State.setOwner (s : State) (word : Nat) (o : Option Nat) : State :=
  let s := match aget? s.owners word with
    | some q => if o = some q then s else s.modCore q fun c => c.revoke word
    | none => s
  { s with owners := match o with | some g => aset s.owners word g | none => adel s.owners word }

/-- Invalidations sent to every die but one that holds a far copy of a line (R258). -/
def State.sendInvals (s : State) (line : Nat) (src : Option Nat) (except : Option Nat) : State :=
  let home := homeDie (64 * line)
  (List.range 8).foldl (fun s d =>
    if d ≠ home ∧ some d ≠ except ∧ (s.findLine d line).isSome then
      { s with invals := s.invals ++ [{ home := home, die := d, line := line, seq := s.invSeq, src := src }], invSeq := s.invSeq + 1 }
    else s) s

/-- A line can take a part of its bytes: the slice holds it, or it is read from memory without an error (R429). [log 94, DESIGN CHOICE] [log 110, DESIGN CHOICE] -/
def State.lineLive (s : State) (line : Nat) : Bool := (s.findLine (homeDie (64 * line)) line).isSome || s.lineReadable line

/-- The far copy of a die takes a word that passes back through it, whether acknowledged or read at the home (R257). -/
def State.passBack (s : State) (die word : Nat) (w : W) : State :=
  { s with lines := s.lines.map fun (l : SLine) =>
      if l.die == die && l.die != homeDie (64 * (word / 8)) && l.line == word / 8 then { l with words := l.words.set (Fin.ofNat 8 word) w } else l }

/-- A home line takes new words: in the slice, or in memory where nothing is allocated (R423). -/
def State.putHome (s : State) (p line : Nat) (new : Vector W 8) : State :=
  let home := homeDie (64 * line)
  match s.findLine home line with
  | some _ =>
    let t := s.refresh home line
    { t with lines := t.lines.map fun (l : SLine) => if l.die == home && l.line == line then { l with words := new, dirty := true } else l }
  | none =>
    let t := s.fillLine p home line new true
    if (t.findLine home line).isSome then t else s.writeMemLine line new

/-- One word written at its home under a byte mask for partition p: the word's owner becomes `owner`, far copies of other
dies are invalidated, and the far copy of the writer's die takes the new word (R239, R243, R257, R258). A part of a line that
fails its check is not written, and the line goes on failing it; `whole` says that the write covers the line (R429).
[log 94, DESIGN CHOICE] -/
def State.writeHome (s : State) (p word : Nat) (mask : Nat) (data : W) (owner src : Option Nat) (die : Option Nat) (whole : Bool := false) :
    State :=
  let line := word / 8
  if !(whole || s.lineLive line) then s
  else
    let i : Fin 8 := Fin.ofNat 8 word
    let s := s.setOwner word owner
    let old := s.homeLine line
    let w := mergeWord old[i] data mask
    let s := s.putHome p line (old.set i w)
    let s := match die with | some d => s.passBack d word w | none => s
    s.sendInvals line src die

/-- Words from a word on written at their homes, each under eight bits of a mask; the lines from `lo` to below `hi` are written whole. -/
def State.homeWords (s : State) (p word : Nat) (owner src die : Option Nat) (lo hi mask data : Nat) : Nat → State
  | 0 => s
  | n + 1 =>
    (s.writeHome p word (mask % 256) (.ofNat 64 data) owner src die (decide (lo ≤ word / 8 ∧ word / 8 < hi))).homeWords p (word + 1) owner
      src die lo hi (mask / 256) (data / 2 ^ 64) n

/-- n bytes of a number written at their homes, word by word; a line of which they are the whole needs no read (R429). -/
def State.homeStore (s : State) (p pa : Nat) (owner src die : Option Nat) (n v : Nat) : State :=
  s.homeWords p (pa / 8) owner src die ((pa + 63) / 64) ((pa + n) / 64) ((2 ^ n - 1) * 2 ^ (pa % 8)) (v % 256 ^ n * 256 ^ (pa % 8))
    (if n = 0 then 0 else (pa % 8 + n + 7) / 8)

/-- A line dropped without write-back everywhere: slice, far copies (R212, R420). [log 7, DEDUCED] [log 32, DEDUCED] -/
def State.forgetLine (s : State) (line : Nat) : State :=
  { s with lines := s.lines.filter fun l => l.line != line }

/-- The memory controller of a frame has a free scrub record, of its 1,024 (R421). [log 92, DESIGN CHOICE] -/
def State.scrubRoom (s : State) (frame : Nat) : Bool :=
  decide (s.scrubs.length < 1024) || decide ((s.scrubs.countP fun r => Config.controllerOf r.frame == Config.controllerOf frame) < 1024)

/-- The physical address belongs to a frame that is being used with UNSCR: its scrub record exists or can be made. None: all
records of its controller are taken and the access waits (R421). -/
def State.ensureScrub (s : State) (frame size leaf part vpage : Nat) : Option State :=
  if (s.scrubOf frame).isSome then some s
  else if s.scrubRoom frame then
    some { s with scrubs := s.scrubs ++ [{ frame := frame, size := size, cleared := [], pos := 0, leaf := leaf, part := part, vpage := vpage }] }
  else none

/-- The frame tag admits an access of a world's compartment (R430). -/
def State.tagAdmits (s : State) (world comp pa : Nat) (write : Bool) : Bool :=
  let t := s.tagOf pa
  (decide (t.world = world) && (t.comp == 0 || t.comp == comp) || t.world == 255 || world == 0) && !(write && t.sealed)

end Sys2Proof.Machine
end

