-- ==== Sys2Proof/Machine/MemSys.lean ====
section
/-! DEFINITION. The cluster's memory port and what lies between a core and the slices: table walk, rights and frame tags,
read-only cache, core data cache, store buffer, tracked memory (10 R196 to R206; 13 R254; 22 R381 to R383; 26 R430, R431). -/

namespace Sys2Proof.Machine

/-! ### Tables -/

/-- The rights an access needs of a leaf: R, W, X (R198). -/
structure Need where
  r : Bool := false
  w : Bool := false
  x : Bool := false
deriving DecidableEq, Repr

/-- How a walk ends, before rights are compared (R198): the leaf, no page, or a table line that fails its check (R429). -/
inductive WalkEnd where
  | absent
  | leaf (e : TlbEnt)
  | bad (pa : Nat)
deriving DecidableEq, Repr

/-- How a translation ends: the physical address with the leaf used, EPROT, page not present, or an uncorrectable error in a table
(R198, R291). -/
inductive XEnd where
  | ok (pa : Nat) (e : TlbEnt)
  | prot
  | absent
  | bad (pa : Nat)
deriving DecidableEq, Repr

/-- A table entry that ends a walk as V = 0 does (R197, R198); lvl is the level 1 to 4. -/
def entryVoid (lvl e : Nat) : Bool :=
  let l := natBit e 5
  let leaf := lvl == 4 || (lvl == 3 && l)
  !natBit e 0 || natBits e 52 11 != 0 || natBits e 6 10 != 0 || natBit e 4 || (l && lvl != 3) || (natBit e 63 && !leaf)
    || (lvl == 3 && l && natBits e 16 5 != 0)

/-- The physical address that a table entry holds. -/
def entryPa (e : Nat) : Nat := natBits e 16 36 * 65536

/-- Index of a virtual address at a level (R196). -/
def levelIndex (lvl va : Nat) : Nat :=
  match lvl with
  | 1 => natBits va 39 9
  | 2 => natBits va 30 9
  | 3 => natBits va 21 9
  | _ => natBits va 16 5

/-- The leaf of a virtual address, walked from a table at the first of the listed levels (R196, R197). -/
def State.walkFrom (s : State) (p va : Nat) : List Nat → Nat → WalkEnd
  | [], _ => .absent
  | lvl :: rest, table =>
    let a := table + 8 * levelIndex lvl va
    let e := s.homeWord a
    if !s.lineLive (a / 64) then .bad a
    else if entryVoid lvl e then .absent
    else if lvl = 4 || natBit e 5 then
      .leaf { part := p, vpage := if lvl = 3 then va / 2 ^ 21 * 32 else va / 65536, big := lvl == 3, pa := entryPa e,
              r := natBit e 1, w := natBit e 2, x := natBit e 3, unscr := natBit e 63, leaf := a }
    else s.walkFrom p va rest (entryPa e)

/-- The walk of a partition's table (R196). -/
def State.walk (s : State) (p va : Nat) : WalkEnd :=
  if va ≥ 2 ^ 48 then .absent else s.walkFrom p va [1, 2, 3, 4] (s.part p).troot

/-- The physical addresses of the table entries that a walk reads, from a table at the first of the listed levels (R196). -/
def State.walkEntries (s : State) (va : Nat) : List Nat → Nat → List Nat
  | [], _ => []
  | lvl :: rest, table =>
    let a := table + 8 * levelIndex lvl va
    let e := s.homeWord a
    if !s.lineLive (a / 64) || entryVoid lvl e || lvl = 4 || natBit e 5 then [a] else a :: s.walkEntries va rest (entryPa e)

/-- The accesses that a walk of partition p makes at the slices (R196, R296). -/
def State.chargeWalk (s : State) (p va : Nat) : State :=
  if va ≥ 2 ^ 48 then s
  else (s.walkEntries va [1, 2, 3, 4] (s.part p).troot).foldl (fun (s : State) a =>
    match s.readHome p (a / 64) false with | some (_, t) => t | none => s) s

/-- A page that is absent in partition p may be pulled from the source of its migration: the source lies in another package and has
not answered V = 0 for the page, or its table has a leaf, or cannot be read (25 R426, R427). -/
def State.migrates (s : State) (p va : Nat) : Bool :=
  let t := s.part p
  t.mig && (if bitsOf t.pmsrc 8 8 = s.pkgnum then (match s.walk (bitsOf t.pmsrc 0 4) va with | .absent => false | _ => true)
            else !t.noPage.contains (va / 65536))

/-- A held translation covers a virtual address. -/
def TlbEnt.covers (e : TlbEnt) (p va : Nat) : Bool :=
  e.part == p && (if e.big then e.vpage / 32 == va / 2 ^ 21 else e.vpage == va / 65536)

/-- The physical address of a virtual address under a leaf. -/
def TlbEnt.phys (e : TlbEnt) (va : Nat) : Nat := if e.big then e.pa + va % 2 ^ 21 else e.pa + va % 65536

/-- The translation that the port of core g's cluster holds for a virtual address (R198). [log 17, DESIGN CHOICE] -/
def State.held (s : State) (g va : Nat) : Option TlbEnt :=
  (s.clusterAt (g / 8)).tlb.find? fun e => e.covers (s.partNo g) va

/-- Rights and frame tag of an access by a compartment of core g's partition under a leaf (R198, R430). -/
def State.grant (s : State) (g comp va : Nat) (need : Need) (e : TlbEnt) : XEnd :=
  let pa := e.phys va
  if (need.r && !e.r) || (need.w && !e.w) || (need.x && !e.x) then .prot
  else if s.tagAdmits (s.partOf g).world comp pa need.w then .ok pa e
  else .prot

/-- A translation at the port of core g's cluster: the held one, or a walk whose leaf is then held (R198). [log 17, DESIGN CHOICE] -/
def State.translate (s : State) (g comp va : Nat) (need : Need) : XEnd × State :=
  match s.held g va with
  | some e => (s.grant g comp va need e, s)
  | none =>
    let t := s.chargeWalk (s.partNo g) va
    match s.walk (s.partNo g) va with
    | .absent => (.absent, t)
    | .bad pa => (.bad pa, t)
    | .leaf e => (s.grant g comp va need e, t.modCluster (g / 8) fun c => { c with tlb := e :: c.tlb })

/-! ### Page faults and fault rings -/

/-- The ring that takes the records of an address space (R288). -/
def ringOf (asid : Nat) : Fin 64 := Fin.ofNat 64 (asid * 0x9E37 % 65536 / 1024)

/-- The four doubles of a ring record (R289). -/
def ringRecord (code access part ctx token addr pc asid core : Nat) : List W :=
  [.ofNat 64 (code * 2 ^ 56 + access * 2 ^ 48 + part * 2 ^ 44 + ctx * 2 ^ 40 + token), .ofNat 64 addr, .ofNat 64 pc,
   .ofNat 64 (asid * 2 ^ 48 + core)]

/-- A ring with room for one more record. -/
def Ring.room (r : Ring) : Bool := r.en && decide ((r.prod + 2 ^ 32 - r.cons) % 2 ^ 32 < 2 ^ r.szlog)

/-- A record written into a ring that has room: its 32 bytes, then the producer index; the line rises when the ring held no
unconsumed record (R288). Host memory is written at its home without an owner. -/
def State.putRecord (s : State) (k : Fin 64) (rec : List W) : State :=
  let r := s.rings[k]
  let a := r.base / (32 * 2 ^ r.szlog) * (32 * 2 ^ r.szlog) + 32 * (r.prod % 2 ^ r.szlog)
  let t := (List.range 4).foldl (fun (s : State) i => s.homeStore 16 (a + 8 * i) none none none 8 ((rec[i]?).getD 0).toNat) s
  { t with rings := t.rings.set k { r with prod := (r.prod + 1) % 2 ^ 32, line := r.line || r.prod == r.cons } }

/-- Waiting records of a ring written while there is room, oldest first (R288); fuel bounds their number. -/
def State.flushRing (s : State) (k : Fin 64) : Nat → State
  | 0 => s
  | n + 1 =>
    let r := s.rings[k]
    match r.wait with
    | rec :: rest =>
      if r.room then
        (({ s with rings := s.rings.set k { r with wait := rest } } : State).putRecord k rec).flushRing k n
      else s
    | [] => s

/-- A record sent to the ring of a partition; it waits while the ring has no room (R288). -/
def State.sendRecord (s : State) (p : Nat) (rec : List W) : State :=
  let k := ringOf (s.part p).asid
  let r := s.rings[k]
  let s : State := { s with rings := s.rings.set k { r with wait := r.wait ++ [rec] } }
  s.flushRing k (r.wait.length + 1)

/-- The sender offers a message: it takes a permit, or waits behind the earlier ones (R444). [log 72, DESIGN CHOICE] -/
def CmdLink.offer (l : CmdLink) (m : CmdMsg) : CmdLink :=
  if l.permits = 0 ∨ !l.wait.isEmpty then { l with wait := l.wait ++ [m] }
  else { l with permits := l.permits - 1, sent := l.sent ++ [m] }

/-- No message of the link is on its way or waits, so that one offered now is consumed at once (R444). [log 72, DESIGN CHOICE] -/
def CmdLink.idle (l : CmdLink) : Bool := l.sent.isEmpty && l.wait.isEmpty

/-- A launch takes note that a block of it has ended (R376). -/
def State.blockEnded (s : State) (p l i : Nat) : State :=
  s.modPart p fun q => { q with launches := q.launches.map fun e => if e.1 = l then
    (e.1, { e.2 with live := e.2.live.filter (fun b => b.1 != i), ran := i :: e.2.ran, runs := e.2.runs + 1 }) else e }

/-- The global scheduler consumes a message of a leaf (R288, R376, R444). -/
def State.takeMsg (s : State) (m : CmdMsg) : State :=
  match m with
  | .record p words => s.sendRecord p words
  | .ended p l i => s.blockEnded p l i
  | .other _ => s

/-- The leaf of cluster h sends a message to the global scheduler, behind its earlier ones (R444). [log 72, DESIGN CHOICE] -/
def State.report (s : State) (h : Nat) (m : CmdMsg) : State :=
  if (s.clusterAt h).up.idle then s.takeMsg m else s.modCluster h fun c => { c with up := c.up.offer m }

/-- A core of a partition that takes EMEM: it stops issue; its queued jobs and every write and request that has not left it are dropped
(R291). [log 75, DEDUCED] -/
def CoreSt.fence (c : CoreSt) : CoreSt :=
  { c with halted := true, copyQ := [], mxQ := [], sb := [], tiles := c.tiles.map fun t => { t with stash := none }
           ctxs := c.ctxs.map fun k => { k with req := none } }

/-- The partition p takes EMEM at a physical address met by core g: every core stops issue, jobs, writes and requests are dropped, a record
goes to its ring, from the core's leaf or from the device itself; the reset is the event that follows (R291). [log 75, DEDUCED] -/
def State.uncorrectable (s : State) (p pa g : Nat) (leaf : Bool := true) : State :=
  let t := s.part p
  let inPart := fun h => decide (t.base ≤ h ∧ h < t.base + t.len)
  let s : State := { s with
    cores := s.cores.map fun (k, c) => if inPart (k / 8) then (k, c.fence) else (k, c)
    clusters := s.clusters.map fun (h, c) => if inPart h then (h, { c with copyRun := none, mxRun := none }) else (h, c) }
  let s := s.modPart p fun t => { t with rst := true }
  let words := ringRecord 0x10 10 p 0 0 pa 0 t.asid g
  if leaf then s.report (g / 8) (.record p words) else s.sendRecord p words

/-- The token is outstanding at some port (R290). -/
def State.tokenOut (s : State) (tok : Nat) : Bool :=
  s.clusters.any (fun c => c.2.pfaults.any fun f => f.token == tok) || s.parts.any fun p => p.cpToken == some tok

/-- The wake token after a token: 32 bits, never 0 (R289, R446). -/
def nextTok (t : Nat) : Nat := t % (2 ^ 32 - 1) + 1

/-- The first token from one on that is not outstanding; the number bounds the search (R446). -/
def State.freeTok (s : State) : Nat → Nat → Nat
  | 0, t => t
  | n + 1, t => if s.tokenOut t then s.freeTok n (nextTok t) else t

/-- A fresh wake token (R446). -/
def State.takeTok (s : State) : Nat × State :=
  let t := s.freeTok (64 * s.clusters.length + 16) s.nextToken
  (t, { s with nextToken := nextTok t })

/-- A page-not-present fault at the port of core g's cluster: joins the page's entry or makes one with a record; none when
all 64 entries are taken (R290). -/
def State.pageFault (s : State) (g access ctx va pc : Nat) : Option Nat × State :=
  let p := s.partNo g
  let cl := s.clusterAt (g / 8)
  match cl.pfaults.find? fun f => f.part == p && f.vpage == va / 65536 with
  | some f => (some f.token, s)
  | none =>
    if cl.pfaults.length < 64 then
      let (tok, s) := s.takeTok
      let s := s.modCluster (g / 8) fun c => { c with pfaults := c.pfaults ++ [{ part := p, vpage := va / 65536, token := tok }] }
      (some tok, s.report (g / 8) (.record p (ringRecord 5 access p ctx tok va pc (s.part p).asid g)))
    else (none, s)


/-! ### Tracked memory -/

/-- A tile added to the runs of a record (R381). -/
def addTile (t : Nat) : List (Nat × Nat) → List (Nat × Nat)
  | [] => [(t, t)]
  | (a, b) :: r =>
    if t + 1 < a then (t, t) :: (a, b) :: r
    else if t + 1 = a then (t, b) :: r
    else if t ≤ b then (a, b) :: r
    else if t = b + 1 then
      match r with
      | (c, d) :: q => if c = t + 1 then (a, d) :: q else (a, t) :: (c, d) :: q
      | [] => [(a, t)]
    else (a, b) :: addTile t r

/-- Tile of a virtual address in the ranges of a set (R379). -/
def tileOf (ranges : List (Nat × Nat)) (va : Nat) : Option Nat :=
  (ranges.foldl (fun (acc : Nat × Option Nat) r =>
    (acc.1 + r.2, if r.1 ≤ va ∧ va < r.1 + 4096 * r.2 then some (acc.1 + (va - r.1) / 4096) else acc.2)) (0, none)).2

/-- A read of one byte entered into a record: its tile, or OUTSIDE within the guard (R382). -/
def ReadSet.note (rs : ReadSet) (t : TSet) (va : Nat) : ReadSet :=
  match tileOf t.ranges va with
  | some n =>
    let r := addTile n rs.runs
    if rs.tooMany then rs else if r.length > 30 then { rs with tooMany := true, runs := [] } else { rs with runs := r }
  | none => if t.gbase ≤ va ∧ va < t.gbase + t.glen then { rs with outside := true } else rs

/-- The trace set of a launch of the partition of core g, when the launch is traced. -/
def State.traceSet (s : State) (g l : Nat) : Option TSet :=
  match aget? (s.partOf g).launches l with
  | some q => if q.trace then some ((s.partOf g).tsets[Fin.ofNat 4 q.tset]) else none
  | none => none

/-- The writer that a store of context c bears: its launch and block (R383). -/
def Ctx.writer (c : Ctx) : Option (Nat × Nat) := match c.role with | .block l i => some (l, i) | _ => none

/-- The dirty-table entry after a write (R383). -/
def dirtyEntry (e : Nat) (w : Option Nat) : Nat :=
  let ext := if w.isNone || natBit e 30 then 2 ^ 30 else 0
  let who := w.getD 0xFFFFFF
  let new := if natBit e 31 then (if natBits e 0 24 = who then who else 0xFFFFFF) else who
  2 ^ 31 + ext + new

/-- The scrub record of a leaf with UNSCR is there or is made; none: the access waits (R421). -/
def State.readyScrub (s : State) (p : Nat) (e : TlbEnt) : Option State :=
  if e.unscr then s.ensureScrub e.pa (if e.big then 2 ^ 21 else 65536) e.leaf p e.vpage else some s

/-- A write of the device under a leaf; it waits while no scrub record is free for its frame (R421). -/
def State.deviceWrite (s : State) (p : Nat) (e : TlbEnt) (pa n v : Nat) : State :=
  match s.readyScrub p e with
  | some t => t.homeStore 16 pa none none none n v
  | none => { s with devQ := s.devQ ++ [{ leaf := e, part := p, pa := pa, n := n, v := v }] }

/-- Waiting writes of the device are performed, oldest first, while scrub records are free for them (R421); the number bounds them. -/
def State.flushDevice (s : State) : Nat → State
  | 0 => s
  | k + 1 =>
    match s.devQ with
    | w :: r =>
      let t : State := { s with devQ := r }
      match t.readyScrub w.part w.leaf with
      | some u => (u.homeStore 16 w.pa none none none w.n w.v).flushDevice k
      | none => s
    | [] => s

/-- A byte of an uncleared frame that has no scrub record yet: the youngest waiting write's, or zero (R421). -/
def State.waitingByte (s : State) (pa : Nat) : Nat :=
  match s.devQ.reverse.find? fun w => decide (w.pa ≤ pa ∧ pa < w.pa + w.n) with
  | some w => natBytes w.v (pa - w.pa) 1
  | none => 0

/-- n of those bytes. -/
def State.waitingBytes (s : State) (pa : Nat) : Nat → Nat
  | 0 => 0
  | n + 1 => s.waitingByte pa + 256 * s.waitingBytes (pa + 1) n

/-- A store of n bytes into a partition's virtual memory by the device itself, through the partition's table; none when the
page is absent or not writable. [log 21, DEDUCED] -/
def State.deviceStore (s : State) (p va n v : Nat) : Option State :=
  match s.walk p va with
  | .leaf e => if e.w then some (s.deviceWrite p e (e.phys va) n v) else none
  | _ => none

/-- n bytes of memory from a physical address lie in lines that can be read (R429). -/
def State.rangeLive (s : State) (pa n : Nat) : Bool :=
  (List.range ((pa + n + 63) / 64 - pa / 64)).all fun i => s.lineLive (pa / 64 + i)

/-- A read of n bytes of a partition's virtual memory by the device itself, within one page; an uncleared frame without a scrub record
holds zeros, and a line that fails its check is not read. [log 21, DEDUCED] -/
def State.deviceLoad (s : State) (p va n : Nat) : Option Nat :=
  match s.walk p va with
  | .leaf e =>
    if !e.r then none
    else if e.unscr && (s.scrubOf e.pa).isNone then some (s.waitingBytes (e.phys va) n)
    else if s.rangeLive (e.phys va) n then some (s.homeLoad (e.phys va) n) else none
  | _ => none

/-- The same with the state after it: a tagged read makes the scrub record, or waits for one; a line that fails its check is an
uncorrectable error of the partition (R291, R421, R423, R429). -/
def State.deviceRead (s : State) (p va n : Nat) : Option Nat × State :=
  match s.deviceLoad p va n, s.walk p va with
  | some v, .leaf e => (some v, if e.unscr && (s.scrubOf e.pa).isNone then s.deviceWrite p e (e.phys va) 0 0 else s.touchLines (e.phys va) n)
  | some v, _ => (some v, s)
  | none, .leaf e =>
    (none, if e.r && !e.unscr && !s.rangeLive (e.phys va) n then s.uncorrectable p (e.phys va) (8 * (s.part p).base) false else s)
  | none, .bad pa => (none, s.uncorrectable p pa (8 * (s.part p).base) false)
  | none, .absent => (none, s)

/-- Bytes written into a partition's virtual memory by the device, in pieces of at most 64 bytes that stay within a line; the
unreachable ones are left out. The first number bounds the pieces. -/
def State.devicePieces (s : State) (p va : Nat) : Nat → List Byte → State
  | 0, _ => s
  | _, [] => s
  | n + 1, l =>
    let k := 64 - va % 64
    ((s.deviceStore p va (Nat.min k l.length) (ofBytes (l.take k))).getD s).devicePieces p (va + k) n (l.drop k)

/-- Bytes written into a partition's virtual memory by the device. -/
def State.deviceBytes (s : State) (p va : Nat) (l : List Byte) : State := s.devicePieces p va (l.length / 64 + 2) l

/-- The committed record of a block of a set (R380). -/
def TSet.recordAt (t : TSet) (block : Nat) : Nat := roundUp (t.area + 64 + 8 * t.nt) 256 + 512 * block

/-- The 256 bytes of a trace record, as a number (R381). -/
def traceRecord (lid block : Nat) (r : ReadSet) (reaped : Bool) : List Byte :=
  let always := r.tooMany || r.outside || r.forget || reaped
  let runs := if r.tooMany then [] else r.runs
  let bit := fun (b : Bool) (i : Nat) => if b then 2 ^ i else 0
  let head := toBytes 4 lid ++ toBytes 4 block ++ [.ofNat 8 runs.length,
    .ofNat 8 (bit always 0 + bit r.tooMany 1 + bit r.outside 2 + bit r.forget 3 + bit reaped 4)] ++ List.replicate 6 0
  let body := (runs.map fun (a, b) => toBytes 4 a ++ toBytes 4 (b + 1 - a)).flatten
  head ++ body ++ List.replicate (240 - body.length) 0

/-- The read set that a record, as a number, holds, and its REAPED bit (R381). -/
def readSetOf (m : Nat) : ReadSet × Bool :=
  ({ runs := (List.range (natBits m 64 8)).map fun j =>
       let a := natBytes m (16 + 8 * j) 4
       (a, a + natBytes m (20 + 8 * j) 4 - 1)
     tooMany := natBit m 73, outside := natBit m 74, forget := natBit m 75 }, natBit m 76)

/-- The read set of a block of launch l in context x of core g changes: it is kept with the context, and its record goes to the staging
record of the trace area (R382). [log 81, DEDUCED] -/
def State.stageReads (s : State) (g : Nat) (x : Fin 16) (t : TSet) (block : Nat) (r : ReadSet) : State :=
  if r = (s.ctxAt g x).reads then s
  else (s.modCtx g x fun c => { c with reads := r }).deviceBytes (s.partNo g) (t.recordAt block + 256) (traceRecord t.lid block r false)

/-- A read of n bytes by context x of core g is recorded when its block is traced (R382). [log 81, DEDUCED] -/
def State.noteRead (s : State) (g : Nat) (x : Fin 16) (va n : Nat) : State :=
  match (s.ctxAt g x).role with
  | .block l i =>
    match s.traceSet g l with
    | some t => s.stageReads g x t i (((s.ctxAt g x).reads.note t va).note t (va + n - 1))
    | none => s
  | _ => s

/-- A read of n bytes by a job whose block has ended: it is added to the block's committed record (R382). [log 81, DEDUCED] -/
def State.noteLate (s : State) (g l i va n : Nat) : State :=
  match s.traceSet g l with
  | some t =>
    match s.deviceRead (s.partNo g) (t.recordAt i) 256 with
    | (some m, s) =>
      let (r, reaped) := readSetOf m
      s.deviceBytes (s.partNo g) (t.recordAt i) (traceRecord t.lid i ((r.note t va).note t (va + n - 1)) reaped)
    | (none, s) => s
  | none => s

/-- The flag byte of a set's header (R380). -/
def TSet.flags (t : TSet) : Nat := (if t.valid then 1 else 0) + (if t.act then 2 else 0) + (if t.busy then 4 else 0)

/-- The set k of partition p is changed and its header's flag byte written, once it has been bound (R380). -/
def State.putSet (s : State) (p : Nat) (k : Fin 4) (t : TSet) : State :=
  let s := s.modPart p fun q => { q with tsets := q.tsets.set k t }
  if t.bound then (s.deviceStore p (t.area + 20) 1 t.flags).getD s else s

/-- Address of the dirty entry of a tile in the active table (R380). -/
def TSet.dirtyAt (t : TSet) (tile : Nat) : Nat := t.area + 64 + (if t.act then 4 * t.nt else 0) + 4 * tile

/-- A write to a tile of set k of partition p entered into the active table (R383); the set becomes invalid when its area
cannot be reached. -/
def State.dirtyTile (s : State) (p : Nat) (k : Fin 4) (tile : Nat) (w : Option Nat) : State :=
  let t := (s.part p).tsets[k]
  let a := t.dirtyAt tile
  let (e, s) := s.deviceRead p a 4
  match e.bind fun e => s.deviceStore p a 4 (dirtyEntry e w) with
  | some s =>
    match t.launch with
    | some l => s.modPart p fun q =>
        { q with launches := q.launches.map fun e =>
            if e.1 = l ∧ e.2.inRun then
              let old := match aget? e.2.wset tile with | some v => 2 ^ 31 + v | none => 0
              (e.1, { e.2 with wset := aset e.2.wset tile (natBits (dirtyEntry old w) 0 24) })
            else e }
    | none => s
  | none => s.putSet p k { t with valid := false }

/-- A write of n bytes from a physical address meets the trace area of a set (R383). -/
def TSet.inArea (t : TSet) (pa n : Nat) : Bool :=
  t.areaFrames.any fun f => f.1 == pa / 4096 && decide (f.2.1 < pa % 4096 + n ∧ pa % 4096 < f.2.2)

/-- Some trace set of the package is valid. -/
def State.tracking (s : State) : Bool := s.parts.toList.any fun p => p.tsets.toList.any fun t => t.valid

/-- A write of n bytes from a physical address, within one 4 KiB frame, entered into the dirty tables of every valid set that tracks
the frame; a write of a set's area makes the set invalid (R383). -/
def State.trackWrite (s : State) (pa n : Nat) (writer : Option (Nat × Nat × Nat)) : State :=
  if !s.tracking then s
  else (List.range 16).foldl (fun s p =>
    (List.finRange 4).foldl (fun (s : State) k =>
      let t := (s.part p).tsets[k]
      if !t.valid then s
      else if t.inArea pa n then s.putSet p k { t with valid := false }
      else match aget? t.frames (pa / 4096) with
        | some tile =>
          let w := match writer with
            | some (q, l, i) => if q = p ∧ t.launch = some l then some i else none
            | none => none
          s.dirtyTile p k tile w
        | none => s) s) s

/-- A write of n bytes, within one line, at a physical address for partition p by any agent: performed at its home, and entered into the
dirty tables (R383). -/
def State.land (s : State) (p pa n v : Nat) (owner src die : Option Nat) (writer : Option (Nat × Nat)) : State :=
  (s.homeStore p pa owner src die n v).trackWrite pa n (writer.map fun (l, i) => (p, l, i))

/-- The same, counted at the home's slices (R296). -/
def State.perform (s : State) (p pa n v : Nat) (owner src die : Option Nat) (writer : Option (Nat × Nat)) : State :=
  let home := homeDie pa
  (s.countL2 p home (s.findLine home (pa / 64)).isNone).land p pa n v owner src die writer

/-! ### The core data cache -/

/-- A line of the core's data cache for a virtual line and a compartment (R205, R431). -/
def CoreSt.dline (c : CoreSt) (vline asid comp : Nat) : Option DLine :=
  c.dcache.find? fun l => l.vline == vline && l.asid == asid && l.comp == comp

/-- The number that n valid bytes from a virtual address hold in a data-cache line. -/
def DLine.value (l : DLine) (va n : Nat) : Option Nat :=
  let i : Fin 8 := Fin.ofNat 8 (va / 8)
  if l.valid.getLsbD i.val then some (bitsOf l.words[i] (8 * (va % 8)) (8 * n)) else none

/-- The line becomes the most recently used of the data cache (R205). -/
def CoreSt.touch (c : CoreSt) (vline asid comp : Nat) : CoreSt :=
  { c with dstamp := c.dstamp + 1, dcache := c.dcache.map fun l =>
      if l.vline == vline && l.asid == asid && l.comp == comp then { l with stamp := c.dstamp + 1 } else l }

/-- A line filled into the data cache: 16 sets of four ways by VA[9:6], least recently used (R205, log 5, DEDUCED). -/
def CoreSt.fillD (c : CoreSt) (l : DLine) : CoreSt :=
  let keep := c.dcache.filter fun k => !(k.vline == l.vline && k.asid == l.asid && k.comp == l.comp)
  let inSet := keep.filter fun k => k.vline % 16 == l.vline % 16
  let keep :=
    if inSet.length < 4 then keep
    else
      let old := inSet.foldl (fun m k => min m k.stamp) (c.dstamp + 1)
      keep.filter fun k => !(k.vline % 16 == l.vline % 16 && k.stamp == old)
  { c with dstamp := c.dstamp + 1, dcache := { l with stamp := c.dstamp + 1 } :: keep }

/-- The owned marks that a fill by core g sets (R239). -/
def State.ownedMarks (s : State) (g pline : Nat) : BitVec 8 :=
  .ofNat 8 ((List.range 8).foldl (fun a i => if aget? s.owners (8 * pline + i) = some g then a + 2 ^ i else a) 0)

/-- Unowned words of the core's data cache and valid clean words of its stash tiles are invalidated (R238). -/
def CoreSt.acquire (c : CoreSt) : CoreSt :=
  { c with
    dcache := c.dcache.map fun l => { l with valid := l.valid &&& l.owned }
    tiles := c.tiles.map fun t => { t with stash := t.stash.map fun m => { m with valid := m.valid &&& m.dirty } } }

/-! ### The store buffer -/

/-- The entry covers a byte of global virtual memory. -/
def SbEntry.covers (e : SbEntry) (va : Nat) : Bool :=
  (match e.src with | .stx => false | _ => true) && decide (e.va ≤ va ∧ va < e.va + sszBytes e.sz)

/-- The byte that the youngest buffered store of a compartment holds for an address (R200, R431). -/
def CoreSt.forward (c : CoreSt) (comp va : Nat) : Option Nat :=
  match c.sb.reverse.find? fun e => e.covers va && e.comp == comp with
  | some e => some (bitsOf e.data (8 * (va - e.va)) 8)
  | none => none

/-- A buffered store of another compartment covers one of n bytes (R431). -/
def CoreSt.foreign (c : CoreSt) (comp va n : Nat) : Bool :=
  c.sb.any fun e => e.comp != comp && (List.range n).any fun i => e.covers (va + i)

/-- n bytes from a virtual address, each from the youngest buffered store or from the given value's byte (R200). -/
def CoreSt.merge (c : CoreSt) (comp va : Nat) (base : Nat) : Nat → Nat
  | 0 => 0
  | n + 1 => ((c.forward comp va).getD (base % 256)) + 256 * c.merge comp (va + 1) (base / 256) n

/-- The value of n bytes that needs no access beyond the core: every byte forwarded, or the data cache's with the forwarded
bytes put over it (R200, R202). -/
def CoreSt.quick (c : CoreSt) (comp asid va n : Nat) : Option Nat :=
  if (List.range n).all fun i => (c.forward comp (va + i)).isSome then some (c.merge comp va 0 n)
  else match c.dline (va / 64) asid comp with
    | some l => (l.value va n).map fun v => c.merge comp va v n
    | none => none

/-- The buffer has room for a store of context x: 64 entries, at most 8 of one context (R202). -/
def CoreSt.hasRoom (c : CoreSt) (x : Nat) : Bool :=
  decide (c.sb.length < 64 ∧ (c.sb.countP fun e => e.ctx == x) < 8)

/-- A store of context x enters the buffer (R202). -/
def CoreSt.enter (c : CoreSt) (e : SbEntry) : CoreSt :=
  { c with sb := c.sb ++ [{ e with seq := c.sbSeq }], sbSeq := c.sbSeq + 1 }

/-- A store of context x is in the buffer. -/
def CoreSt.storesOf (c : CoreSt) (x : Nat) : Bool := c.sb.any fun e => e.ctx == x

/-- A store with a number below a bound is in the buffer. -/
def CoreSt.storesBelow (c : CoreSt) (seq : Nat) : Bool := c.sb.any fun e => decide (e.seq < seq)

/-! ### Access at the slices, for cores -/

/-- What a read at the slices gives: words with the state, a wait for a scrub record, or an uncorrectable error. -/
inductive LineEnd where
  | words (w : Vector W 8) (s : State)
  | wait
  | bad
deriving DecidableEq, Repr

/-- A line read at the slices for core g under a leaf (R257, R421, R433). -/
def State.lineFor (s : State) (g pa : Nat) (e : TlbEnt) : LineEnd :=
  match s.readyScrub (s.partNo g) e with
  | none => .wait
  | some t =>
    match t.readFrom (s.partNo g) (dieOf g) (pa / 64) e.unscr with
    | some (w, u) => .words w u
    | none => .bad

/-- The number that n bytes of a line hold, within one word. -/
def lineValue (w : Vector W 8) (a n : Nat) : Nat := bitsOf (w[Fin.ofNat 8 (a / 8)]) (8 * (a % 8)) (8 * n)

/-- Copies of a virtual line in the data cache, of any compartment, take a word that the core has read from the order of writes to it
(R243). -/
def CoreSt.seen (c : CoreSt) (va asid pa : Nat) (word : W) : CoreSt :=
  { c with dcache := c.dcache.map fun l =>
      if l.vline == va / 64 && l.asid == asid && l.pline == pa / 64 then { l with words := l.words.set (Fin.ofNat 8 (va / 8)) word } else l }

/-- The same for the eight words of a line (R243). -/
def CoreSt.seenLine (c : CoreSt) (va asid pa : Nat) (w : Vector W 8) : CoreSt :=
  { c with dcache := c.dcache.map fun l =>
      if l.vline == va / 64 && l.asid == asid && l.pline == pa / 64 then { l with words := w } else l }

/-- A line filled into core g's data cache under a virtual line and a compartment (R205, R239). -/
def State.fillCore (s : State) (g comp va pa : Nat) (w : Vector W 8) : State :=
  s.modCore g fun c => (c.seenLine va (s.partOf g).asid pa w).fillD
    { vline := va / 64, asid := (s.partOf g).asid, comp := comp, words := w, valid := 0xFF, owned := s.ownedMarks g (pa / 64),
      pline := pa / 64, stamp := 0 }

/-- The line of a cluster's read-only cache that holds a physical line (R254). -/
def State.roLine (s : State) (h world comp line : Nat) : Option RoLine :=
  (s.clusterAt h).ro.find? fun l => l.line == line && l.world == world && l.comp == comp && decide (s.cycle < l.filled + 65536)

/-- A line becomes the most recently used of the read-only cache (R254). -/
def Cluster.roTouch (c : Cluster) (line world comp : Nat) : Cluster :=
  { c with roStamp := c.roStamp + 1, ro := c.ro.map fun l =>
      if l.line == line && l.world == world && l.comp == comp then { l with stamp := c.roStamp + 1 } else l }

/-- A line filled into the read-only cache: 64 sets of four ways by PA[11:6]; an invalid line or the least recently used one
of the set gives way (R254). -/
def Cluster.roFill (c : Cluster) (cycle : Nat) (l : RoLine) : Cluster :=
  let live := c.ro.filter fun k => decide (cycle < k.filled + 65536) && !(k.line == l.line && k.world == l.world && k.comp == l.comp)
  let inSet := live.filter fun k => k.line % 64 == l.line % 64
  let live :=
    if inSet.length < 4 then live
    else
      let old := inSet.foldl (fun m k => min m k.stamp) (c.roStamp + 1)
      live.filter fun k => !(k.line % 64 == l.line % 64 && k.stamp == old)
  { c with roStamp := c.roStamp + 1, ro := { l with stamp := c.roStamp + 1 } :: live }

/-- A line read through the read-only path of core g's cluster: the cache's line, or one from the slices that fills the cache
(R206, R254). -/
def State.roRead (s : State) (g comp pa : Nat) (e : TlbEnt) : LineEnd :=
  let w := (s.partOf g).world
  match s.roLine (g / 8) w comp (pa / 64) with
  | some l => .words l.words (s.modCluster (g / 8) fun c => c.roTouch (pa / 64) w comp)
  | none =>
    match s.lineFor g pa e with
    | .words ws t => .words ws (t.modCluster (g / 8) fun c =>
        c.roFill t.cycle { line := pa / 64, world := w, comp := comp, words := ws, filled := t.cycle, stamp := 0 })
    | r => r

/-- A completed write of core g as the acknowledgement brings it back: a copy of the word in the writer's data cache takes
the whole word and is marked owned; a copy under another virtual address is stale now, and is owned no more (R205, R217, R240). [log 95, DEDUCED] -/
def CoreSt.acked (c : CoreSt) (va asid pa : Nat) (word : W) : CoreSt :=
  let i : Fin 8 := Fin.ofNat 8 (va / 8)
  { c with dcache := c.dcache.map fun l =>
      if l.pline != pa / 64 then l
      else if l.vline == va / 64 && l.asid == asid then
        { l with words := l.words.set i word, valid := l.valid ||| (1#8 <<< i.val), owned := l.owned ||| (1#8 <<< i.val) }
      else { l with owned := l.owned &&& ~~~(1#8 <<< i.val) } }

/-- The acknowledgement of a write of core g to the word of an address, as the home holds it (R240). [log 95, DEDUCED] -/
def State.ackCore (s : State) (g va pa : Nat) : State :=
  s.modCore g fun c => c.acked va (s.partOf g).asid pa ((s.homeLine (pa / 64))[Fin.ofNat 8 (pa / 8)])

/-- A write of core g within one word, performed at its home and acknowledged (R203, R239, R240). -/
def State.coreWrite (s : State) (g va pa n v : Nat) (writer : Option (Nat × Nat)) : State :=
  (s.perform (s.partNo g) pa n v (some g) (some g) (some (dieOf g)) writer).ackCore g va pa

end Sys2Proof.Machine
end

