-- ==== Sys2Proof/Machine/TrussObj.lean ====
section
/-! DEFINITION. Scratchpad accesses and the truss objects that lie in it (10 R201; 17 R303 to R311). -/

namespace Sys2Proof.Machine

/-- n bytes of the scratchpad of core g written. -/
def State.padStore (s : State) (g a n v : Nat) : State := s.modCore g fun c => { c with pad := Memory.store c.pad a n v }

/-- A truss object (R304). -/
structure Truss where
  phase : Bool
  live : Bool
  /-- BYTES, 32 bits -/
  bytes : Nat
  arr : Nat
  mem : Nat
deriving DecidableEq, Repr

/-- The truss at a local address (R304). -/
def CoreSt.truss (c : CoreSt) (a : Nat) : Truss :=
  let d0 := Memory.load c.pad a 8
  let d1 := Memory.load c.pad (a + 8) 8
  { phase := natBit d0 63, live := natBit d0 62, bytes := natBits d0 0 32, arr := natBits d1 16 16, mem := natBits d1 0 16 }

/-- The core with a truss written; reserved bits are written as zero (R304). -/
def CoreSt.setTruss (c : CoreSt) (a : Nat) (t : Truss) : CoreSt :=
  let d0 := (if t.phase then 2 ^ 63 else 0) + (if t.live then 2 ^ 62 else 0) + t.bytes % 2 ^ 32
  let d1 := t.arr % 65536 * 65536 + t.mem % 65536
  { c with pad := Memory.store (Memory.store (Memory.store (Memory.store c.pad a 8 d0) (a + 8) 8 d1) (a + 16) 8 0) (a + 24) 8 0 }

/-- Members that have not arrived. -/
def Truss.missing (t : Truss) : Nat := t.mem &&& (0xFFFF ^^^ t.arr)

/-- The phase ends when every member has arrived and every byte is there: the first part of Complete (R305). -/
def Truss.turn (t : Truss) : Truss :=
  if t.live ∧ t.missing = 0 ∧ t.bytes = 0 then { t with phase := !t.phase, arr := 0 } else t

/-- An event counted by a context's counters that run on it; none counts in Gydon mode (R292, R293, R295). -/
def Ctx.bump (c : Ctx) (e n : Nat) : Ctx :=
  if c.gydonMode then c else
  { c with cnt := c.cnt.map fun v =>
      if bitsOf v 58 6 = e ∧ bitsOf v 57 1 = 1 then .ofNat 64 (v.toNat / 2 ^ 57 * 2 ^ 57 + (v.toNat + n) % 2 ^ 57) else v }

/-- A scope clamp of the completing instruction: CLAMPED and its event (R241). -/
def Ctx.enterClamp (c : Ctx) : Ctx := if c.undo.clamp then { (c.bump 9 1) with clamped := true } else c

/-- A completed instruction: counted as event 2, and no longer the one that the gang's leader has fetched (R293, R295, R140). -/
def Ctx.tally (c : Ctx) : Ctx := { c.enterClamp.bump 2 1 with fresh := true, gword := none, entryWait := false }

/-- A request in flight ends and its instruction completes: a parked context moves on and returns to rotation, a stopped one
has moved on when it stopped (R266, R458). -/
def Ctx.retire (c : Ctx) : Ctx :=
  let step := c.step
  let c := { c.tally with req := none, undo := {}, prog := none, deadline := none, step := 0, back := 0 }
  match c.st with
  | .parked _ => { c.advance step with st := .run }
  | _ => c

/-- The context returns to rotation one cycle later at the soonest (R305). -/
def Ctx.wakeNext (c : Ctx) (cycle : Nat) : Ctx := { c with notBefore := Nat.max c.notBefore (cycle + 1) }

/-- The deadline of the context's SLEEP or TRWAIT lies in an earlier cycle (R272, R308). -/
def Ctx.late (c : Ctx) (cycle : Nat) : Bool := match c.deadline with | some d => decide (d < cycle) | none => false

/-- Issue of the core has stopped for a pre-emption, or the core is saved (R276). -/
def CoreSt.frozen (c : CoreSt) : Bool := c.away.isSome || c.stopping.isSome

/-- A TRWAIT of the context completes with a result in a cycle (R308). -/
def Ctx.endTrwait (c : Ctx) (d : Reg) (v : W) (cycle : Nat) : Ctx :=
  let step := c.step
  let stop := match c.st with | .parked _ => true | _ => false
  let c := ((c.setG d v).bump 15 1)
  let c := { c.tally with req := none, undo := {}, deadline := none, step := 0 }
  (if stop then { c.advance step with st := .run } else c).wakeNext cycle

/-- A TRWAIT of a context of the core ends in a cycle with a result, or with 0 in the cycle of its deadline where that is an earlier one
(R308, R309, R313). -/
def CoreSt.endWaiter (c : CoreSt) (x : Ctx) (d : Reg) (v : W) (cycle : Nat) : Ctx :=
  if x.late cycle && c.away.isNone then x.endTrwait d 0 (x.deadline.getD cycle) else x.endTrwait d v cycle

/-- The waiters of a truss whose token differs from its phase wake with 1: the second part of Complete (R305). -/
def CoreSt.wakeTruss (c : CoreSt) (a : Nat) (cycle : Nat) : CoreSt :=
  let ph := (c.truss a).phase
  { c with ctxs := c.ctxs.map fun x =>
      match x.req with
      | some (.trwait d b tok) => if b = a ∧ tok ≠ ph then c.endWaiter x d 1 cycle else x
      | _ => x }

/-- Complete (R305). -/
def CoreSt.complete (c : CoreSt) (a : Nat) (cycle : Nat) : CoreSt :=
  (c.setTruss a (c.truss a).turn).wakeTruss a cycle

/-- n bytes arrive on a truss (R310). -/
def CoreSt.copyArrive (c : CoreSt) (a n cycle : Nat) : CoreSt :=
  let t := c.truss a
  if t.live then (c.setTruss a { t with bytes := (t.bytes + 2 ^ 32 - n % 2 ^ 32) % 2 ^ 32 }).complete a cycle else c

/-- Tile of a local address in pt2 to pt23 (R12). -/
def padTile (a : Nat) : Nat := a / 1024

/-- The tile-table entry of a local address. -/
def CoreSt.tileAt (c : CoreSt) (a : Nat) : TileEnt := c.tiles[Fin.ofNat 24 (padTile a)]

/-- A membership of context x ends at EXIT or REAP (R311). -/
def CoreSt.dropMember (c : CoreSt) (x : Nat) (v : W) (cycle : Nat) : CoreSt :=
  if bitsOf v 63 1 = 0 then c
  else
    let a := bitsOf v 0 15
    let t := c.truss a
    if (c.tileAt a).stash.isSome ∨ !t.live then c
    else
      let keep := 0xFFFF ^^^ 2 ^ x
      (c.setTruss a { t with mem := t.mem &&& keep, arr := t.arr &&& keep }).complete a cycle

/-- Every membership of context x ends (R311). -/
def CoreSt.dropAll (c : CoreSt) (x : Fin 16) (cycle : Nat) : CoreSt :=
  let trm := c.ctxs[x].trm
  let c := trm.foldl (fun c v => c.dropMember x.val v cycle) c
  c.setCtx x { c.ctxs[x] with trm := .replicate 4 0 }

end Sys2Proof.Machine
end

