-- ==== Sys2Proof/Machine/Ops.lean ====
section
/-! DEFINITION. The named operations that every meaning shares: ways an instruction ends, parking, requests in flight, gangs,
the end of a block, reaping, taking a fault, the lead's handler and the return from it, store-fault records
(03 R66, R73; 06 R136 to R142; 10 R203, R204; 14 R265 to R275; 15 R279 to R286, R458). -/

namespace Sys2Proof.Machine

/-- The number of a fault code (R67). -/
def FaultCode.code : FaultCode → Nat
  | .eill => 1 | .epriv => 2 | .eseg => 3 | .eprot => 4 | .epnp => 5 | .ealign => 6 | .enack => 7 | .escope => 8 | .egate => 9
  | .etile => 10 | .estream => 11 | .emx => 12 | .etruss => 13 | .echan => 14 | .etrace => 15 | .emem => 16 | .emeter => 17
  | .eemit => 18 | .ekey => 19 | .ectx => 20

/-- The number of a park reason (R82). -/
def Park.code : Park → Nat
  | .none => 0 | .full => 1 | .mem => 2 | .pnp => 3 | .store => 4 | .drain => 5 | .fence => 6 | .tile => 7 | .stream => 8
  | .sfu => 9 | .sleep => 10 | .gang => 11 | .hop => 12 | .ctx => 13 | .truss => 14 | .chan => 15 | .gate => 16 | .copy => 17
  | .mx => 18 | .launch => 19 | .key => 20 | .sfault => 21 | .fenced => 22

/-- How an instruction ends other than by completing. -/
inductive Stop where
  /-- it parks with no effect and is issued again when the wait is over -/
  | park (p : Park) (w : Wait)
  /-- its request is in flight: the state with the context parked -/
  | held (t : State)
  /-- a precise fault: code, subcode, address; `keep` says that a gang stays coupled (R141, HOP) -/
  | fault (c : FaultCode) (sub addr : Nat) (keep : Bool := false)
  /-- TRAP n -/
  | trap (n : Nat)
deriving DecidableEq, Repr

/-- What an instruction does to the state of the package. -/
abbrev Act (α : Type) := Except Stop α

/-- A fault without subcode. -/
def raise {α : Type} (c : FaultCode) (addr : Nat := 0) : Act α := .error (.fault c 0 addr)
/-- A fault with a subcode. -/
def raiseSub {α : Type} (c : FaultCode) (sub : Nat) (addr : Nat := 0) : Act α := .error (.fault c sub addr)
/-- A check: the fault is raised when the condition holds. -/
def faultIf (b : Bool) (c : FaultCode) (sub : Nat := 0) (addr : Nat := 0) : Act Unit :=
  if b then .error (.fault c sub addr) else .ok ()

/-! ### What a release waits for, and the requests that have left a core (R230, R236, R238, R260) -/

/-- The scope is QUAD or wider (R238). [log 34, DEDUCED] -/
def scopeWide : Scope → Bool
  | .ctx | .core => false
  | _ => true

/-- The scope takes the cross-die actions in the partition of core g (R260). -/
def State.crossDie (s : State) (g : Nat) : Scope → Bool
  | .part => (s.partOf g).multiDie
  | .pkg | .host | .link | .sys => true
  | _ => false

/-- A stash tile of the core holds a dirty word (R210). -/
def CoreSt.dirtyStash (c : CoreSt) : Bool := c.tiles.any fun t => match t.stash with | some m => m.dirty != 0 | none => false

/-- A far-copy invalidation caused by core g is not yet applied (R260). -/
def State.farPending (s : State) (g : Nat) : Bool := s.invals.any fun v => v.src == some g

/-- ReleaseActions at a scope are over: the stores that had entered, the dirty stash words and the invalidations they caused are
gone (R238, R260). -/
def State.released (s : State) (g : Nat) (seq : Nat) (sc : Scope) : Bool :=
  !scopeWide sc || (!(s.coreAt g).storesBelow seq && !(s.coreAt g).dirtyStash && !(s.crossDie g sc && s.farPending g))

/-- A buffered store of the core to the aligned word of an address, other than a remote one (R230). -/
def CoreSt.sameWord (c : CoreSt) (va : Nat) : Bool :=
  c.sb.any fun e => (match e.src with | .stx => false | _ => true) && e.va / 8 == va / 8

/-- A global atomic of context x of core g may leave the core: its release is over and no buffered store of the core to its word
remains; one without progress has left already (R230, R236). -/
def State.mayLeave (s : State) (g : Nat) (x : Fin 16) (ord : Ord) (sc : Scope) (va : Nat) : Bool :=
  let rel := match ord with | .rel | .ar => true | _ => false
  match (s.ctxAt g x).prog with
  | some p => (!rel || s.released g p.seq sc) && !(s.coreAt g).sameWord va
  | none => true

/-- The release of a gate request is over; one without progress has left the core already (24 R406, R410). -/
def State.gateLeaves (s : State) (g : Nat) (x : Fin 16) (op : GateOp) : Bool :=
  match op, (s.ctxAt g x).prog with
  | .sig .., some p | .xfer .., some p => s.released g p.seq .part
  | _, _ => true

/-- The request, once sent, is performed whatever happens to its context (R458). -/
def Req.left : Req → Bool
  | .atomicBack .. | .sfu .. | .gateBack .. | .gateCopy .. | .copyJob .. | .mxJob .. => true
  | .gateHeld _ _ (.wait _) => false
  | .gateHeld .. | .gateOut _ _ (.open ..) | .gateOut _ _ .poll => true
  | _ => false

/-- The request of context x of core g has left the core, so it is performed whatever happens to the context: an atomic or a gate request
from the end of its release, and of the atomic's same-word wait, on (R236, R413, R458). -/
def State.hasLeft (s : State) (g : Nat) (x : Fin 16) : Bool :=
  match (s.ctxAt g x).req with
  | some (.atomicOut _ _ _ _ _ _ va ord sc _) => s.mayLeave g x ord sc va
  | some (.gateOut _ _ (.sig nb v)) => s.gateLeaves g x (.sig nb v)
  | some (.gateOut _ _ (.xfer a b n l)) => s.gateLeaves g x (.xfer a b n l)
  | some r => r.left
  | none => false

/-- A store-fault record that stops context x of core g finds its instruction performed, or sure to be: a gate request counts only once the
table has performed it (R458). -/
def State.stopsPast (s : State) (g : Nat) (x : Fin 16) : Bool :=
  match (s.ctxAt g x).req with
  | some (.gateOut ..) | some (.gateHeld ..) => false
  | _ => s.hasLeft g x

/-- A request of context x of core g waits for tokens at a gate of this package that is not HELD (R403, R412). -/
def State.awaitsTokens (s : State) (g x : Nat) : Bool := s.gates.any fun e => !e.2.held && e.2.queue.contains (g, x)

/-- The request of context x of core g is still performed after the context has been reaped: an atomic, a signal or a transfer that has
left the core, but for a signal that awaits tokens (R236, R413). -/
def State.outlives (s : State) (g : Nat) (x : Fin 16) : Bool :=
  match (s.ctxAt g x).req with
  | some (.atomicOut ..) | some (.gateOut ..) | some (.gateCopy ..) | some (.gateHeld _ _ (.xfer ..)) => s.hasLeft g x
  | some (.gateHeld _ _ (.sig ..)) => !s.awaitsTokens g x.val
  | _ => false

/-! ### Parking -/

/-- The context parked with a reason (R82). -/
def Ctx.parkOn (c : Ctx) (p : Park) (w : Wait) (cycle : Nat) : Ctx :=
  { c with st := .parked w, park := p, parkedAt := cycle }

/-- A park on a page that is not present is counted once, although the instruction waits first for an entry of the port (R290, R295). -/
def Ctx.countPnp (c : Ctx) (w : Wait) : Ctx :=
  let c := if c.entryWait then c else c.bump 12 1
  { c with entryWait := match w with | .ports => true | _ => false }

/-- The executing context parks; the instruction has no other effect and is issued again (R73, R82). -/
def State.parkCur (s : State) (p : Park) (w : Wait) : State :=
  s.modCur fun c => (if p = .pnp then c.countPnp w else c).parkOn p w s.cycle

/-- The instruction's request is in flight: the context parks until an agent ends it; `len` is the instruction's length. -/
def State.hold (s : State) (p : Park) (r : Req) (len : Nat) (w : Wait := .agent) : State :=
  s.modCur fun c => { c.parkOn p w s.cycle with req := some r, step := len }

/-- What the abandoned instruction read is given back, with the counts of its pops, and its request is dropped; a deadline stays, for the
instruction is issued again (R74, R156, R275, R295, R309). -/
def Ctx.abandon (c : Ctx) : Ctx :=
  let c := if c.undo.pops = 0 then c else c.bump 10 (2 ^ 57 - c.undo.pops)
  let c := c.undo.ports.foldl (fun (c : Ctx) e =>
    { c with ports := c.ports.set (Fin.ofNat 4 e.1) e.2.1, g := c.g.set (Fin.ofNat 16 (8 + e.1)) e.2.2 }) c
  { c with full := c.full ||| c.undo.full, undo := {}, req := none, prog := none, step := 0, draining := false }

/-- The request of a context whose instruction it has already moved past, or that is set aside, has failed without effect: the instruction
is to be issued again at its own pc (R236, R458). -/
def Ctx.takeBack (c : Ctx) : Ctx := { c.abandon with pc := c.pc - .ofNat 64 c.back, back := 0 }

/-- A gate request. -/
def Req.atGate : Req → Bool
  | .gateOut .. | .gateHeld .. | .gateBack .. | .gateCopy .. => true
  | _ => false

/-- A gate request of the context is set aside. -/
def Ctx.gateAside (c : Ctx) : Bool := match c.aside.bind (·.req) with | some r => r.atGate | none => false

/-- Context x of core g leaves every queue that names it for the request at which it waits: channels, gates, special-function units, evidence,
and inboxes that hold its flit (R194, R317, R320, R413, R439). -/
def State.withdraw (s : State) (g x : Nat) : State :=
  let off := fun (l : List (Nat × Nat)) => l.filter fun e => e != (g, x)
  let gates := fun (l : List (Nat × Nat)) => if x = 0 && (s.ctxAt g 0).gateAside then l else off l
  let flit : Msg := .flit g x
  let links := if x = 0 && (s.ctxAt g 0).gateAside then s.links else
    s.links.map fun l => { l with out := l.out.filter (· != .gateOp g x) }
  { s with
    links := links
    cores := s.cores.map fun (k, c) => if c.chanQ.contains (g, x) || c.inbox.contains flit then
      (k, { c with chanQ := off c.chanQ, inbox := c.inbox.filter (· != flit) }) else (k, c)
    gates := s.gates.map fun (k, c) => if c.queue.contains (g, x) then (k, { c with queue := gates c.queue }) else (k, c)
    gateMoves := s.gateMoves.map fun (k, c) => (k, { c with queue := gates c.queue })
    parts := s.parts.map fun p => { p with evQ := off p.evQ }
    quads := s.quads.map fun (k, q) =>
      let gone := fun (e : SfuReq) => if e.core = g ∧ e.ctx = x then { e with ctx := 16 } else e
      (k, { q with queue := q.queue.map gone, busy := q.busy.map gone }) }

/-! ### Gangs (R138 to R142) -/

/-- The members of a gang: context x of the cores at partition indices first to first + n − 1 (R139). -/
def State.members (s : State) (g first n : Nat) : List Nat := (List.range n).map fun i => s.coreNo g (first + i)

/-- The gang of context x of core g parts; event 14 counts in every member (R141, R293). -/
def State.partGang (s : State) (g : Nat) (x : Fin 16) : State :=
  match (s.ctxAt g x).gang with
  | none => s
  | some (first, n) => (s.members g first n).foldl (fun s m =>
      s.modCtx m x fun c => if c.gang = some (first, n) then { (c.bump 14 1) with gang := none } else c) s

/-- The outcome and the target of a coupled member compared with those of the members that have completed the instruction already; the
gang parts when they differ (R141). -/
def State.checkGang (s : State) (taken : Bool) (pc : W) : State :=
  match s.cur.gang with
  | none => s
  | some (first, n) =>
    let s := s.modCur fun c => { c with gout := some (taken, pc) }
    if (s.members s.core first n).any fun m =>
        let c := s.ctxAt m s.ctx
        c.gang == some (first, n) && (match c.gout with | some o => o != (taken, pc) | none => false)
    then s.partGang s.core s.ctx else s

/-- A control transfer of the executing context; a conditional branch says whether it is taken (R124, R141). -/
def State.goto (s : State) (pc : W) (taken : Bool := true) : State := (s.checkGang taken pc).modCur fun c => { c with pc := pc }

/-- A pc that is entered from a value: its low bit is cleared, so that a pc is always even (R59). [log 91, DESIGN CHOICE] -/
def evenPc (v : W) : W := v >>> 1 <<< 1

/-! ### The fault slot -/

/-- The entry of an origin map with the greatest native offset at or below q (R58). -/
def originAt (omap : List (Nat × Nat)) (q : Nat) : Option (Nat × Nat) :=
  (omap.filter fun o => decide (o.1 ≤ q)).foldl
    (fun (b : Option (Nat × Nat)) o => match b with
      | some v => if v.1 ≤ o.1 then some o else b
      | none => some o) none

/-- The private-code offset of a pc: by the origin map of the translated code in which the pc lies, whoever runs it (R58). [log 47, DEDUCED] -/
def State.privOf (s : State) (g : Nat) (c : Ctx) (pc : W) : Nat :=
  let va := (c.sgb[0] + pc).toNat
  match (s.partOf g).xcache.find? fun e => bitsOf c.sgl[0] 56 2 == 0 && decide (e.va ≤ va ∧ va < e.va + 2 * e.outLen) with
  | some e => (originAt e.omap ((va - e.va) / 2)).elim 0xFFFFFFFF (·.2)
  | none => 0xFFFFFFFF

/-- Two bytes of code at an offset of sg0, without any effect; 0 where they cannot be read. -/
def State.peekHalf (s : State) (g : Nat) (c : Ctx) (o : W) : Nat :=
  let a := (c.sgb[0] + o).toNat
  match bitsOf c.sgl[0] 56 2 with
  | 0 => match s.walk (s.partNo g) a with | .leaf e => s.homeLoad (e.phys a) 2 | _ => 0
  | 1 => Memory.load (s.coreAt g).pad a 2
  | _ => 0

/-- The instruction at a pc (WORD of R281). [log 18, DEDUCED] -/
def State.peekWord (s : State) (g : Nat) (c : Ctx) (pc : W) : W :=
  let lo := s.peekHalf g c pc
  .ofNat 64 (if lo % 2 = 1 then lo + 65536 * s.peekHalf g c (pc + 2) else lo)

/-- A slot filled when a context stops; one that holds a stop already is unchanged (R281). -/
def CoreSt.fillSlot (c : CoreSt) (x : Fin 16) (v : Slot) : CoreSt :=
  if (c.slots[x]).valid then c else { c with slots := c.slots.set x { v with valid := true } }

/-! ### The end of a block, reaping -/


/-- The block of context x of core g is reported ended: under tracing its staging record replaces the committed record, or
REAPED is set in the committed record; the launch takes note (R136, R269, R376, R382). [log 81, DEDUCED] -/
def State.endBlock (s : State) (g : Nat) (x : Fin 16) (reaped : Bool) : State :=
  let c := s.ctxAt g x
  match c.role with
  | .block l i =>
    let p := s.partNo g
    let s := match s.traceSet g l with
      | some t =>
        if reaped then
          match s.deviceRead p (t.recordAt i + 9) 1 with
          | (some v, s) => (s.deviceStore p (t.recordAt i + 9) 1 (v ||| 17)).getD s
          | (none, s) => s
        else s.deviceBytes p (t.recordAt i) (traceRecord t.lid i c.reads false)
      | none => s
    s.report (g / 8) (.ended p l i)
  | _ => s

/-- The cores whose context x remembers a gang with a member on core g (R142). -/
def State.remember (s : State) (g : Nat) (x : Fin 16) : List Nat :=
  (s.cores.filter fun (m, c) => m != g && s.partOfCluster (m / 8) == s.partOfCluster (g / 8) &&
    (match (c.ctxs[x]).gangOld with | some (first, n) => (s.members g first n).contains g | none => false)).map (·.1)

/-- Context x of core g has ended: the contexts whose remembered gang it was a member of note it, and those that wait at RECOUPLE are
named (R142). -/
def State.noteEnded (s : State) (g : Nat) (x : Fin 16) : State × List (Nat × Fin 16) :=
  let ms := s.remember g x
  let w := (ms.filter fun m => match (s.ctxAt m x).req with | some (.gang _ true ..) => true | _ => false).map fun m => (m, x)
  (ms.foldl (fun s m => s.modCtx m x fun c => { c with gangLost := true }) s, w)

/-- The jobs of context x of core g run on after it has ended (R136, R269). -/
def State.disownJobs (s : State) (g x : Nat) : State :=
  let copy := fun (j : CopyJob) => if j.ctx = x then { j with gone := true } else j
  let mx := fun (j : MxJob) => if j.ctx = x then { j with gone := true } else j
  (s.modCore g fun c => { c with copyQ := c.copyQ.map copy, mxQ := c.mxQ.map mx }).modCluster (g / 8) fun h =>
    { h with copyRun := h.copyRun.map fun (n, j) => (n, if n = g % 8 then copy j else j)
             mxRun := h.mxRun.map fun (n, j) => (n, if n = g % 8 then mx j else j) }

/-- Context x of core g becomes FREE after EXIT or REAP: memberships dropped, handles closed, streams unbound, return stack
discarded, the gang parted, the block reported; after EXIT its general registers stay until they are written by a seeding (R136, R269, R363).
The contexts that wait at RECOUPLE for it are returned. -/
def State.endCtx (s : State) (g : Nat) (x : Fin 16) (reaped : Bool) : State × List (Nat × Fin 16) :=
  let s := s.modCore g fun c => c.dropAll x s.cycle
  let s := if reaped then s else s.modPart (s.partNo g) fun p => { p with progress := s.cycle }
  let s := s.endBlock g x reaped
  let s := s.partGang g x
  let (s, w) := s.noteEnded g x
  let s := (s.disownJobs g x.val).modCore g fun c =>
    let c := c.setCtx x (if reaped then {} else { g := (c.ctxs[x]).g })
    if reaped then { c with tpend := c.tpend &&& ~~~(1#16 <<< x.val), slots := c.slots.set x { (c.slots[x]) with valid := false } } else c
  (s, w)

/-- Context x has left rotation, so no YIELD waits for it any more (R271). -/
def CoreSt.leftRotation (c : CoreSt) (x : Fin 16) : CoreSt :=
  { c with ctxs := c.ctxs.map fun k => { k with yields := k.yields.filter (· != x.val) } }

/-- REAP of context x waits for its stores; the lead that asked is then answered (R269). -/
def Ctx.reapAnswer (c : Ctx) (x : Nat) : Ctx := if c.req = some (.reap x) then c.retire else c

/-- Context x of core g is removed from rotation to be reaped: its current instruction is abandoned, but a request that has left the core
and writes memory or a gate is still performed (R269, R236, R413). -/
def State.startReap (s : State) (g : Nat) (x : Fin 16) : State :=
  let keep := s.outlives g x
  let s := (if keep then s else s.withdraw g x.val).modCore g fun c => c.leftRotation x
  s.modCtx g x fun c =>
    { (if keep then { c with prog := none } else c.abandon) with st := .stopped, reaping := true, token := none, deadline := none }

/-- A context that is being reaped still has a buffered store, or a request that has left the core (R269, R236). -/
def State.reapWaits (s : State) (g : Nat) (x : Fin 16) : Bool := (s.coreAt g).storesOf x.val || (s.ctxAt g x).req.isSome

/-- The stores of a context that is being reaped are gone: it ends. -/
def State.finishReap (s : State) (g : Nat) (x : Fin 16) : State × List (Nat × Fin 16) :=
  let (s, w) := s.endCtx g x true
  (s.modCtx g 0 fun c => c.reapAnswer x.val, w)

/-- Context x of core g ends without its consent; it ends at once when it has no buffered store (R269). -/
def State.reapCtx (s : State) (g : Nat) (x : Fin 16) : State × List (Nat × Fin 16) :=
  let s := s.startReap g x
  if s.reapWaits g x then (s, []) else s.finishReap g x

/-! ### Traps -/

/-- The lead's handler is enabled (R280). -/
def CoreSt.trapsOn (c : CoreSt) : Bool := c.tvec.getLsbD 0

/-- The handler's address in sg0 (R280). -/
def CoreSt.handler (c : CoreSt) : W := c.tvec >>> 1 <<< 1

/-- The lead enters its handler: TEPC ← its next pc, TACT ← 1, pc ← 2 × TVEC.ADDR; the deadline of a SLEEP or TRWAIT that it left is kept
for the return (R283, R309). -/
def State.enterAt (s : State) (g : Nat) (tepc : W) : State :=
  (s.modCore g fun c => { c with tepc := tepc, tact := true, tkeep := (c.ctxs[(0 : Fin 16)]).deadline.map fun d => (tepc, d) }).modCtx g 0
    fun c => { c with st := .run, pc := (s.coreAt g).handler, deadline := none }

/-- Context x of a core ends when its lead falls: every one but the lead and a translation (R284, R27). -/
def CoreSt.falls (c : CoreSt) (x : Fin 16) : Bool :=
  x != 0 && (c.ctxs[x]).st != .free && (match (c.ctxs[x]).role with | .translator _ => false | _ => true)

/-- The last steps of a fall, once every context that it reaps has ended: a record with ACCESS 9 is sent, the store-fault queue and the
slots are cleared (R284). [log 19, DEDUCED] [log 122, DESIGN CHOICE] -/
def State.settleFall (s : State) (g : Nat) : State :=
  let c := s.coreAt g
  match c.falling with
  | none => s
  | some (code, pc) =>
    if c.ctxs.any (·.reaping) then s
    else
      let p := s.partNo g
      (s.report (g / 8) (.record p (ringRecord code 9 p 0 0 0 pc.toNat (s.part p).asid g))).modCore g fun c =>
        { c with sfq := [], slots := .replicate 16 {}, tpend := 0, tact := false, tkeep := none, falling := none, fallen := true }

/-- The lead's request is set aside: it has left the core, and the lead does something else meanwhile (R275, R283, R458). -/
def Ctx.setAside (c : Ctx) : Ctx :=
  { c with
    aside := some { req := c.req, pc := c.pc, len := c.step, prog := c.prog, clamp := c.undo.clamp }
    req := none, undo := {}, prog := none, step := 0, pc := c.pc + .ofNat 64 c.step }

/-- The lead's request, or its pending token, is kept while the lead does something else; anything else that it waits for is abandoned
(R275, R283, R458). [log 19, DEDUCED] -/
def State.keepAside (s : State) (g : Nat) : State :=
  let c := s.ctxAt g 0
  if s.hasLeft g 0 then
    s.modCtx g 0 fun c => (match c.req with | some (.atomicOut ..) | some (.gateOut ..) => { c with prog := none } | _ => c).setAside
  else match c.token with
    | some t => s.modCtx g 0 fun c =>
        { c with token := none, aside := some { pc := c.pc, len := 0, token := some { t with step := 0 } }, pc := c.pc + .ofNat 64 t.step }
    | none => (s.withdraw g 0).modCtx g 0 fun c => c.abandon

/-- The lead in the place of its request that is set aside: parked on it, every result to be kept (R275, R283). -/
def Ctx.asAside (c : Ctx) (a : Aside) : Ctx :=
  { c with
    st := .parked .agent, req := a.req, pc := a.pc, step := a.len, back := 0, prog := a.prog, undo := { clamp := a.clamp }, token := none
    later := true, aside := none }

/-- The lead after a step of its request that is set aside: what it was doing, with the request, or its result, set aside again. One that
has failed is to be issued again: its pc becomes the lead's return address (R283). -/
def CoreSt.backAside (c : CoreSt) (old : Ctx) (a : Aside) : CoreSt :=
  let k := c.ctxs[(0 : Fin 16)]
  let kept := k.req.isSome || k.token.isSome
  let new : Ctx := { k with
    st := old.st, park := old.park, req := old.req, pc := old.pc, step := old.step, back := old.back, prog := old.prog, undo := old.undo
    token := old.token, deadline := old.deadline, later := false, notBefore := old.notBefore, parkedAt := old.parkedAt
    aside := if kept then some { a with req := k.req, prog := k.prog, token := k.token.map fun t => { t with step := 0 } } else none }
  let c := c.setCtx 0 new
  if !kept && k.pc == a.pc then { c with tepc := a.pc } else c

/-- A step of an agent on the request of context x of core g that the agent serves: the lead's request that is set aside, where `mine`
says so, or the request at which the context waits (R283, R458). -/
def State.serve (s : State) (g : Nat) (x : Fin 16) (mine : Req → Bool) (f : State → Option State) : Option State :=
  let old := s.ctxAt g x
  match old.aside with
  | some a =>
    if x = 0 && a.req.any mine then
      (f (s.modCtx g x fun c => c.asAside a)).map fun t => t.modCore g fun c => c.backAside old a
    else f s
  | none => f s

/-- The request of context x of core g that an agent serves: the lead's request that is set aside, where `mine` says so, or the one at
which the context waits. -/
def Ctx.served (c : Ctx) (mine : Req → Bool) : Option Req :=
  match c.aside.bind (·.req) with
  | some r => if mine r then some r else c.req
  | none => c.req

/-- The park reason of a request that has left the core (R82). -/
def Req.park : Req → Park
  | .sfu .. => .sfu
  | .gateOut .. | .gateBack .. | .gateHeld .. | .gateCopy .. => .gate
  | .copyJob .. => .copy
  | .mxJob .. => .mx
  | .keyInst .. => .key
  | _ => .mem

/-- What else a token brings is written at once, the first register with its pending token (R406). -/
def Ctx.writeMore (c : Ctx) (t : Token) : Ctx :=
  let c := t.more.foldl (fun (c : Ctx) r => c.setG (Fin.ofNat 16 r.1) r.2) c
  { c with
    gth := match t.gth with | some (j, v) => c.gth.set (Fin.ofNat 4 j) v | none => c.gth
    token := some { t with more := [], gth := none } }

/-- The lead goes on with what was set aside: it waits for the request, or writes the result before it issues (R275, R283). -/
def Ctx.takeAside (c : Ctx) (cycle : Nat) : Ctx :=
  match c.aside with
  | none => c
  | some a =>
    let c := { c with aside := none }
    match a.req, a.token with
    | some r, _ => { (c.parkOn r.park .agent cycle) with req := some r, step := 0, back := a.len, prog := a.prog, undo := { clamp := a.clamp } }
    | none, some t => { c.writeMore t with undo := { c.undo with clamp := a.clamp } }
    | none, none => c

/-- The lead falls: it parks, its request that has left the core is set aside, every other context but a translation ends as by REAP,
stores that wait for room in the record queue are dropped with the records; the last steps follow when the contexts have ended (R284, R458).
[log 19, DEDUCED] [log 122, DESIGN CHOICE] -/
def State.fall (s : State) (g code : Nat) (pc : W) : State × List (Nat × Fin 16) :=
  let s := if (s.ctxAt g 0).aside.isSome then (s.withdraw g 0).modCtx g 0 fun c => { c.abandon with token := none } else s.keepAside g
  let s := s.modCtx g 0 fun c => { c.parkOn .fenced .agent s.cycle with deadline := none }
  let s := s.modCore g fun c => { c with falling := some (code, pc), sb := c.sb.filter fun e => e.fault.isNone }
  let (s, w) := (List.finRange 16).foldl (fun (acc : State × List (Nat × Fin 16)) x =>
    if !(acc.1.coreAt g).falls x || ((acc.1.ctxAt g x).reaping && acc.1.reapWaits g x) then acc
    else let (s, w) := acc.1.reapCtx g x; (s, acc.2 ++ w)) (s, [])
  (s.settleFall g, w)

/-- Context x of core g stops with a filled slot: a context of 1 to 15 becomes STOPPED with its TPC and TPEND, or is reaped when
TVEC.EN = 0; the lead enters its handler, or falls (R282 to R284). The contexts that wait at RECOUPLE for an ended one are
returned. The first instruction of a handler that is entered for the stop issues two cycles later at the soonest (R283). [log 19, DEDUCED] -/
def State.stopWith (s : State) (g : Nat) (x : Fin 16) (v : Slot) (resume : W) : State × List (Nat × Fin 16) :=
  let s := s.modCore g fun c => c.leftRotation x
  let c := s.coreAt g
  let s := if c.trapsOn && !c.tact then s.modCtx g 0 fun k => { k with notBefore := Nat.max k.notBefore (s.cycle + 2) } else s
  if x = 0 then
    if c.tact || !c.trapsOn then s.fall g v.code v.pc
    else
      let s := s.modCore g fun c => { c.fillSlot 0 v with tpend := c.tpend ||| 1 }
      (s.enterAt g resume, [])
  else
    let s := s.modCore g fun c => { c.fillSlot x v with tpc := c.tpc.set x resume }
    if c.trapsOn then
      (s.modCore g fun c =>
        let k := c.ctxs[x]
        { c.setCtx x { k with st := .stopped, pc := resume } with tpend := c.tpend ||| (1#16 <<< x.val) }, [])
    else s.reapCtx g x

/-- The contexts that wait at RECOUPLE for a member that has ended each take ECTX (R142). An ECTX there ends no further
context's wait beyond those of the list, so fuel bounds the walk. [log 74, DESIGN CHOICE] [log 120, DESIGN CHOICE] -/
def State.wakeRecouple (s : State) : Nat → List (Nat × Fin 16) → State
  | 0, _ => s
  | _, [] => s
  | n + 1, (m, x) :: r =>
    let c := s.ctxAt m x
    match c.req with
    | some (.gang _ true ..) =>
      let s := s.modCtx m x fun c => c.abandon
      let c := s.ctxAt m x
      let (s, w) := s.stopWith m x
        { kind := 0, code := FaultCode.ectx.code, priv := s.privOf m c c.pc, pc := c.pc, word := .ofNat 64 c.iword.toNat } c.pc
      s.wakeRecouple n (r ++ w)
    | _ => s.wakeRecouple n r

/-- TAKING A FAULT: a precise fault of context x of core g (R279, R281 to R284, R141). The slot takes the code, the pc, the
instruction and the address; the context's resume pc is the pc of the instruction. -/
def State.takeFault (s : State) (g : Nat) (x : Fin 16) (code sub addr : Nat) (word : W) (keep : Bool := false) : State :=
  let s := if keep then s else s.partGang g x
  let s := s.modCtx g x fun c => { c with giveUp := none, gword := none, entryWait := false, deadline := none, back := 0 }
  let c := s.ctxAt g x
  let (s, w) := s.stopWith g x
    { kind := 0, code := code, sub := sub, priv := s.privOf g c c.pc, pc := c.pc, word := word, addr := .ofNat 64 addr } c.pc
  s.wakeRecouple 1024 w

/-- TAKING A TRAP: TRAP n of context x of core g; the resume pc is pc + 4 (R282, R286). [log 112, DEDUCED] [log 123, DEDUCED] -/
def State.takeTrap (s : State) (g : Nat) (x : Fin 16) (n : Nat) : State :=
  let s := (s.partGang g x).modCtx g x fun c => { c with gword := none }
  let c := s.ctxAt g x
  let (s, w) := s.stopWith g x
    { kind := 2, code := n, priv := s.privOf g c c.pc, pc := c.pc, word := .ofNat 64 c.iword.toNat } (c.pc + 4)
  s.wakeRecouple 1024 w

/-- THE RETURN FROM A TRAP: the lead leaves its handler; a SLEEP or TRWAIT that it returns to keeps its deadline (R286, R309). What is set
aside is taken up when the return has completed. [log 91, DESIGN CHOICE] -/
def State.leaveHandler (s : State) (g : Nat) : State :=
  let c := s.coreAt g
  let pc := evenPc c.tepc
  (s.modCore g fun c =>
    { c with tact := false, tkeep := none, tpend := c.tpend &&& ~~~1
             slots := c.slots.set 0 { (c.slots[(0 : Fin 16)]) with valid := false } }).modCtx g 0
    fun k => { k with pc := pc, deadline := match c.tkeep with | some (q, d) => if q = pc then some d else none | none => none }

/-- The lead has fallen, or is falling (R284). -/
def CoreSt.down (c : CoreSt) : Bool := c.fallen || c.falling.isSome

/-- The lead's handler is due at its next boundary (R283). -/
def State.handlerDue (s : State) (g : Nat) : Bool :=
  let c := s.coreAt g
  c.tpend != 0 && !c.tact && c.trapsOn && !c.down && !c.halted && !c.frozen

/-- A completed instruction leaves nothing to give back and nothing to wait for (R74, R295). -/
def Ctx.done (c : Ctx) : Ctx :=
  { c.tally with undo := {}, giveUp := none, prog := none, draining := false }

/-- HOW AN INSTRUCTION ENDS: it completes and is counted, parks, has a request in flight, or takes its fault. -/
def finish (s : State) (a : Act State) : Host.Outcome State Fault Refusal :=
  match a with
  | .ok t => .next (t.modCur Ctx.done)
  | .error (.held t) => .next t
  | .error (.park p w) => .next (s.parkCur p w)
  | .error (.fault c sub addr keep) => .next (s.takeFault s.core s.ctx c.code sub addr (.ofNat 64 s.cur.iword.toNat) keep)
  | .error (.trap n) => .next (s.takeTrap s.core s.ctx n)

/-- A context that is being reaped ends when its stores are gone and no request of it has still to be performed; the lead's fall may then
be over (R269, R284). -/
def State.settleReap (s : State) (g : Nat) (x : Fin 16) : State :=
  if (s.ctxAt g x).reaping && !s.reapWaits g x then
    let (s, w) := s.finishReap g x
    (s.wakeRecouple 1024 w).settleFall g
  else s

/-- A stopped context whose request has failed without effect resumes at its instruction (R236, R458). -/
def State.takeBack (s : State) (g : Nat) (x : Fin 16) : State :=
  s.modCore g fun c =>
    let k := (c.ctxs[x]).takeBack
    { c.setCtx x k with tpc := if x = 0 then c.tpc else c.tpc.set x k.pc }

/-- A fault met by a request of a parked context: its instruction is abandoned and the fault is taken; a context that is being reaped takes
none, and one that is stopped, or whose request is set aside, or whose core is saved or stopped for it, issues the instruction again when it
resumes (R198, R209, R269, R275, R458). -/
def State.failReq (s : State) (g : Nat) (x : Fin 16) (code : FaultCode) (sub addr : Nat) : State :=
  let s := s.withdraw g x.val
  let c := s.ctxAt g x
  if c.reaping then (s.modCtx g x fun c => c.abandon).settleReap g x
  else if c.later || (s.coreAt g).frozen then s.modCtx g x fun c => { c.takeBack with st := match c.st with | .parked _ => .run | st => st }
  else if c.st = .stopped then s.takeBack g x
  else (s.modCtx g x fun c => c.takeBack).takeFault g x code.code sub addr (.ofNat 64 c.iword.toNat)

/-! ### Store-fault records (R203, R204, R458) -/

/-- The record of a store (R204). -/
def SbEntry.record (e : SbEntry) (code sub : Nat) : SfRec :=
  let src := match e.src with | .st => 0 | .push => 1 | .stx => 3 | .spill => 0
  let szc := match e.sz with | .n8 => 0 | .n16 => 1 | .n32 => 2 | .n64 => 3
  let va := match e.src with | .stx => e.target * 2 ^ 32 + e.va | _ => e.va
  let d0 := e.priv % 2 ^ 32 * 2 ^ 32 + code * 2 ^ 24 + sub * 2 ^ 16 + src * 256 + szc * 16 + e.ctx
  ((((Vector.replicate 4 (0 : W)).set 0 (.ofNat 64 d0)).set 1 (.ofNat 64 va)).set 2
    (.ofNat 64 (lowBits (8 * sszBytes e.sz) e.data))).set 3 e.pc

/-- The pc at which a store-fault record stops a context, and the context as it stands then (R203, R208, R458): a running one at
its boundary; a parked one at once, past an instruction whose request has left the core, past one whose result is still to be written,
and past a DRAIN, else at its own. -/
def Ctx.sfStop (c : Ctx) (left : Bool) : Ctx :=
  match c.st, c.token with
  | .parked _, none =>
    if left then
      { c.advance c.step with
        step := 0, back := c.step, prog := match c.req with | some (.atomicOut ..) | some (.gateOut ..) => none | _ => c.prog }
    else if c.req.isNone && c.draining then (c.advance 4).abandon
    else c.abandon
  | .stopped, _ => c
  | _, some t => { c.advance t.step with token := some { t with step := 0 } }
  | _, none => c

/-- An atomic's request. -/
def Req.isAtomic : Req → Bool
  | .atomicOut .. | .atomicBack .. => true
  | _ => false

/-- The request is a special function's or an atomic's, which the lead waits for before it enters its handler (R283). -/
def Req.awaited : Req → Bool
  | .sfu .. | .atomicOut .. | .atomicBack .. => true
  | _ => false

/-- A TRWAIT or SLEEP of the context whose limit has passed has ended with 0 (R272, R308). -/
def Ctx.endLate (c : Ctx) (cycle : Nat) : Ctx :=
  match c.st, c.req with
  | .parked _, some (.trwait d _ _) => if c.late cycle then c.endTrwait d 0 (c.deadline.getD cycle) else c
  | _, _ => c

/-- The lead stops while the result of a special function or an atomic, or a pending token, is awaited: the slot and TPEND are set, and the
handler is entered once the result is written (R283, R458). -/
def State.awaitStop (s : State) (g : Nat) (v : Slot) : State :=
  s.modCore g fun c => { c.fillSlot 0 v with tpend := c.tpend ||| 1 }

/-- The slot of a context that stops at a pc because a store of it has been recorded (R281). -/
def State.storeSlot (s : State) (g : Nat) (c : Ctx) (pc : W) (code sub : Nat) (addr : W) : Slot :=
  { kind := 1, code := code, sub := sub, priv := s.privOf g c pc, pc := pc, word := s.peekWord g c pc, addr := addr }

/-- The lead stops because a store of it has been recorded: it waits for the result of a special function or an atomic, sets any other
request that has left the core aside, and enters its handler, or falls (R283, R284, R458). [log 18, DEDUCED] [log 19, DEDUCED] -/
def State.stopLead (s : State) (g code sub : Nat) (addr : W) : State :=
  let s := s.modCtx g 0 fun c => { c.endLate s.cycle with gword := none }
  let c := s.ctxAt g 0
  let past := s.stopsPast g 0
  let c2 := c.sfStop past
  let v := s.storeSlot g c2 c2.pc code sub addr
  let enters := (s.coreAt g).trapsOn && !(s.coreAt g).tact
  if enters && (c.token.isSome || (past && (match c.req with | some r => r.awaited | none => false))) then s.awaitStop g v
  else
    let s := if enters && past then s.keepAside g
             else if past || c.token.isSome then s
             else (s.withdraw g 0).modCtx g 0 fun c => c.sfStop false
    let (s, w) := s.stopWith g 0 v c2.pc
    s.wakeRecouple 1024 w

/-- A context stops because a store of it has been recorded; a coupled one leaves its gang; one that is stopped already stays so, and a lead
that has fallen goes on lying (R203, R282, R284). [log 18, DEDUCED] [log 112, DEDUCED] [log 113, DEDUCED] -/
def State.stopForStore (s : State) (g : Nat) (x : Fin 16) (code sub : Nat) (addr : W) : State :=
  match (s.ctxAt g x).st with
  | .free | .stopped => s
  | _ =>
    if x = 0 then (if (s.coreAt g).down then s else s.stopLead g code sub addr)
    else
      let s := s.modCtx g x fun c => c.endLate s.cycle
      let past := s.stopsPast g x
      let s := if past then s else s.withdraw g x.val
      let s := s.modCtx g x fun c => { c.sfStop past with park := .sfault, gword := none }
      let c := s.ctxAt g x
      let s := s.partGang g x
      let (s, w) := s.stopWith g x (s.storeSlot g c c.pc code sub addr) c.pc
      s.wakeRecouple 1024 w

/-- A buffered store has left the buffer; a context that is being reaped ends with its last one (R269). -/
def State.storeGone (s : State) (g seq x : Nat) : State :=
  (s.modCore g fun c => { c with sb := c.sb.filter fun e => e.seq != seq }).settleReap g (ctxNo x)

/-- A buffered store is recorded: dropped, its record queued, its context stopped; while the queue is full it stays in the
buffer, and once the lead is falling it goes with the queue (R203, R204, R284). [log 113, DEDUCED] -/
def State.recordStore (s : State) (g : Nat) (e : SbEntry) (code : FaultCode) (sub : Nat) : State :=
  if (s.coreAt g).falling.isSome then s.storeGone g e.seq e.ctx
  else if (s.coreAt g).sfq.length < 16 then
    let r := e.record code.code sub
    let s := s.modCore g fun c => { c with sfq := c.sfq ++ [r] }
    (s.stopForStore g (ctxNo e.ctx) code.code sub (r[1])).storeGone g e.seq e.ctx
  else s.modCore g fun c => { c with sb := c.sb.map fun k => if k.seq == e.seq then { k with fault := some (code, sub) } else k }

/-- The oldest buffered store that waits for room in the queue is recorded (R204). -/
def State.recordHeld (s : State) (g : Nat) : State :=
  match (s.coreAt g).sb.find? fun e => e.fault.isSome with
  | some e => match e.fault with
    | some (code, sub) => s.recordStore g e code sub
    | none => s
  | none => s

end Sys2Proof.Machine
end

