-- ==== Sys2Proof/Machine/Operands.lean ====
section
/-! DEFINITION. Operand forms: source registers with synchronised reads and stream pops, the destination register with stream
pushes, segment offsets and checks, tile gates, local and buffered stores, the constant window
(03 R64, R72 to R74, R78, R84, R85; 07 R150 to R157; 10 R200, R201, R209). -/

namespace Sys2Proof.Machine

/-! ### Segments -/

/-- The rights of a segment limit register (R77). -/
inductive Right where
  | r | w | x | a | g
deriving DecidableEq, Repr

/-- The bit of a right in SGL (R77). -/
def Right.bit : Right → Nat
  | .r => 48 | .w => 49 | .x => 50 | .a => 51 | .g => 52

/-- KIND of a segment limit register (R77). -/
def segKind (sgl : W) : Nat := bitsOf sgl 56 2

/-- An access of n bytes at a segment offset (R78): whether it is local, and its address. `align` is what the address must be
a multiple of. -/
def segCheck (sgb sgl o : W) (n align : Nat) (rights : List Right) : Act (Bool × Nat) := do
  let kind := segKind sgl
  let addr := (sgb + o).toNat
  faultIf (kind ≥ 2) .eseg 0 addr
  faultIf (o.toNat + n > bitsOf sgl 0 48) .eseg 0 addr
  faultIf (rights.any fun q => !sgl.getLsbD q.bit) .eseg 0 addr
  faultIf (kind = 1 ∧ sgb.toNat + o.toNat + n > 0x6000) .eseg 0 addr
  faultIf (addr % align ≠ 0) .ealign 0 addr
  faultIf (kind = 0 ∧ addr ≥ 2 ^ 48) .eprot 0 addr
  return (kind = 1, addr)

/-- The same through segment sg of the executing context. -/
def State.seg (s : State) (sg : Fin 8) (o : W) (n align : Nat) (rights : List Right) : Act (Bool × Nat) :=
  segCheck s.cur.sgb[sg] s.cur.sgl[sg] o n align rights

/-- The segment that a 4-bit register field names (R227). -/
def segNo (r : Reg) : Fin 8 := Fin.ofNat 8 r.val

/-- The access waits for its tile, or ETILE 2 (R201). -/
def State.tileGate (s : State) (a : Nat) : Act Unit :=
  if a < 0x0800 then .ok ()
  else
    let t := s.here.tileAt a
    if t.stash.isSome then raiseSub .etile 2 a
    else if t.st = .ready then .ok ()
    else .error (.park .tile (.tileReady (padTile a)))

/-- The tiles of n bytes, at most two, pass the gate: none is in stash mode, then each is READY (R181, R201). -/
def State.tileGates (s : State) (a n : Nat) : Act Unit := do
  faultIf (0x0800 ≤ a + n - 1 ∧ (s.here.tileAt (a + n - 1)).stash.isSome ∧ ((s.here.tileAt a).stash.isNone ∨ a < 0x0800)) .etile 2 (a + n - 1)
  s.tileGate a
  if padTile (a + n - 1) ≠ padTile a then s.tileGate (a + n - 1)

/-- The write protection of the constant window (R85). -/
def State.windowGuard (s : State) (a : Nat) : Act Unit :=
  faultIf (a < 0x0800 ∧ (s.ctx ≠ 0 ∨ a < 128)) .eseg 0 a

/-- The constant-window entry cN (R84). -/
def State.constant (s : State) (c : Fin 256) : W := .ofNat 64 (Memory.load s.here.pad (8 * c.val) 8)

/-! ### Stash tiles (R209) -/

/-- The stash tile of a core that maps a virtual address: a store, an atomic or a write-back meets it in whatever compartment it was made
(R209, R211, R230). [log 114, DEDUCED] -/
def CoreSt.stashMap (c : CoreSt) (va : Nat) : Option (Fin 24 × Stash) :=
  (List.finRange 24).findSome? fun t =>
    match (c.tiles[t]).stash with
    | some m => if m.va ≤ va ∧ va < m.va + 1024 then some (t, m) else none
    | none => none

/-- The stash tile of a core from which a load of a compartment may hit (R209, R431). [log 114, DEDUCED] -/
def CoreSt.stashAt (c : CoreSt) (comp va : Nat) : Option (Fin 24 × Stash) :=
  (List.finRange 24).findSome? fun t =>
    match (c.tiles[t]).stash with
    | some m => if m.va ≤ va ∧ va < m.va + 1024 ∧ m.comp = comp then some (t, m) else none
    | none => none

/-- A stash tile with new marks. -/
def CoreSt.setStash (c : CoreSt) (t : Fin 24) (m : Stash) : CoreSt :=
  { c with tiles := c.tiles.set t { (c.tiles[t]) with stash := some m } }

/-- The access fills the line's invalid words first: the context parks, and the instruction is issued again (R209). [log 24, DEDUCED] -/
def State.stashMiss (s : State) (t : Fin 24) (m : Stash) (va : Nat) : Act State :=
  .error (.held (s.hold .mem (.stashFill t.val ((va - m.va) / 64)) 0))

/-- A store into a stash tile of the core (R209). -/
def State.stashStore (s : State) (t : Fin 24) (m : Stash) (va n v : Nat) : Act State := do
  faultIf (!m.wright && !m.stale) .eprot 0 va
  let i := (va - m.va) / 8
  if !m.valid.getLsbD i then s.stashMiss t m va
  else
    let s := s.padStore s.core (1024 * t.val + (va - m.va)) n v
    let w := (i, s.cur.writer)
    return s.modHere fun c => c.setStash t
      { m with dirty := m.dirty ||| (1#128 <<< i), wrote := if m.wrote.contains w then m.wrote else w :: m.wrote }

/-! ### Stores -/

/-- The code of a store's size. -/
def sszOf (n : Nat) : SSz := if n = 1 then .n8 else if n = 2 then .n16 else if n = 4 then .n32 else .n64

/-- A store of n bytes at a checked address by the executing context: into the scratchpad, into a stash tile, or into the store
buffer (R200 to R202, R209). -/
def State.store (s : State) (loc : Bool) (a n : Nat) (v : W) (src : SbSrc) : Act State :=
  if loc then do
    s.windowGuard a
    s.tileGate a
    return s.padStore s.core a n (lowBits (8 * n) v)
  else
    match s.here.stashMap a with
    | some (t, m) => s.stashStore t m a n (lowBits (8 * n) v)
    | none =>
      if s.here.hasRoom s.ctx.val then
        let e : SbEntry := { seq := 0, ctx := s.ctx.val, pc := s.cur.pc, src := src, va := a, sz := sszOf n, data := v,
                             comp := s.cur.comp, writer := s.cur.writer, priv := s.privOf s.core s.cur s.cur.pc }
        .ok ((s.modHere fun c => c.enter e).modCur fun c => c.bump 5 1)
      else .error (.park .store .room)

/-! ### Streams -/

/-- DIR of a port's descriptor (R151). -/
def Port.writes (p : Port) : Bool := natBit p.desc 163
/-- SZ of a port's descriptor. -/
def Port.sz (p : Port) : Nat := natBits p.desc 160 3
/-- SG of a port's descriptor. -/
def Port.sg (p : Port) : Fin 8 := Fin.ofNat 8 (natBits p.desc 164 3)
/-- CNT0 and CNT1. -/
def Port.cnt0 (p : Port) : Nat := natBits p.desc 64 16
def Port.cnt1 (p : Port) : Nat := natBits p.desc 80 16

/-- Segment offset of element (i0, i1) (R152). -/
def Port.offset (p : Port) (i0 i1 : Nat) : W :=
  .ofInt 64 ((natBits p.desc 0 64 : Int) + i0 * signedOf 32 (natBits p.desc 96 32) + i1 * signedOf 32 (natBits p.desc 128 32))

/-- The element after (i0, i1), the inner index moving fastest (R152). -/
def Port.next (p : Port) (i : Nat × Nat) : Nat × Nat := if i.1 + 1 < p.cnt0 then (i.1 + 1, i.2) else (0, i.2 + 1)

/-- The port one element further on. -/
def Port.advance (p : Port) : Port :=
  let i := p.next (p.i0, p.i1)
  { p with i0 := i.1, i1 := i.2, remain := p.remain - 1, ahead := p.ahead.drop 1 }

/-- Size in bytes of an SZ code (R63). -/
def szBytes (z : Nat) : Nat := 2 ^ (z % 4)

/-- The port number of g8 to g11. -/
def portOf (r : Reg) : Option (Fin 4) := if 8 ≤ r.val ∧ r.val < 12 then some (Fin.ofNat 4 (r.val - 8)) else none

/-- The register is a stream register: its port is bound (R72). -/
def Ctx.bound (c : Ctx) (r : Reg) : Bool := match portOf r with | some p => (c.ports[p]).bound | none => false

/-- The register is bound to a write stream. -/
def Ctx.boundWrite (c : Ctx) (r : Reg) : Bool := match portOf r with | some p => (c.ports[p]).bound && (c.ports[p]).writes | none => false

/-- The stream checks of R156, the lowest subcode first; `named7` marks the instructions whose own entry gives a bound
destination, which they also read, subcode 7. [log 25, DEDUCED] -/
def Ctx.streamCheck (c : Ctx) (srcs : List Src) (dst : Option Reg) (named7 : Bool) : Act Unit := do
  faultIf (srcs.any fun a => a.f && c.bound a.r) .estream 5
  let dstBound := match dst with | some d => c.bound d | none => false
  let dstRead := match dst with | some d => c.bound d && !c.boundWrite d | none => false
  faultIf (srcs.any fun a => c.boundWrite a.r && !(named7 && dst == some a.r)) .estream 6
  faultIf (named7 && dstBound) .estream 7
  faultIf dstRead .estream 6

/-- The stream registers among the sources, each once. -/
def Ctx.popList (c : Ctx) (srcs : List Src) : List Reg := (srcs.map (·.r)).eraseDups.filter c.bound

/-- A pop: the element's value is put into the register, and what it was is kept to be given back (R155). -/
def Ctx.pop (c : Ctx) (r : Reg) : Act Ctx :=
  match portOf r with
  | none => .ok c
  | some p => do
    let q := c.ports[p]
    faultIf (q.remain = 0) .estream 4
    match q.ahead with
    | [] => .error (.park .stream (.element p.val))
    | .bad f :: _ => raise f
    | .val v :: _ =>
      let u := { c.undo with ports := c.undo.ports ++ [(p.val, q, c.g[r])], pops := c.undo.pops + 1 }
      return ({ c with ports := c.ports.set p q.advance, undo := u }.setG r v).bump 10 1

/-- The registers that are read synchronously, each once. -/
def syncList (srcs : List Src) : List Reg := ((srcs.filter (·.f)).map (·.r)).eraseDups

/-- Every synchronised operand is full, or the context parks; the full bits are then cleared together (R73, R74). -/
def Ctx.syncRead (c : Ctx) (srcs : List Src) : Act Ctx :=
  let l := syncList srcs
  if l.all c.isFull then
    .ok (l.foldl (fun (c : Ctx) r => { c.clearFull r with undo := { c.undo with full := c.undo.full ||| (1#16 <<< r.val) } }) c)
  else .error (.park .full (.full l))

/-- Bound sources popped in order. -/
def Ctx.pops (c : Ctx) : List Reg → Act Ctx
  | [] => .ok c
  | r :: rest => do (← c.pop r).pops rest

/-- READING OPERANDS: the stream checks, the synchronised reads, the pops. The values then stand in the registers (R72 to R74,
R155, R156). [log 22, DEDUCED] -/
def State.readRegs (s : State) (srcs : List Src) (dst : Option Reg) (named7 : Bool := false) : Act State := do
  let c := s.cur
  c.streamCheck srcs dst named7
  let c ← c.syncRead srcs
  let c ← c.pops (c.popList srcs)
  return s.setCur c

/-- Operands of the instructions whose own chapter gives a bound destination a subcode of ESTREAM: 5, then 6 for the sources, then
that subcode for the destinations; a bound destination that is a source too has subcode 7 where that is its subcode (R156; 17 R321; 18 R338; 20 R353, R361; 22 R394; 24 R415; 26 R443). [log 22, DEDUCED] [log 25, DEDUCED] -/
def Ctx.opsCheck (c : Ctx) (srcs : List Src) (dsts : List Reg) (sub : Nat) : Act Unit := do
  faultIf (srcs.any fun a => a.f && c.bound a.r) .estream 5
  faultIf (srcs.any fun a => c.boundWrite a.r && !(sub == 7 && dsts.contains a.r)) .estream 6
  faultIf (dsts.any c.bound) .estream sub

/-- Reading the operands of such an instruction: the checks, then the reads (R72 to R74, R155, R156). [log 22, DEDUCED] [log 25, DEDUCED] -/
def State.readOps (s : State) (srcs : List Src) (dsts : List Reg) (sub : Nat) : Act State := do
  s.cur.opsCheck srcs dsts sub
  s.readRegs srcs none

/-- A push of a value by the executing context: an ordinary store of the element (R155). [log 101, DEDUCED] [log 102, DESIGN CHOICE] -/
def State.push (s : State) (d : Reg) (p : Fin 4) (v : W) : Act State := do
  let q := s.cur.ports[p]
  faultIf (q.remain = 0) .estream 4
  let n := szBytes q.sz
  let (loc, a) ← s.seg q.sg (q.offset q.i0 q.i1) n n [.w]
  let t ← s.store loc a n v .push
  return t.modCur fun c => ({ c with ports := c.ports.set p q.advance }.setG d v).bump 10 1

/-- WRITING A DESTINATION: a general register with its full bit, or a push (R73, R155). [log 102, DESIGN CHOICE] -/
def State.writeReg (s : State) (d : Reg) (v : W) : Act State :=
  match portOf d with
  | some p => if (s.cur.ports[p]).bound then s.push d p v else .ok (s.modCur fun c => c.setG d v)
  | none => .ok (s.modCur fun c => c.setG d v)

/-- A source that is read plainly. -/
def plain (r : Reg) : Src := ⟨r, false⟩

/-- A computation of one result from registers: operands read, the result written, the pc moved on. -/
def State.compute (s : State) (srcs : List Src) (d : Reg) (len : Nat) (f : State → W) : Act State := do
  let t ← s.readRegs srcs (some d)
  let t ← t.writeReg d (f t)
  return t.advance len

/-! ### Format M -/

/-- The registers that a memory operand reads. -/
def moffSrcs (o : MOff) : List Src := match o.idx with | some a => [a] | none => []

/-- The segment offset of a memory operand whose unit is `size` bytes; its index register has been read (R64). -/
def moffOffset (o : MOff) (s : State) (size : Nat) : W :=
  (match o.idx with | some a => s.g a.r | none => 0) + .ofInt 64 (o.disp.toInt * size)

end Sys2Proof.Machine
end

