-- ==== Sys2Proof/Machine/Flags.lean ====
section
/-! DEFINITION. The floating-point control register: rounding mode, flush mode, sticky flags (03 R83; 08 R170); the scope clamp
and its flag (12 R241); the lead's privilege check. -/

namespace Sys2Proof.Machine

/-- The five sticky flags of FPC that an operation raises (R83). -/
structure FFlags where
  /-- NV: invalid operation -/
  nv : Bool := false
  /-- DZ: division by zero -/
  dz : Bool := false
  /-- OF: overflow -/
  ov : Bool := false
  /-- UF: underflow -/
  uf : Bool := false
  /-- NX: inexact -/
  nx : Bool := false
deriving DecidableEq, Repr

/-- Flags raised by either of two operations. -/
def FFlags.or (a b : FFlags) : FFlags :=
  { nv := a.nv || b.nv, dz := a.dz || b.dz, ov := a.ov || b.ov, uf := a.uf || b.uf, nx := a.nx || b.nx }

/-- The flags as bits 15 to 11 of FPC (R83). -/
def FFlags.bits (f : FFlags) : W :=
  let b := fun (x : Bool) (i : Nat) => if x then 2 ^ i else 0
  .ofNat 64 (b f.nv 15 + b f.dz 14 + b f.ov 13 + b f.uf 12 + b f.nx 11)

/-- RM of FPC: 0 to nearest even, 1 toward zero, 2 toward −∞, 3 toward +∞ (R83). -/
def fpcRm (fpc : W) : Nat := bitsOf fpc 0 2

/-- FZ of FPC (R83). -/
def fpcFz (fpc : W) : Bool := fpc.getLsbD 8

/-- The context with flags raised: they are sticky (R83). -/
def Ctx.flag (c : Ctx) (f : FFlags) : Ctx := { c with fpc := c.fpc ||| f.bits }

/-- A write of FPC by software: RM and FZ are written, a flag is cleared where the value has a 1, other bits stay zero (R4, R83). -/
def fpcWrite (old v : W) : W := (v &&& 0x103) ||| (old &&& 0xF800 &&& ~~~v)

/-- The scope of a code 0 to 10 (R18). -/
def scopeOf (n : Nat) : Scope :=
  match n with
  | 0 => .ctx | 1 => .core | 2 => .quad | 3 => .clus | 4 => .sect | 5 => .die | 6 => .part | 7 => .pkg | 8 => .host
  | 9 => .link | _ => .sys

/-- The executing context is the lead, or ECTX (R267, R285). -/
def State.leadOnly (s : State) : Act Unit := faultIf (s.ctx ≠ 0) .ectx

/-- A scope after the clamp of guest partitions, with the state that enters the clamp when the instruction completes; ESCOPE when the
trap option is on (R241). -/
def State.clamp (s : State) (sc : Scope) : Act (Scope × State) :=
  let wide := match sc with | .pkg | .host | .link | .sys => true | _ => false
  if wide && s.curPart.guest then
    if s.curPart.strap then raise .escope
    else .ok (.part, s.modCur fun c => { c with undo := { c.undo with clamp := true } })
  else .ok (sc, s)

end Sys2Proof.Machine
end

