-- ==== Sys2Proof/Machine/Numbers.lean ====
section
/-! DEFINITION. Number formats and exact arithmetic: floating formats, DS8 weights, rounding with flags (08 R163 to R176). -/

namespace Sys2Proof.Machine

/-- An exact dyadic number: a sign, a natural magnitude and a power of two. -/
structure Dy where
  neg : Bool
  m : Nat
  e : Int
deriving DecidableEq, Repr

/-- A floating datum: NaN (signalling or quiet), an infinity, or an exact number with the sign of its zero. -/
inductive FV where
  | nan (sig : Bool)
  | inf (neg : Bool)
  | fin (d : Dy)
deriving DecidableEq, Repr

/-- A floating format: exponent and fraction widths, bias, and whether it has infinities (R163, R164). -/
structure Fmt where
  eb : Nat
  fb : Nat
  bias : Nat
  infs : Bool
deriving DecidableEq, Repr

/-- The format of a floating type (R163); others read as F32. -/
def fmtOf : Ty → Fmt
  | .f16 => ⟨5, 10, 15, true⟩
  | .bf16 => ⟨8, 7, 127, true⟩
  | .e4m3 => ⟨4, 3, 7, false⟩
  | .e5m2 => ⟨5, 2, 15, true⟩
  | _ => ⟨8, 23, 127, true⟩

/-- The width of a format. -/
def Fmt.width (f : Fmt) : Nat := f.eb + f.fb + 1
/-- The pattern of the largest finite value (R163, R164). -/
def Fmt.maxFin (f : Fmt) : Nat := if f.infs then (2 ^ f.eb - 1) * 2 ^ f.fb - 1 else 2 ^ (f.eb + f.fb) - 2
/-- The pattern of +∞. -/
def Fmt.infBits (f : Fmt) : Nat := (2 ^ f.eb - 1) * 2 ^ f.fb
/-- The canonical NaN (R164). -/
def Fmt.canon (f : Fmt) : Nat := if f.infs then (2 ^ f.eb - 1) * 2 ^ f.fb + 2 ^ (f.fb - 1) else 2 ^ (f.eb + f.fb) - 1
/-- The sign bit of a pattern, in place. -/
def Fmt.signBits (f : Fmt) (neg : Bool) : Nat := if neg then 2 ^ (f.eb + f.fb) else 0
/-- The exponent of the lowest fraction bit of subnormals. -/
def Fmt.emin (f : Fmt) : Int := 1 - (f.bias : Int) - f.fb

/-- The datum of a pattern (R163, R164); `fz` flushes a subnormal source (R171). -/
def Fmt.decode (f : Fmt) (fz : Bool) (b : Nat) : FV :=
  let neg := natBit b (f.eb + f.fb)
  let ex := natBits b f.fb f.eb
  let fr := natBits b 0 f.fb
  if f.infs ∧ ex = 2 ^ f.eb - 1 then (if fr = 0 then .inf neg else .nan (!natBit fr (f.fb - 1)))
  else if !f.infs ∧ natBits b 0 (f.eb + f.fb) = 2 ^ (f.eb + f.fb) - 1 then .nan false
  else if ex = 0 then .fin ⟨neg, if fz then 0 else fr, f.emin⟩
  else .fin ⟨neg, 2 ^ f.fb + fr, f.emin + ex - 1⟩

/-! ### Exact arithmetic -/

/-- The signed mantissa at a smaller exponent. -/
def Dy.at (d : Dy) (e : Int) : Int :=
  let n : Int := d.m * (2 : Int) ^ (d.e - e).toNat
  if d.neg then -n else n

/-- A dyadic number from a signed mantissa; `z` is the sign of a zero. -/
def dyOf (n e : Int) (z : Bool) : Dy := ⟨if n = 0 then z else decide (n < 0), n.natAbs, e⟩

/-- The sum of exact numbers; an exact zero of unlike signs takes the sign that the rounding mode gives (R169, R174). -/
def Dy.add (rm : Nat) (a b : Dy) : Dy :=
  let e := min a.e b.e
  let z := if a.m = 0 ∧ b.m = 0 ∧ a.neg = b.neg then a.neg else rm == 2
  dyOf (a.at e + b.at e) e z

/-- The product of exact numbers. -/
def Dy.mul (a b : Dy) : Dy := ⟨a.neg != b.neg, a.m * b.m, a.e + b.e⟩

/-- a < b for exact numbers; zeros compare equal. -/
def Dy.lt (a b : Dy) : Bool := let e := min a.e b.e; decide (a.at e < b.at e)

/-- a = b for exact numbers. -/
def Dy.eqv (a b : Dy) : Bool := let e := min a.e b.e; a.at e == b.at e

/-- The number with a changed sign. -/
def Dy.negate (a : Dy) : Dy := { a with neg := !a.neg }

/-- Bits of a natural number. -/
def bitLen (n : Nat) : Nat := if n = 0 then 0 else Nat.log2 n + 1

/-! ### Rounding -/

/-- The magnitude n / 2^k rounded by a mode (0 nearest even, 1 toward zero, 2 down, 3 up), and whether it is inexact (R83). -/
def roundShift (rm : Nat) (neg : Bool) (n k : Nat) : Nat × Bool :=
  let q := n / 2 ^ k
  let r := n % 2 ^ k
  let up := match rm with
    | 0 => decide (2 * r > 2 ^ k) || (decide (2 * r = 2 ^ k) && q % 2 == 1)
    | 1 => false
    | 2 => neg && r != 0
    | _ => !neg && r != 0
  (if up then q + 1 else q, r != 0)

/-- The magnitude of a number in units of 2^q, rounded. -/
def roundAt (rm : Nat) (d : Dy) (q : Int) : Nat × Bool :=
  if q ≤ d.e then (d.m * 2 ^ (d.e - q).toNat, false) else roundShift rm d.neg d.m (q - d.e).toNat

/-- The overflowed result of a sign in a mode: an infinity (a NaN for E4M3) or the largest finite value (R169). -/
def Fmt.overflow (f : Fmt) (rm : Nat) (neg : Bool) : Nat :=
  let toInf := match rm with | 0 => true | 1 => false | 2 => neg | _ => !neg
  if toInf then (if f.infs then f.signBits neg + f.infBits else f.canon) else f.signBits neg + f.maxFin

/-- An exact number rounded once to a format, with its flags (R169, R170); `fz` flushes a subnormal result (R171). -/
def Fmt.round (f : Fmt) (rm : Nat) (fz : Bool) (d : Dy) : Nat × FFlags :=
  if d.m = 0 then (f.signBits d.neg, {})
  else
    let top : Int := (bitLen d.m : Int) - 1 + d.e
    let q := max (top - f.fb) f.emin
    let (n, nx) := roundAt rm d q
    let bits := n + (q - f.emin).toNat * 2 ^ f.fb
    if bits > f.maxFin then (f.overflow rm d.neg, { ov := true, nx := true })
    else
      let tiny := decide (top < f.emin + f.fb) && decide ((roundAt rm d (top - f.fb)).1 < 2 ^ (f.fb + 1)
        || top + 1 < f.emin + f.fb)
      if fz ∧ bits < 2 ^ f.fb ∧ bits ≠ 0 then (f.signBits d.neg, { uf := true, nx := true })
      else (f.signBits d.neg + bits, { uf := tiny && nx, nx := nx })

/-- An exact number rounded to an integer by a mode, and whether it is inexact. -/
def Dy.toInt (rm : Nat) (d : Dy) : Int × Bool :=
  let (n, nx) := roundAt rm d 0
  (if d.neg then -(n : Int) else n, nx)

/-- A datum delivered in a format (R164, R169). -/
def Fmt.deliver (f : Fmt) (rm : Nat) (fz : Bool) : FV → Nat × FFlags
  | .nan _ => (f.canon, {})
  | .inf neg => (if f.infs then f.signBits neg + f.infBits else f.canon, {})
  | .fin d => f.round rm fz d

/-- NV for a signalling NaN (R170). -/
def FV.sigFlag : FV → FFlags
  | .nan true => { nv := true }
  | _ => {}

/-- A NaN. -/
def FV.isNan : FV → Bool
  | .nan _ => true
  | _ => false

/-- The sum of data: the exact sum, a NaN with NV for ∞ − ∞ (R169, R170). -/
def FV.add (rm : Nat) (a b : FV) : FV × FFlags :=
  let f := a.sigFlag.or b.sigFlag
  match a, b with
  | .nan _, _ | _, .nan _ => (.nan false, f)
  | .inf p, .inf q => if p = q then (.inf p, f) else (.nan false, { f with nv := true })
  | .inf p, _ | _, .inf p => (.inf p, f)
  | .fin x, .fin y => (.fin (x.add rm y), f)

/-- The product of data: a NaN with NV for 0 × ∞ (R169, R170). -/
def FV.mul (a b : FV) : FV × FFlags :=
  let f := a.sigFlag.or b.sigFlag
  let zeroInf := match a, b with
    | .inf _, .fin y => y.m == 0
    | .fin x, .inf _ => x.m == 0
    | _, _ => false
  if zeroInf then (.nan false, { f with nv := true })
  else match a, b with
    | .nan _, _ | _, .nan _ => (.nan false, f)
    | .inf p, .inf q => (.inf (p != q), f)
    | .inf p, .fin y => (.inf (p != y.neg), f)
    | .fin x, .inf q => (.inf (x.neg != q), f)
    | .fin x, .fin y => (.fin (x.mul y), f)

/-- The datum with a changed sign. -/
def FV.negate : FV → FV
  | .nan s => .nan s
  | .inf n => .inf !n
  | .fin d => .fin d.negate

/-- a < b for data that are no NaN. -/
def FV.lt : FV → FV → Bool
  | .nan _, _ | _, .nan _ => false
  | .inf p, .inf q => p && !q
  | .inf p, .fin _ => p
  | .fin _, .inf q => !q
  | .fin x, .fin y => x.lt y

/-- a = b for data; zeros of both signs are equal. -/
def FV.eqv : FV → FV → Bool
  | .nan _, _ | _, .nan _ => false
  | .inf p, .inf q => p == q
  | .fin x, .fin y => x.eqv y
  | _, _ => false

/-- The sign of a datum. -/
def FV.neg : FV → Bool
  | .nan _ => false
  | .inf n => n
  | .fin d => d.neg

/-! ### Scalar operations in a format (R173) -/

/-- A result with its flags. -/
abbrev FRes := Nat × FFlags

/-- The two-operand operations of a format under FPC. -/
structure FEnv where
  f : Fmt
  rm : Nat
  fz : Bool
deriving DecidableEq, Repr

/-- The environment of a type under an FPC value. -/
def fenv (t : Ty) (fpc : W) : FEnv := ⟨fmtOf t, fpcRm fpc, fpcFz fpc⟩

/-- A source pattern as a datum. -/
def FEnv.src (v : FEnv) (b : Nat) : FV := v.f.decode v.fz b

/-- A datum with flags delivered. -/
def FEnv.out (v : FEnv) (r : FV × FFlags) : FRes :=
  let (b, fl) := v.f.deliver v.rm v.fz r.1
  (b, r.2.or fl)

/-- FADD (R173). -/
def FEnv.add (v : FEnv) (a b : Nat) : FRes := v.out ((v.src a).add v.rm (v.src b))
/-- FSUB (R173). -/
def FEnv.sub (v : FEnv) (a b : Nat) : FRes := v.out ((v.src a).add v.rm (v.src b).negate)
/-- FMUL (R173). -/
def FEnv.mul (v : FEnv) (a b : Nat) : FRes := v.out ((v.src a).mul (v.src b))
/-- FFMA: one rounding after the exact product and sum (R169, R173). -/
def FEnv.fma (v : FEnv) (a b c : Nat) : FRes :=
  let (p, fp) := (v.src a).mul (v.src b)
  let (r, fr) := p.add v.rm (v.src c)
  v.out (r, fp.or (fr.or (v.src c).sigFlag))

/-- FMIN and FMAX: the other of a NaN, −0 below +0 (R173); `mx` takes the greater. -/
def FEnv.pickOf (v : FEnv) (mx : Bool) (a b : Nat) : FRes :=
  let x := v.src a
  let y := v.src b
  let fl := x.sigFlag.or y.sigFlag
  let keep := fun z => ((v.f.deliver 0 false z).1, fl)
  if x.isNan && y.isNan then (v.f.canon, fl)
  else if x.isNan then keep y
  else if y.isNan then keep x
  else
    let less := x.lt y || (x.eqv y && x.neg && !y.neg)
    keep (if less != mx then x else y)

/-- FRND: an integral value of the format; NX when it differs (R173). -/
def FEnv.rnd (v : FEnv) (a : Nat) : FRes :=
  match v.src a with
  | .nan s => (v.f.canon, { nv := s })
  | .inf n => v.out (.inf n, {})
  | .fin d =>
    if d.e ≥ 0 then v.out (.fin d, {})
    else
      let (n, nx) := roundAt v.rm d 0
      ((v.f.round 0 false ⟨d.neg, n, 0⟩).1, { nx := nx })

/-- The relations of FCMP. -/
inductive FRel where
  | eq | lt | le | un
deriving DecidableEq, Repr

/-- FCMP: the relation, and NV for any NaN of the ordered ones (R173). -/
def FEnv.cmp (v : FEnv) (r : FRel) (a b : Nat) : Bool × FFlags :=
  let x := v.src a
  let y := v.src b
  let sig := x.sigFlag.or y.sigFlag
  let any := x.isNan || y.isNan
  match r with
  | .eq => (x.eqv y, sig)
  | .un => (any, sig)
  | .lt => (x.lt y, { sig with nv := sig.nv || any })
  | .le => (x.lt y || x.eqv y, { sig with nv := sig.nv || any })

/-- FCLASS of a pattern (R173). -/
def classBits (f : Fmt) (b : Nat) : Nat :=
  let neg := natBit b (f.eb + f.fb)
  match f.decode false b with
  | .nan true => 2 ^ 8
  | .nan false => 2 ^ 9
  | .inf n => if n then 1 else 2 ^ 7
  | .fin d =>
    if d.m = 0 then (if neg then 2 ^ 3 else 2 ^ 4)
    else if natBits b f.fb f.eb = 0 then (if neg then 2 ^ 2 else 2 ^ 5)
    else if neg then 2 ^ 1 else 2 ^ 6

/-! ### DS8 (R165, R166) -/

/-- A term in eighths (R165). -/
def ds8Term (neg : Bool) (e : Nat) : Int := if e = 0 then 0 else if neg then -(2 : Int) ^ (e - 1) else (2 : Int) ^ (e - 1)

/-- The weight of a byte in eighths, −128 to 128 (R165). -/
def ds8Eighths (b : Nat) : Int := ds8Term (natBit b 7) (natBits b 4 3) + ds8Term (natBit b 3) (natBits b 0 3)

/-- The weight as an exact number. -/
def ds8Dy (b : Nat) : Dy := dyOf (ds8Eighths b) (-3) false

/-- The non-zero terms of a byte. -/
def ds8Terms (b : Nat) : Nat := (if natBits b 4 3 = 0 then 0 else 1) + (if natBits b 0 3 = 0 then 0 else 1)

/-- A better canonical byte: fewer non-zero terms, then the lesser byte (R166). -/
def ds8Better (o : Option Nat) (b : Nat) : Option Nat :=
  match o with
  | none => some b
  | some c => if ds8Terms b < ds8Terms c then some b else some c

/-- The canonical byte of a weight in eighths, among the bytes with e1 ≥ e2 (R166). -/
def ds8Canon (w : Int) : Option Nat :=
  (((List.range 256).filter fun b => natBits b 4 3 ≥ natBits b 0 3 && ds8Eighths b == w)).foldl ds8Better none

/-- The nearer weight to an exact number, a tie going to the smaller magnitude (R166). -/
def ds8Nearer (d : Dy) (best w : Int) : Int :=
  let e := min d.e (-3)
  let dist := fun (x : Int) => (d.at e - x * (2 : Int) ^ (-3 - e).toNat).natAbs
  if dist w < dist best ∨ (dist w = dist best ∧ w.natAbs < best.natAbs) then w else best

/-- The weights of all bytes, in eighths. -/
def ds8Weights : List Int := (List.range 256).map ds8Eighths

/-- The byte that a number is written as (R166). -/
def ds8Of (d : Dy) : Nat :=
  let w := if (⟨false, 16, 0⟩ : Dy).lt d then 128 else if d.lt ⟨true, 16, 0⟩ then -128 else ds8Weights.foldl (ds8Nearer d) 0
  (ds8Canon w).getD 0

/-! ### Conversions (R175, R176) -/

/-- The datum that a source type gives (R176). -/
def cvtSrc (t : Ty) (fz : Bool) (x : W) : FV :=
  match t with
  | .f32 | .f16 | .bf16 | .e4m3 | .e5m2 => (fmtOf t).decode fz (lowBits (tyWidth t) x)
  | .ds8 => .fin (ds8Dy (lowBits 8 x))
  | _ => .fin (dyOf (tyVal t x) 0 false)

/-- A conversion to a floating format; `sat` delivers the largest finite value for an infinity or an overflow (R176).
[log 108, DEDUCED] -/
def cvtFloat (f : Fmt) (rm : Nat) (fz sat : Bool) (x : FV) : FRes :=
  match x with
  | .nan s => (f.canon, { nv := s })
  | .inf n => if sat then (f.signBits n + f.maxFin, {}) else f.deliver rm fz (.inf n)
  | .fin d =>
    let (b, fl) := f.round rm fz d
    if sat && fl.ov then (f.signBits d.neg + f.maxFin, fl) else (b, fl)

/-- A conversion to an integer type (R176). -/
def cvtInt (t : Ty) (rm : Nat) (x : FV) : W × FFlags :=
  let w := tyWidth t
  let lo : Int := if tySigned t then -(2 : Int) ^ (w - 1) else 0
  let hi : Int := if tySigned t then (2 : Int) ^ (w - 1) - 1 else (2 : Int) ^ w - 1
  match x with
  | .nan _ => (tyPut t 0, { nv := true })
  | .inf n => (tyPut t (if n then lo else hi), { nv := true })
  | .fin d =>
    let (v, nx) := d.toInt rm
    if v < lo then (tyPut t lo, { nv := true })
    else if v > hi then (tyPut t hi, { nv := true })
    else (tyPut t v, { nx := nx })

/-- FCVT (R176): `o` is `.sat` for a floating destination and `.rz` for an integer one. -/
def convert (o : Bool) (t s : Ty) (fpc x : W) : W × FFlags :=
  let v := cvtSrc s (fpcFz fpc) x
  if tyFloat t then
    let (b, fl) := cvtFloat (fmtOf t) (fpcRm fpc) (fpcFz fpc) o v
    (.ofNat 64 b, fl)
  else cvtInt t (if o then 1 else fpcRm fpc) v

end Sys2Proof.Machine
end

