-- ==== Sys2Proof/Machine/Order.lean ====
section
/-! DEFINITION. Release and acquire actions, the cross-die actions, waits that end by themselves, page-not-present parks
(12 R238; 13 R255 to R260; 15 R290; 14 R265, R266). -/

namespace Sys2Proof.Machine

/-- The acquire also waits for HIO writes (R260). -/
def scopeHio : Scope → Bool
  | .host | .link | .sys => true
  | _ => false

/-- The wider of a scope and QUAD (R255). -/
def atLeastQuad (sc : Scope) : Scope := if scopeWide sc then sc else .quad

/-- Every HIO write that reached the package before number n is performed (R255, R263). -/
def State.hioDone (s : State) (n : Nat) : Bool := s.hioQ.all fun w => decide (n ≤ w.seq)

/-- The progress record that a context starts a release or a fence with. -/
def State.newProg (s : State) (g : Nat) : Prog := { seq := (s.coreAt g).sbSeq, hio := s.hioSeq }

/-- The markers of a sweep: one for each home die, behind the invalidations already sent (R259). [log 15, DEDUCED] -/
def State.markers (s : State) : List (Nat × Nat) := (List.range 8).map fun d => (d, s.invSeq)

/-- A marker may return to a die: every invalidation sent before it from its home to that die is applied (R259). [log 15, DEDUCED] -/
def State.markerBack (s : State) (die : Nat) (m : Nat × Nat) : Bool :=
  s.invals.all fun v => v.home != m.1 || v.die != die || decide (m.2 ≤ v.seq)

/-- Elements fetched ahead are discarded by every bound read stream (R157, R238). -/
def Ctx.dropAhead (c : Ctx) : Ctx := { c with ports := c.ports.map fun p => { p with ahead := [], gone := none, page := none } }

/-- AcquireActions at a scope, once any sweep is over (R238). [log 34, DEDUCED] -/
def State.acquire (s : State) (g : Nat) (x : Fin 16) (sc : Scope) : State :=
  let s := s.modCtx g x fun c => (if scopeWide sc then c.bump 13 1 else c).dropAhead
  if scopeWide sc then s.modCore g fun c => c.acquire else s

/-- The phase of a fence that a context waits in is over (R238, R255, R260). -/
def State.fenceOver (s : State) (g : Nat) (c : Ctx) (sc : Scope) (hio : Bool) : Bool :=
  match c.prog with
  | none => true
  | some p =>
    (match p.sweep with
     | none => s.released g p.seq sc
     | some l => l.isEmpty) && (!hio || s.hioDone p.hio)

/-- A context runs a block of a gateway launch (18 R336). -/
def State.onGateway (s : State) (g : Nat) (c : Ctx) : Bool :=
  match c.role with
  | .block l _ => (match aget? (s.partOf g).launches l with | some q => q.gw | none => false)
  | _ => false

/-- Cores of the partition of core g that run, or have run, gateway blocks (R255). -/
def State.gatewayCores (s : State) (g : Nat) : List Nat := (s.partOf g).gwCores

/-- A write of a gateway block of the partition is not performed yet (R255). [log 27, DEDUCED] -/
def State.gwPending (s : State) (g : Nat) : Bool :=
  (s.gatewayCores g).any fun k => (s.coreAt k).dirtyStash || (s.coreAt k).sb.any fun e => s.onGateway k ((s.coreAt k).ctxs[Fin.ofNat 16 e.ctx])

/-- The path steps of an XFENCE and its cross-die release are over (R255, R260). [log 27, DEDUCED] -/
def State.xReleased (s : State) (g : Nat) (p : Prog) (paths : BitVec 6) (sc : Scope) : Bool :=
  let core := paths.getLsbD 0
  let gw := paths.getLsbD 4
  let hio := paths.getLsbD 5
  let far := s.crossDie g sc && s.invals.any fun v => match v.src with
    | some k => k == g || p.cores.contains k || (gw && (s.gatewayCores g).contains k)
    | none => hio
  (!core || s.released g p.seq (atLeastQuad sc)) && (!gw || !s.gwPending g) && (!hio || s.hioDone p.hio) && !far

/-- The copy jobs of core g, the running one first (18 R329, R332). -/
def State.copyJobs (s : State) (g : Nat) : List CopyJob :=
  (match (s.clusterAt (g / 8)).copyRun with | some (n, j) => if n = g % 8 then [j] else [] | none => []) ++ (s.coreAt g).copyQ

/-- The matrix jobs of core g, the running one first (20 R353, R355). -/
def State.mxJobs (s : State) (g : Nat) : List MxJob :=
  (match (s.clusterAt (g / 8)).mxRun with | some (n, j) => if n = g % 8 then [j] else [] | none => []) ++ (s.coreAt g).mxQ

/-- A matrix job of core g claims a pad tile (20 R356). -/
def State.claimed (s : State) (g n : Nat) : Bool := (s.mxJobs g).any fun j => j.claims.contains n

/-- The flit of a list that a receive takes, and the others: the oldest, or the oldest of a sender (17 R317). -/
def takeFlit (src : Option Nat) : List Flit → Option (Flit × List Flit)
  | [] => none
  | m :: r =>
    if (match src with | some f => m.src == f | none => true) then some (m, r)
    else (takeFlit src r).map fun (v, q) => (v, m :: q)

/-- The flits of channel ch that are left for context x of core g by the receives that parked on the channel before it (R317). -/
def CoreSt.flitsFor (c : CoreSt) (g ch x : Nat) : List Flit :=
  (c.chanQ.takeWhile fun e => e != (g, x)).foldl (fun l e =>
    if e.1 = g then
      match (c.ctxs[Fin.ofNat 16 e.2]).st with
      | .parked (.flit k src) => if k = ch then (match takeFlit src l with | some (_, r) => r | none => l) else l
      | _ => l
    else l) (c.chans[Fin.ofNat 4 ch])

/-- The wait of a parked context is over, so that its instruction is issued again (R82). -/
def State.waitOver (s : State) (g : Nat) (x : Fin 16) (w : Wait) : Bool :=
  let c := s.coreAt g
  let k := c.ctxs[x]
  match w with
  | .agent => false
  | .full rs => rs.all k.isFull
  | .room => c.hasRoom x.val
  | .foreign va n => !c.foreign k.comp va n
  | .drained => !c.storesOf x.val
  | .lineDrained line => !c.sb.any fun e => e.ctx == x.val && (match e.src with | .stx => false | _ => true) && e.va / 64 == line
  | .tileReady n => (c.tiles[Fin.ofNat 24 n]).st == .ready || (c.tiles[Fin.ofNat 24 n]).stash.isSome
  | .tileIdle n => match (c.tiles[Fin.ofNat 24 n]).st with | .filling | .draining => false | _ => !s.claimed g n
  | .tileFor n fill => !(fill && s.claimed g n) && (match (c.tiles[Fin.ofNat 24 n]).st with
    | .empty => fill
    | .filling => fill
    | .draining => !fill
    | .ready => true)
  | .element p => !(k.ports[Fin.ofNat 4 p]).ahead.isEmpty
  | .page tok => !s.tokenOut tok
  | .aside => !k.gateAside
  | .fence sc hio => s.fenceOver g k sc hio
  | .xfence paths sc => match k.prog with | some p => s.xReleased g p paths sc | none => true
  | .pulled va => match s.walk (s.partNo g) va with | .absent => !s.migrates (s.partNo g) va | _ => true
  | .ports => decide ((s.clusterAt (g / 8)).pfaults.length < 64)
  | .scrub f => s.scrubRoom f
  | .storesOf y => !c.storesOf y
  | .flit ch src => (takeFlit src (c.flitsFor g ch x.val)).isSome
  | .copyRoom => decide ((s.copyJobs g).length < 8)
  | .copyDone id => !(s.copyJobs g).any fun j => j.id == id
  | .mxRoom => decide ((s.mxJobs g).length < 8)
  | .mxDone id => !(s.mxJobs g).any fun j => j.id == id

/-- An access that is to be issued again meets a page that is being pulled, or that is not present (R198, R290, R426). -/
def State.parkPage (s : State) (access va : Nat) : State :=
  if s.migrates (s.partNo s.core) va then s.parkCur .pnp (.pulled va)
  else
    let (tok, t) := s.pageFault s.core access s.ctx.val va s.cur.pc.toNat
    t.parkCur .pnp (match tok with | some k => .page k | none => .ports)

/-- An access meets a page that is not present: the executing context parks with the page's token and its instruction is issued
again after the answer; once the handler has given up, it takes EPNP (R198, R290). -/
def State.notPresent {α : Type} (s : State) (access va : Nat) : Act α :=
  if s.cur.giveUp = some (va / 65536) then raise .epnp va else .error (.held (s.parkPage access va))

/-- An access meets an uncorrectable error: no context of the partition issues any more (R291). -/
def State.lineBad {α : Type} (s : State) (pa : Nat) : Act α := .error (.held (s.uncorrectable (s.partNo s.core) pa s.core))

/-- The release part of an instruction that waits in place: it parks, with nothing else done, until the release is over
(R238, R250). -/
def State.awaitRelease (s : State) (park : Park) (sc : Scope) (hio : Bool := false) : Act Unit :=
  let p := s.cur.prog.getD (s.newProg s.core)
  if p.sweep.isSome || (s.released s.core p.seq sc && (!hio || s.hioDone p.hio)) then .ok ()
  else .error (.held ((s.modCur fun c => { c with prog := some p }).parkCur park (.fence sc hio)))

/-- The acquire part of an instruction that waits in place: the sweep first where the scope takes it, then the invalidations
(R238, R255, R260). -/
def State.awaitAcquire (s : State) (park : Park) (sc : Scope) : Act State :=
  let p := s.cur.prog.getD (s.newProg s.core)
  if s.crossDie s.core sc then
    match p.sweep with
    | none => .error (.held ((s.modCur fun c => { c with prog := some { p with sweep := some s.markers, hio := s.hioSeq } }).parkCur park (.fence sc (scopeHio sc))))
    | some l =>
      if l.isEmpty ∧ (!scopeHio sc || s.hioDone p.hio) then .ok (s.acquire s.core s.ctx sc)
      else .error (.held (s.parkCur park (.fence sc (scopeHio sc))))
  else .ok (s.acquire s.core s.ctx sc)

/-- Where the translation of an access stands when it leaves the pipeline: a held translation decides at once, another is walked
for (R198); a page given up raises EPNP (R290). -/
def State.startXl (s : State) (va : Nat) (need : Need) : Act Xl :=
  if s.cur.giveUp = some (va / 65536) then raise .epnp va
  else match s.held s.core va with
    | none => .ok .walk
    | some e => match s.grant s.core s.cur.comp va need e with
      | .ok pa _ => .ok (.ready pa)
      | _ => raise .eprot va

/-- Something done as context x of core g, the focus put back afterwards. -/
def State.asCtx {α : Type} (s : State) (g : Nat) (x : Fin 16) (f : State → α) : α := f (s.focus g x)

/-- The focus of another state. -/
def State.refocus (t s : State) : State := { t with core := s.core, ctx := s.ctx }

/-- Flags and the count that a value written from a unit brings with it (R83, R293). -/
def Ctx.unitWrite (c : Ctx) (flags : W) (sfu : Bool) : Ctx :=
  let c := { c with fpc := c.fpc ||| flags }
  if sfu then c.bump 6 1 else c

/-- The pending token of the executing context is written, with its flags and its count, before the context issues (R194, R236, R275,
R295). -/
def State.writeToken (s : State) : Act State :=
  match s.cur.token with
  | none => .ok s
  | some t => do
    let u ← (s.modCur fun c => c.unitWrite t.flags t.sfu).writeReg (Fin.ofNat 16 t.reg) t.val
    return u.modCur fun c => { c.tally.advance t.step with token := none, undo := {}, back := 0 }

/-- The pending token of context x of core g is written at once where that can be done (R275, R277, R283). -/
def State.settleToken (s : State) (g : Nat) (x : Fin 16) : State :=
  match (s.focus g x).writeToken with
  | .ok t => t.refocus s
  | .error (.fault c sub addr keep) =>
    (((s.focus g x).modCur fun k => { k with token := none }).takeFault g x c.code sub addr (.ofNat 64 (s.ctxAt g x).iword.toNat) keep).refocus s
  | .error _ => s

/-- A message for a saved core enters its inbox, which holds at most 256 (R277). -/
def State.toInbox (s : State) (t : Nat) (m : Msg) : State :=
  s.modCore t fun c => if c.inbox.contains m ∨ c.inbox.length ≥ 256 then c else { c with inbox := c.inbox ++ [m] }

/-- The TOKEN bytes of an image: register, flags, the bytes by which the pc moves on with the top bit for a special-function token, value
(R275). [log 44, DEDUCED] -/
def Ctx.tokenBytes (c : Ctx) : List Byte :=
  match c.token with
  | some t => toBytes 2 t.reg ++ toBytes 2 t.flags.toNat ++ toBytes 4 (t.step + (if t.sfu then 2 ^ 31 else 0)) ++ toBytes 8 t.val.toNat
  | none => List.replicate 16 0

/-- The STATE double of an image (R275). -/
def Ctx.stateWord (c : Ctx) : Nat :=
  let bit := fun (b : Bool) (i : Nat) => if b then 2 ^ i else 0
  c.full.toNat + 2 ^ 16 * ofBytes c.k.toList + 2 ^ 48 * c.park.code + bit c.pendWake 56 + bit c.token.isSome 57
    + bit c.gangOld.isSome 58 + bit (c.st == .stopped) 59

/-- A token that arrives for context x of a saved core g is kept in the context's image in the save area (R194, R275, R277). -/
def State.saveToken (s : State) (g : Nat) (x : Fin 16) : State :=
  match (s.coreAt g).away with
  | some area =>
    let c := s.ctxAt g x
    let a := area + 1024 * x.val
    (s.deviceBytes (s.partNo g) (a + 32) (toBytes 8 c.stateWord)).deviceBytes (s.partNo g) (a + 592) c.tokenBytes
  | none => s

/-- A result that cannot be written yet is kept as a pending token and written before the next issue: the core is saved or stopped for it,
or the push of it finds no room (R155, R194, R236, R275). -/
def Ctx.keepToken (c : Ctx) (d : Reg) (v flags : W) (sfu : Bool) : Ctx :=
  let st := match c.st with | .parked _ => .run | x => x
  { c with
    st := st, req := none, undo := { clamp := c.undo.clamp }, prog := none, step := 0,
    back := 0, token := some { reg := d.val, val := v, step := c.step, flags := flags, sfu := sfu } }

/-- A reply writes a register of context x of core g and its instruction completes. A push that finds no room, a core that is stopped
for a pre-emption or saved, and a request that is set aside keep the value as a pending token; the inbox of a saved core takes it in its
turn, and the reply waits while that is full (none). One whose push faults is the instruction's fault; that of a reaped context is discarded
(R155, R194, R236, R277, R283). -/
def State.reply (s : State) (g : Nat) (x : Fin 16) (d : Reg) (v : W) (flags : W := 0) (sfu : Bool := false) : Option State :=
  let c := s.coreAt g
  let kept := s.modCtx g x fun c => c.keepToken d v flags sfu
  if (s.ctxAt g x).reaping then some ((s.modCtx g x fun c => { c with req := none }).settleReap g x)
  else if (s.ctxAt g x).later then some kept
  else if c.away.isSome then (if c.inbox.length < 256 then some ((kept.saveToken g x).toInbox g (.token x.val)) else none)
  else if c.stopping.isSome then some kept
  else match ((s.modCtx g x fun c => c.unitWrite flags sfu).focus g x).writeReg d v with
  | .ok t => some ((t.modCtx g x Ctx.retire).refocus s)
  | .error (.fault c sub addr _) => some ((s.focus g x).failReq g x c sub addr |>.refocus s)
  | .error _ => some kept

/-- A wait of context x of core g ends with a result. -/
def State.endWait (s : State) (g : Nat) (x : Fin 16) (d : Reg) (v : W) : State := (s.reply g x d v).getD s

/-- The lead has nothing left to be written, and enters its handler; where something is left, it waits for that (R194, R283). -/
def State.enterFree (s : State) (g : Nat) : State :=
  let t := s.settleToken g 0
  if (t.coreAt g).tact || (t.coreAt g).down || (t.ctxAt g 0).token.isSome then t else t.enterAt g (t.ctxAt g 0).pc

/-- The lead enters its handler at a boundary: a pending token is written first, a SLEEP completes with 2, or with 0 when its limit has
passed, as does a TRWAIT; a special function or an atomic that has left the core is waited for. Any other parked instruction is treated as
at a pre-emption: one whose request has left the core is set aside, the others, and a GTWAIT, are abandoned (R194, R272, R275, R283, R308,
R413). -/
def State.enterHandler (s : State) (g : Nat) : State :=
  if !s.handlerDue g then s
  else
    let s := s.modCtx g 0 fun c => c.endLate s.cycle
    let c := s.ctxAt g 0
    match c.st, c.req with
    | .run, _ => s.enterFree g
    | .parked _, some (.sleep d) => (s.endWait g 0 d (if c.late s.cycle then 0 else 2)).enterFree g
    | .parked _, r =>
      if s.hasLeft g 0 && (match r with | some r => r.awaited | none => false) then s
      else if c.token.isSome then s.enterFree g
      else
        let t := if (match r with | some (.gateBack _ true ..) => true | _ => false) then s.modCtx g 0 fun c => c.abandon else s.keepAside g
        t.enterAt g (t.ctxAt g 0).pc
    | _, _ => s

/-- The outcome of a step of an agent: what it does, or nothing where it is not enabled (log 10, DESIGN CHOICE). -/
def event (s : State) (r : Option State) : Host.Outcome State Fault Refusal := .next (r.getD s)

end Sys2Proof.Machine
end

