-- ==== Sys2Proof/Machine/Reads.lean ====
section
/-! DEFINITION. Reads of global memory by a context: forwarded, from the data cache, from a stash tile, from the slices
(10 R200, R202, R209; 13 R257; 22 R382; 26 R431). -/

namespace Sys2Proof.Machine

/-- The leaf under which an address was translated; plain when the port holds it no longer. -/
def State.leafOf (s : State) (g va pa : Nat) : TlbEnt :=
  (s.held g va).getD
    { part := s.partNo g, vpage := va / 65536, big := false, pa := pa - va % 65536, r := true, w := true, x := true, unscr := false, leaf := 0 }

/-- How a read ends: the number with the state, a wait for something else, or an uncorrectable error. -/
inductive ReadEnd where
  | val (v : Nat) (s : State)
  | wait
  | bad
deriving DecidableEq, Repr

/-- A read of n bytes within one word by context x of core g at a translated address: forwarded bytes, the data cache, or a line
from the slices that fills the data cache (R200, R205). [log 124, DEDUCED] -/
def State.coreLoad (s : State) (g : Nat) (x : Fin 16) (va pa n : Nat) : ReadEnd :=
  let comp := (s.ctxAt g x).comp
  let asid := (s.partOf g).asid
  if (s.coreAt g).foreign comp va n then .wait
  else
    match (s.coreAt g).quick comp asid va n with
    | some v => .val v ((s.modCore g fun c => c.touch (va / 64) asid comp).noteRead g x va n)
    | none =>
      match s.lineFor g pa (s.leafOf g va pa) with
      | .words w t =>
        let t := t.fillCore g comp va pa w
        .val ((t.coreAt g).merge comp va (lineValue w (pa % 64) n) n) ((t.noteRead g x va n).modCtx g x fun c => c.bump 4 1)
      | .wait => .wait
      | .bad => .bad

/-- A read of several words, lowest address first, as one number. -/
def State.coreLoads (s : State) (g : Nat) (x : Fin 16) (va pa : Nat) : Nat → ReadEnd
  | 0 => .val 0 s
  | n + 1 =>
    match s.coreLoad g x va pa 8 with
    | .val v t =>
      match t.coreLoads g x (va + 8) (pa + 8) n with
      | .val r u => .val (v + 2 ^ 64 * r) u
      | e => e
    | e => e

/-- A read of n bytes within one word that the core serves by itself: a stash tile (some of a value, or a fill to wait for), or
forwarded and cached bytes (R200, R209). -/
inductive LocalRead where
  | val (v : Nat)
  | fill (t : Fin 24) (m : Stash)
  | foreign
  | miss
deriving DecidableEq, Repr

/-- What the core can serve of a global read (R200, R209, R431). -/
def State.localRead (s : State) (g comp va n : Nat) : LocalRead :=
  let c := s.coreAt g
  match c.stashAt comp va with
  | some (t, m) =>
    if m.valid.getLsbD ((va - m.va) / 8) then .val (Memory.load c.pad (1024 * t.val + (va - m.va)) n) else .fill t m
  | none =>
    if c.foreign comp va n then .foreign
    else match c.quick comp (s.partOf g).asid va n with
      | some v => .val v
      | none => .miss

/-- A buffered store of the core, other than a remote one, lies in a virtual line (R212, R218). -/
def CoreSt.storesLine (c : CoreSt) (line : Nat) : Bool :=
  c.sb.any fun e => (match e.src with | .stx => false | _ => true) && e.va / 64 == line

/-- The line's invalid words of a stash tile take the slice's values (R209). -/
def State.fillStash (s : State) (g : Nat) (t : Fin 24) (m : Stash) (line : Nat) (w : Vector W 8) : State :=
  s.modCore g fun c =>
    let pad := (List.finRange 8).foldl (fun p i =>
      if m.valid.getLsbD (8 * line + i.val) then p
      else Memory.store p (1024 * t.val + 64 * line + 8 * i.val) 8 (w[i]).toNat) c.pad
    { c with pad := pad }.setStash t { m with valid := m.valid ||| (0xFF#128 <<< (8 * line)) }

/-- The mapping of a stash tile as a fill uses it: one whose translation has been removed, or was not restored, is walked for again, in the
compartment that made it, and its W right kept anew (R209, R276, R420). [log 117, DESIGN CHOICE] -/
def State.freshMap (s : State) (g : Nat) (t : Fin 24) (m : Stash) : XEnd × State × Stash :=
  if !m.stale then (.ok m.pa (s.leafOf g m.va m.pa), s, m)
  else match s.translate g m.comp m.va { r := true } with
    | (.ok pa e, u) =>
      let k := { m with pa := pa, wright := e.w && !(u.tagOf pa).sealed, stale := false }
      (.ok pa e, u.modCore g (fun c => c.setStash t k), k)
    | (r, u) => (r, u, m)

/-- A line of a stash tile is filled for context x of core g, behind the core's buffered stores to it (R209, R218, R382). -/
def State.stashLine (s : State) (g : Nat) (x : Fin 16) (t : Fin 24) (m : Stash) (line : Nat) : Option State :=
  let va := m.va + 64 * line
  let pa := m.pa + 64 * line
  if (s.coreAt g).storesLine (va / 64) then none
  else match s.lineFor g pa (s.leafOf g va pa) with
    | .words w u =>
      some (((u.modCore g fun c => c.seenLine va (u.partOf g).asid pa w).fillStash g t m line w).noteRead g x va 64)
    | .wait => none
    | .bad => some (s.uncorrectable (s.partNo g) pa g)

end Sys2Proof.Machine
end

