-- ==== Sys2Proof/Machine/Atomics.lean ====
section
/-! DEFINITION. Atomics: the operations, local atomics, the request at the slice, the reply (12 R227 to R242). -/

namespace Sys2Proof.Machine

/-- The F32 sum of AFADD: to nearest even, subnormals honoured, whatever FPC holds (R232). -/
def afaddSum (a b : Nat) : Nat := ((⟨fmtOf .f32, 0, false⟩ : FEnv).add a b).1

/-- Op (R231) on w-bit values: the old value, the operand, and the new value of ACAS. -/
def atomicNew (op : AOp) (w old v n : Nat) : Nat :=
  let pick := fun (b : Bool) => if b then old else v
  match op with
  | .add => (old + v) % 2 ^ w
  | .and => old &&& v
  | .or => old ||| v
  | .xor => old ^^^ v
  | .swap => v
  | .cas => if old = v then n else old
  | .min => pick (decide (signedOf w old ≤ signedOf w v))
  | .max => pick (decide (signedOf w v ≤ signedOf w old))
  | .minn => pick (decide (old ≤ v))
  | .maxn => pick (decide (v ≤ old))
  | .fadd => afaddSum old v

/-- Width of an atomic (R228). -/
def atomicWidth (w64 : Bool) : Nat := if w64 then 64 else 32

/-- The old value as the destination receives it (R230). -/
def atomicBack (w64 sx : Bool) (old : W) : W := extend (atomicWidth w64) sx (lowBits (atomicWidth w64) old : Nat)

/-- The ordering has a release (R227). -/
def ordReleases : Ord → Bool
  | .rel | .ar => true
  | _ => false
/-- The ordering has an acquire (R227). -/
def ordAcquires : Ord → Bool
  | .acq | .ar => true
  | _ => false

/-- A local atomic: one action in the bank's order, then the acquire; a cross-die acquire is waited for with the old value held
(R234, R238, R260). [log 99, DESIGN CHOICE] -/
def State.localAtomic (s : State) (op : AOp) (w64 sx : Bool) (ord : Ord) (sc : Scope) (d : Reg) (v n a : Nat) : Act State := do
  let w := atomicWidth w64
  let old := Memory.load s.here.pad a (w / 8)
  let new := atomicNew op w old v n
  if new ≠ old then s.windowGuard a
  let t := if new ≠ old then s.padStore s.core a (w / 8) new else s
  let back := fun (u : State) => u.writeReg d (atomicBack w64 sx (.ofNat 64 old))
  if !(ordAcquires ord) then return (← back t).advance 4
  else if t.crossDie t.core sc then
    let u := t.hold .mem (.atomicBack d w64 sx (.ofNat 64 old) ord sc (some t.markers)) 4
    .error (.held (u.modCur fun c => { c with prog := some (u.newProg u.core) }))
  else return (← back (t.acquire t.core t.ctx sc)).advance 4

/-- An atomic (R230, R242): scope clamp, stream checks, segment checks, then the local action, or a request that waits for its
release. -/
def State.atomic (s : State) (op : AOp) (w64 sx : Bool) (ord : Ord) (scope : Scope) (d : Reg) (a : Src) (g : Reg) : Act State := do
  let (sc, s1) ← s.clamp scope
  let e : Reg := d + 1
  let t ← s1.readRegs (a :: plain d :: (if op = .cas then [plain e] else [])) (some d) true
  let w := atomicWidth w64
  let v := lowBits w (t.g d)
  let n := if op = .cas then lowBits w (t.g e) else 0
  let (loc, va) ← t.seg (segNo g) (t.g a.r) (w / 8) (w / 8) [.a, .w, .r]
  if loc then
    t.tileGate va
    if ordReleases ord then s.awaitRelease .mem sc
    t.localAtomic op w64 sx ord sc d v n va
  else
    faultIf (t.here.stashMap va).isSome .etile 2 va
    let u := t.modCur fun c => { c with prog := some (t.newProg t.core) }
    .error (.held (u.hold .mem (.atomicOut d op w64 sx (.ofNat 64 v) (.ofNat 64 n) va ord sc .walk) 4))

/-- AADD.N32 (R228, R231). -/
def execAaddN32 (o : Ord) (z : Scope) (d : Reg) (a : Src) (g : Reg) (s : State) : Host.Outcome State Fault Refusal :=
  finish s (s.atomic .add false false o z d a g)

/-- AADD.I32 (R228, R231). -/
def execAaddI32 (o : Ord) (z : Scope) (d : Reg) (a : Src) (g : Reg) (s : State) : Host.Outcome State Fault Refusal :=
  finish s (s.atomic .add false true o z d a g)

/-- AADD.64 (R228, R231). -/
def execAadd64 (o : Ord) (z : Scope) (d : Reg) (a : Src) (g : Reg) (s : State) : Host.Outcome State Fault Refusal :=
  finish s (s.atomic .add true false o z d a g)

/-- AAND.N32 (R228, R231). -/
def execAandN32 (o : Ord) (z : Scope) (d : Reg) (a : Src) (g : Reg) (s : State) : Host.Outcome State Fault Refusal :=
  finish s (s.atomic .and false false o z d a g)

/-- AAND.I32 (R228, R231). -/
def execAandI32 (o : Ord) (z : Scope) (d : Reg) (a : Src) (g : Reg) (s : State) : Host.Outcome State Fault Refusal :=
  finish s (s.atomic .and false true o z d a g)

/-- AAND.64 (R228, R231). -/
def execAand64 (o : Ord) (z : Scope) (d : Reg) (a : Src) (g : Reg) (s : State) : Host.Outcome State Fault Refusal :=
  finish s (s.atomic .and true false o z d a g)

/-- AOR.N32 (R228, R231). -/
def execAorN32 (o : Ord) (z : Scope) (d : Reg) (a : Src) (g : Reg) (s : State) : Host.Outcome State Fault Refusal :=
  finish s (s.atomic .or false false o z d a g)

/-- AOR.I32 (R228, R231). -/
def execAorI32 (o : Ord) (z : Scope) (d : Reg) (a : Src) (g : Reg) (s : State) : Host.Outcome State Fault Refusal :=
  finish s (s.atomic .or false true o z d a g)

/-- AOR.64 (R228, R231). -/
def execAor64 (o : Ord) (z : Scope) (d : Reg) (a : Src) (g : Reg) (s : State) : Host.Outcome State Fault Refusal :=
  finish s (s.atomic .or true false o z d a g)

/-- AXOR.N32 (R228, R231). -/
def execAxorN32 (o : Ord) (z : Scope) (d : Reg) (a : Src) (g : Reg) (s : State) : Host.Outcome State Fault Refusal :=
  finish s (s.atomic .xor false false o z d a g)

/-- AXOR.I32 (R228, R231). -/
def execAxorI32 (o : Ord) (z : Scope) (d : Reg) (a : Src) (g : Reg) (s : State) : Host.Outcome State Fault Refusal :=
  finish s (s.atomic .xor false true o z d a g)

/-- AXOR.64 (R228, R231). -/
def execAxor64 (o : Ord) (z : Scope) (d : Reg) (a : Src) (g : Reg) (s : State) : Host.Outcome State Fault Refusal :=
  finish s (s.atomic .xor true false o z d a g)

/-- ASWAP.N32 (R228, R231). -/
def execAswapN32 (o : Ord) (z : Scope) (d : Reg) (a : Src) (g : Reg) (s : State) : Host.Outcome State Fault Refusal :=
  finish s (s.atomic .swap false false o z d a g)

/-- ASWAP.I32 (R228, R231). -/
def execAswapI32 (o : Ord) (z : Scope) (d : Reg) (a : Src) (g : Reg) (s : State) : Host.Outcome State Fault Refusal :=
  finish s (s.atomic .swap false true o z d a g)

/-- ASWAP.64 (R228, R231). -/
def execAswap64 (o : Ord) (z : Scope) (d : Reg) (a : Src) (g : Reg) (s : State) : Host.Outcome State Fault Refusal :=
  finish s (s.atomic .swap true false o z d a g)

/-- ACAS.N32 (R228, R231). -/
def execAcasN32 (o : Ord) (z : Scope) (d : Reg) (a : Src) (g : Reg) (s : State) : Host.Outcome State Fault Refusal :=
  finish s (s.atomic .cas false false o z d a g)

/-- ACAS.I32 (R228, R231). -/
def execAcasI32 (o : Ord) (z : Scope) (d : Reg) (a : Src) (g : Reg) (s : State) : Host.Outcome State Fault Refusal :=
  finish s (s.atomic .cas false true o z d a g)

/-- ACAS.64 (R228, R231). -/
def execAcas64 (o : Ord) (z : Scope) (d : Reg) (a : Src) (g : Reg) (s : State) : Host.Outcome State Fault Refusal :=
  finish s (s.atomic .cas true false o z d a g)

/-- AMIN; t selects 64 bits (R228, R231). -/
def execAmin (o : Ord) (z : Scope) (t : Bool) (d : Reg) (a : Src) (g : Reg) (s : State) : Host.Outcome State Fault Refusal :=
  finish s (s.atomic .min t true o z d a g)

/-- AMAX; t selects 64 bits (R228, R231). -/
def execAmax (o : Ord) (z : Scope) (t : Bool) (d : Reg) (a : Src) (g : Reg) (s : State) : Host.Outcome State Fault Refusal :=
  finish s (s.atomic .max t true o z d a g)

/-- AMINN; t selects 64 bits (R228, R231). -/
def execAminn (o : Ord) (z : Scope) (t : Bool) (d : Reg) (a : Src) (g : Reg) (s : State) : Host.Outcome State Fault Refusal :=
  finish s (s.atomic .minn t false o z d a g)

/-- AMAXN; t selects 64 bits (R228, R231). -/
def execAmaxn (o : Ord) (z : Scope) (t : Bool) (d : Reg) (a : Src) (g : Reg) (s : State) : Host.Outcome State Fault Refusal :=
  finish s (s.atomic .maxn t false o z d a g)

/-- AFADD.F32 (R228, R232). -/
def execAfadd (o : Ord) (z : Scope) (d : Reg) (a : Src) (g : Reg) (s : State) : Host.Outcome State Fault Refusal :=
  finish s (s.atomic .fadd false false o z d a g)

/-- The atomic of context x of core g is performed at its word's slice: one read, one computation, one write if the value changes; the
word passes back through the die's far copy to the core (R230, R231, R233, R239, R243, R257). [log 16, DEDUCED] -/
def State.atSlice (s : State) (g : Nat) (x : Fin 16) (d : Reg) (op : AOp) (w64 sx : Bool) (v n : W) (va pa : Nat) (ord : Ord)
    (sc : Scope) : Option State :=
  let w := atomicWidth w64
  let p := s.partNo g
  let e := s.leafOf g va pa
  match s.readyScrub p e with
  | none => none
  | some t =>
    match t.readHome p (pa / 64) e.unscr with
    | none => some (t.uncorrectable p pa g)
    | some (line, u) =>
      let old := lineValue line (pa % 64) (w / 8)
      let new := atomicNew op w old (lowBits w v) (lowBits w n)
      let word := line.get (Fin.ofNat 8 (pa / 8))
      let u := if new ≠ old then (u.land p pa (w / 8) new (some g) (some g) (some (dieOf g)) (s.ctxAt g x).writer).ackCore g va pa
               else (u.passBack (dieOf g) (pa / 8) word).modCore g fun c => c.seen va (s.partOf g).asid pa word
      let u := u.noteRead g x va (w / 8)
      let sweep := if ordAcquires ord && u.crossDie g sc then some u.markers else none
      some (u.modCtx g x fun c =>
        { c with req := some (.atomicBack d w64 sx (.ofNat 64 old) ord sc sweep), prog := some (u.newProg g) })

/-- A request of a context that is being reaped has been performed: its result is discarded (R236, R413). -/
def State.reaped (s : State) (g : Nat) (x : Fin 16) : State :=
  if (s.ctxAt g x).reaping then (s.modCtx g x fun c => { c with req := none }).settleReap g x else s

/-- ATOMIC_AT_SLICE: the request of context x of core g leaves the core and is performed (R230, R236). [log 16, DEDUCED] -/
def execAtomicAtSlice (s : State) : Host.Outcome State Fault Refusal :=
  let g := s.ev.g
  let x := ctxNo s.ev.x
  event s (s.serve g x Req.isAtomic fun s => match (s.ctxAt g x).req with
    | some (.atomicOut d op w64 sx v n va ord sc (.ready pa)) =>
      if s.mayLeave g x ord sc va then (s.atSlice g x d op w64 sx v n va pa ord sc).map fun t => t.reaped g x else none
    | _ => none)

/-- ATOMIC_REPLY: the old value returns to context x of core g; the acquire actions are complete before it goes on (R230, R235,
R238, R260). -/
def execAtomicReply (s : State) : Host.Outcome State Fault Refusal :=
  let g := s.ev.g
  let x := ctxNo s.ev.x
  event s (s.serve g x Req.isAtomic fun s => match (s.ctxAt g x).req with
    | some (.atomicBack d w64 sx old ord sc sweep) =>
      let hio := match (s.ctxAt g x).prog with | some p => !(scopeHio sc) || s.hioDone p.hio | none => true
      let swept := match sweep with | some l => l.isEmpty | none => true
      if !(ordAcquires ord) then s.reply g x d (atomicBack w64 sx old)
      else if swept && hio then (s.acquire g x sc).reply g x d (atomicBack w64 sx old)
      else none
    | _ => none)

/-- A write of core g to a physical word is on its way: a settled buffered store, or an atomic that will change the word (R233, R239). -/
def State.writesWord (s : State) (g word : Nat) : Bool :=
  let c := s.coreAt g
  c.sb.any (fun e => match e.src, e.xl with | .stx, _ => false | _, .ready pa => pa / 8 == word | _, _ => false)
    || c.ctxs.any fun k => match k.served Req.isAtomic with
      | some (.atomicOut _ op w64 _ v n _ _ _ (.ready pa)) =>
        let w := atomicWidth w64
        let old := s.homeLoad pa (w / 8)
        pa / 8 == word && atomicNew op w old (lowBits w v) (lowBits w n) != old
      | _ => false

/-- REVOKE: before a write of core g to physical word v is performed, the revoke reaches the word's owner and clears the owned mark
of its copy (R239). -/
def execRevoke (s : State) : Host.Outcome State Fault Refusal :=
  match aget? s.owners s.ev.v with
  | some q =>
    if q ≠ s.ev.g ∧ s.writesWord s.ev.g s.ev.v then event s (some (s.setOwner s.ev.v none)) else event s none
  | none => event s none

end Sys2Proof.Machine
end

