-- ==== Sys2Proof/Machine/Control.lean ====
section
/-! DEFINITION. Control flow: branches, jumps, calls and the return stack, EXIT, masks, gangs (06 R124 to R143; 03 R90). -/

namespace Sys2Proof.Machine

/-! ### Branches and jumps -/

/-- A conditional branch: operands read, then the target or the next instruction (R126). -/
def State.branch (s : State) (srcs : List Src) (taken : State → Bool) (disp : Int) (len : Nat) : Act State := do
  let t ← s.readRegs srcs none
  return if taken t then t.goto (t.cur.pc + .ofInt 64 (2 * disp)) else t.goto (t.cur.pc + .ofNat 64 len) false

/-- BEQ (R126). -/
def execBeq (a b : Src) (p : BitVec 11) (s : State) : Host.Outcome State Fault Refusal :=
  finish s (s.branch [a, b] (fun r => r.g a.r == r.g b.r) p.toInt 4)

/-- BNE (R126). -/
def execBne (a b : Src) (p : BitVec 11) (s : State) : Host.Outcome State Fault Refusal :=
  finish s (s.branch [a, b] (fun r => r.g a.r != r.g b.r) p.toInt 4)

/-- BLT (R126). -/
def execBlt (a b : Src) (p : BitVec 11) (s : State) : Host.Outcome State Fault Refusal :=
  finish s (s.branch [a, b] (fun r => (r.g a.r).slt (r.g b.r)) p.toInt 4)

/-- BGE (R126). -/
def execBge (a b : Src) (p : BitVec 11) (s : State) : Host.Outcome State Fault Refusal :=
  finish s (s.branch [a, b] (fun r => !(r.g a.r).slt (r.g b.r)) p.toInt 4)

/-- BLTN (R126). -/
def execBltn (a b : Src) (p : BitVec 11) (s : State) : Host.Outcome State Fault Refusal :=
  finish s (s.branch [a, b] (fun r => (r.g a.r).ult (r.g b.r)) p.toInt 4)

/-- BGEN (R126). -/
def execBgen (a b : Src) (p : BitVec 11) (s : State) : Host.Outcome State Fault Refusal :=
  finish s (s.branch [a, b] (fun r => !(r.g a.r).ult (r.g b.r)) p.toInt 4)

/-- BZ (R126). -/
def execBz (a : Src) (p : BitVec 11) (s : State) : Host.Outcome State Fault Refusal :=
  finish s (s.branch [a] (fun r => r.g a.r == 0) p.toInt 4)

/-- BNZ (R126). -/
def execBnz (a : Src) (p : BitVec 11) (s : State) : Host.Outcome State Fault Refusal :=
  finish s (s.branch [a] (fun r => r.g a.r != 0) p.toInt 4)

/-- BANY (R126). -/
def execBany (a : Reg) (p : BitVec 11) (s : State) : Host.Outcome State Fault Refusal :=
  finish s (s.branch [] (fun r => r.cur.mask a != 0) p.toInt 4)

/-- BALL (R126). -/
def execBall (a : Reg) (p : BitVec 11) (s : State) : Host.Outcome State Fault Refusal :=
  finish s (s.branch [] (fun r => r.cur.mask a == 0xFF) p.toInt 4)

/-- BZ of 16 bits (R90). -/
def execBz16 (d : Reg) (p : BitVec 7) (s : State) : Host.Outcome State Fault Refusal :=
  finish s (s.branch [plain d] (fun r => r.g d == 0) p.toInt 2)

/-- BNZ of 16 bits (R90). -/
def execBnz16 (d : Reg) (p : BitVec 7) (s : State) : Host.Outcome State Fault Refusal :=
  finish s (s.branch [plain d] (fun r => r.g d != 0) p.toInt 2)

/-- JMP (R128). -/
def execJmp (p : BitVec 25) (s : State) : Host.Outcome State Fault Refusal :=
  finish s (.ok (s.goto (s.cur.pc + .ofInt 64 (2 * p.toInt))))

/-- JMPR: an odd target raises EALIGN (R129). -/
def execJmpr (a : Src) (s : State) : Host.Outcome State Fault Refusal :=
  finish s do
    let t ← s.readRegs [a] none
    faultIf ((t.g a.r).getLsbD 0) .ealign 0 (t.g a.r).toNat
    return t.goto (t.g a.r)

/-- NOP (R129). -/
def execNop (s : State) : Host.Outcome State Fault Refusal := finish s (.ok (s.advance 4))

/-! ### The return stack -/

/-- The hardware part of Push: the value placed on top; a full stack gives up its oldest entry (R132). -/
def Ctx.pushRet (c : Ctx) (v : W) : Ctx :=
  if c.rstk.length < 8 then { c with rstk := v :: c.rstk } else { c with rstk := v :: c.rstk.take 7, sc := c.sc + 1 }

/-- Push and the transfer: a full stack spills its oldest entry through sg7, and the context parks until the spill's checks and its
translation are settled; where sg7 names the scratchpad or a stash tile nothing is translated (R132, R134). -/
def State.callTo (s : State) (ret target : W) (len : Nat) : Act State :=
  if s.cur.rstk.length < 8 then .ok ((s.modCur fun c => c.pushRet ret).goto target)
  else do
    let (loc, a) ← s.seg 7 (.ofNat 64 (8 * s.cur.sc)) 8 8 [.w]
    if loc || (s.here.stashMap a).isSome then
      let _ ← s.store loc a 8 (s.cur.rstk.getLastD 0) .spill
      .error (.held (s.hold .mem (.spill ret target a .here) len))
    else if !s.here.hasRoom s.ctx.val then .error (.park .store .room)
    else
      let xl ← s.startXl a { w := true }
      .error (.held (s.hold .mem (.spill ret target a xl) len))

/-- CALL (R128, R132). -/
def execCall (p : BitVec 25) (s : State) : Host.Outcome State Fault Refusal :=
  finish s (s.callTo (s.cur.pc + 4) (s.cur.pc + .ofInt 64 (2 * p.toInt)) 4)

/-- CALLR (R129, R132). -/
def execCallr (a : Src) (s : State) : Host.Outcome State Fault Refusal :=
  finish s do
    let t ← s.readRegs [a] none
    faultIf ((t.g a.r).getLsbD 0) .ealign 0 (t.g a.r).toNat
    t.callTo (t.cur.pc + 4) (t.g a.r) 4

/-- The end of the issuing context: its stores first, then memberships, handles, streams, return stack, the report; the lead does
not end (R136). -/
def State.leave (s : State) : Act State := do
  faultIf (s.ctx = 0) .ectx
  if s.here.storesOf s.ctx.val then .error (.park .drain .drained)
  else
    let (t, w) := s.endCtx s.core s.ctx false
    return t.wakeRecouple 1024 w

/-- EXIT (R136). -/
def execExit (s : State) : Host.Outcome State Fault Refusal := finish s s.leave

/-- EXIT of 16 bits (R90). -/
def execExit16 (s : State) : Host.Outcome State Fault Refusal := finish s s.leave

/-- Pop and the transfer: a hardware entry, a spilled entry through sg7, for which the context parks, or the end of the context
(R133, R134). [log 91, DESIGN CHOICE] -/
def State.returnFrom (s : State) (len : Nat) : Act State :=
  match s.cur.rstk with
  | v :: r => .ok ((s.modCur fun c => { c with rstk := r }).goto (evenPc v))
  | [] =>
    if s.cur.sc = 0 then s.leave
    else do
      let (loc, a) ← s.seg 7 (.ofNat 64 (8 * (s.cur.sc - 1))) 8 8 [.r]
      if loc then
        s.tileGate a
        .error (.held (s.hold .mem (.fill a .here) len))
      else match s.here.stashAt s.cur.comp a with
        | some (t, m) =>
          if m.valid.getLsbD ((a - m.va) / 8) then .error (.held (s.hold .mem (.fill a .here) len)) else s.stashMiss t m a
        | none =>
          let xl ← s.startXl a { r := true }
          .error (.held (s.hold .mem (.fill a xl) len))

/-- RET (R133). -/
def execRet (s : State) : Host.Outcome State Fault Refusal := finish s (s.returnFrom 4)

/-- RET of 16 bits (R90). -/
def execRet16 (s : State) : Host.Outcome State Fault Refusal := finish s (s.returnFrom 2)

/-! ### Masks (R137) -/

/-- A mask operation: the mask written, the pc moved on (R137). -/
def State.maskOp (s : State) (d : Reg) (v : BitVec 8) : Act State := .ok ((s.modCur fun c => c.setMask d v).advance 4)

/-- KAND (R137). -/
def execKand (d a b : Reg) (s : State) : Host.Outcome State Fault Refusal := finish s (s.maskOp d (s.cur.mask a &&& s.cur.mask b))

/-- KOR (R137). -/
def execKor (d a b : Reg) (s : State) : Host.Outcome State Fault Refusal := finish s (s.maskOp d (s.cur.mask a ||| s.cur.mask b))

/-- KXOR (R137). -/
def execKxor (d a b : Reg) (s : State) : Host.Outcome State Fault Refusal := finish s (s.maskOp d (s.cur.mask a ^^^ s.cur.mask b))

/-- KNOT (R137). -/
def execKnot (d a : Reg) (s : State) : Host.Outcome State Fault Refusal := finish s (s.maskOp d (~~~s.cur.mask a))

/-- KMOV between masks (R137). -/
def execKmov (d a : Reg) (s : State) : Host.Outcome State Fault Refusal := finish s (s.maskOp d (s.cur.mask a))

/-- KMOV from a general register: its low byte (R137). -/
def execKmovFromG (d : Reg) (a : Src) (s : State) : Host.Outcome State Fault Refusal :=
  finish s do
    let t ← s.readRegs [a] none
    t.maskOp d (.ofNat 8 (t.g a.r).toNat)

/-- KMOV to a general register, zero-extended (R137). -/
def execKmovToG (d a : Reg) (s : State) : Host.Outcome State Fault Refusal :=
  finish s (s.compute [] d 4 fun r => .ofNat 64 (r.cur.mask a).toNat)

/-! ### Gangs (R138 to R142) -/

/-- COUPLE arrives to form or join a gang (R139). -/
def execCouple (d : Reg) (a : Src) (s : State) : Host.Outcome State Fault Refusal :=
  finish s do
    let t ← s.readRegs [a] (some d)
    let n := (t.g a.r).toNat
    faultIf (!([2, 4, 8, 16, 32, 64].contains n)) .ectx
    faultIf (t.cur.gang.isSome || t.ctx == 0) .ectx
    let p := t.coreIndex t.core
    let first := p - p % n
    faultIf (first + n > t.coreCount t.core) .ectx
    faultIf (dieOf (t.coreNo t.core first) ≠ dieOf (t.coreNo t.core (first + n - 1))) .ectx
    .error (.held (t.hold .gang (.gang d false first n) 4))

/-- RECOUPLE arrives to rejoin the remembered gang (R142). -/
def execRecouple (d : Reg) (s : State) : Host.Outcome State Fault Refusal :=
  finish s do
    let t ← s.readRegs [] (some d)
    faultIf t.cur.gang.isSome .ectx
    match t.cur.gangOld with
    | none => raise .ectx
    | some (first, n) =>
      faultIf t.cur.gangLost .ectx
      .error (.held (t.hold .gang (.gang d true first n) 4))

/-- DECOUPLE: all members part at pc + 4; in a context that is not coupled it only moves the pc on (R141). [log 96, DESIGN CHOICE] -/
def execDecouple (s : State) : Host.Outcome State Fault Refusal := finish s (.ok ((s.partGang s.core s.ctx).advance 4))

/-- The register, the gang and whether the arrival is there, of a context that waits at COUPLE or RECOUPLE. -/
def Ctx.arrival (c : Ctx) : Option (Reg × Nat × Nat × Bool) :=
  match c.req with
  | some (.gang d _ first n here) => some (d, first, n, here)
  | _ => none

/-- A member enters the gang: its rank is written, GANG ← 1, the gang is remembered (R139). A rank for a bound register is
pushed; where it cannot be, the member takes the fault and does not enter. -/
def State.joinGang (s : State) (m : Nat) (x : Fin 16) (first n rank : Nat) (d : Reg) : State :=
  let t := s.endWait m x d (.ofNat 64 rank)
  match (t.ctxAt m x).st with
  | .run => t.modCtx m x fun c =>
      { c with gang := some (first, n), gangOld := some (first, n), gangLost := false, gword := none, gout := none }
  | _ => t

/-- A member of a gang that has just formed has faulted: the gang parts, and the others go on alone (R141). -/
def State.settleGang (s : State) (g : Nat) (x : Fin 16) (first n : Nat) : State :=
  let ms := s.members g first n
  if ms.all fun m => (s.ctxAt m x).gang == some (first, n) then s
  else match ms.find? fun m => (s.ctxAt m x).gang == some (first, n) with
    | some m => s.partGang m x
    | none => s

/-- The launch for which context x of core g runs: that of its block, or that of its core (R88, R142). -/
def State.launchFor (s : State) (g : Nat) (x : Fin 16) : Option Nat :=
  match (s.ctxAt g x).role with
  | .block l _ => some l
  | _ => (s.coreAt g).launch

/-- GANG_ARRIVAL: the arrival of context x of core g reaches the leader's core. The first one fixes the key (n, pc); one with
another key, or of another launch, takes ECTX; the last one forms the gang (R139, R142). [log 120, DESIGN CHOICE] -/
def execGangArrival (s : State) : Host.Outcome State Fault Refusal :=
  let g := s.ev.g
  let x := ctxNo s.ev.x
  let c := s.ctxAt g x
  match c.st, c.req with
  | .parked _, some (.gang d re first n false) =>
    let lead := s.coreNo g first
    let there := (List.range 64).filter fun i => match (s.ctxAt (lead + i) x).arrival with
      | some (_, f, _, true) => s.coreNo (lead + i) f == lead
      | _ => false
    let other := there.any fun i =>
      let k := s.ctxAt (lead + i) x
      k.pc != c.pc || s.launchFor (lead + i) x != s.launchFor g x || (match k.arrival with | some (_, _, m, _) => m != n | none => true)
    if other then event s (some (s.failReq g x .ectx 0 0))
    else
      let s := s.modCtx g x fun k => { k with req := some (.gang d re first n true) }
      let ms := s.members g first n
      if ms.all fun m => match (s.ctxAt m x).arrival with | some (_, f, k, true) => f == first && k == n | _ => false then
        event s (some (((List.range n).foldl (fun s i =>
          match (s.ctxAt (lead + i) x).arrival with
          | some (d, _) => s.joinGang (lead + i) x first n i d
          | none => s) s).settleGang g x first n))
      else event s (some s)
  | _, _ => event s none

end Sys2Proof.Machine
end

