-- ==== Sys2Proof/Machine/Stream.lean ====
section
/-! DEFINITION. Stream control and the arrival of elements (07 R150 to R161). -/

namespace Sys2Proof.Machine

/-- A valid descriptor (R151, R154). -/
def streamDescOk (d : Nat) : Bool :=
  let sz := natBits d 160 3
  natBits d 64 16 != 0 && natBits d 80 16 != 0 && sz != 7 && !(natBit d 163 && sz ≥ 4) && !natBit d 167 && natBits d 168 88 == 0

/-- A port configured from a descriptor: position (0, 0), REMAIN = CNT0 × CNT1 (R154). -/
def configured (d : Nat) : Port := { cfg := true, desc := d, remain := natBits d 64 16 * natBits d 80 16 }

/-- The executing context with a port changed. -/
def State.setPort (s : State) (p : Fin 4) (v : Port) : State := s.modCur fun c => { c with ports := c.ports.set p v }

/-- SCFG (R154). -/
def execScfg (g : Fin 8) (a : Src) (p : Reg) (s : State) : Host.Outcome State Fault Refusal :=
  finish s do
    let t ← s.readRegs [a] none
    let k : Fin 4 := Fin.ofNat 4 p.val
    faultIf (t.cur.ports[k]).bound .estream 1
    let (loc, va) ← t.seg g (t.g a.r) 32 32 [.r]
    if loc then
      s.tileGate va
      let d := Memory.load t.here.pad va 32
      faultIf (!streamDescOk d) .estream 3
      return (t.setPort k (configured d)).advance 4
    else match t.here.stashAt t.cur.comp va with
      | some (tile, m) =>
        match (List.range 4).find? fun i => !m.valid.getLsbD ((va - m.va) / 8 + i) with
        | some _ => t.stashMiss tile m va
        | none =>
          let d := Memory.load t.here.pad (1024 * tile.val + (va - m.va)) 32
          faultIf (!streamDescOk d) .estream 3
          return ((t.noteRead t.core t.ctx va 32).setPort k (configured d)).advance 4
      | none =>
        let xl ← t.startXl va { r := true }
        .error (.held (t.hold .mem (.desc k.val va xl) 4))

/-- SBIND (R154). -/
def execSbind (p : Reg) (s : State) : Host.Outcome State Fault Refusal :=
  finish s do
    let k : Fin 4 := Fin.ofNat 4 p.val
    let q := s.cur.ports[k]
    faultIf q.bound .estream 1
    faultIf (!q.cfg) .estream 2
    return (s.setPort k { q with bound := true, ahead := [], gone := none, page := none }).advance 4

/-- SSTOP: the position is kept, the elements fetched ahead are discarded, the register's full bit is 1 (R154). -/
def execSstop (p : Reg) (s : State) : Host.Outcome State Fault Refusal :=
  finish s do
    let k : Fin 4 := Fin.ofNat 4 p.val
    let q := s.cur.ports[k]
    if q.bound then
      let t := s.setPort k { q with bound := false, ahead := [], gone := none, page := none }
      return (t.modCur fun c => { c with full := c.full ||| (1#16 <<< (8 + k.val)) }).advance 4
    else return s.advance 4

/-- SCNT (R154). -/
def execScnt (d p : Reg) (s : State) : Host.Outcome State Fault Refusal :=
  finish s (s.compute [] d 4 fun r => .ofNat 64 (r.cur.ports[Fin.ofNat 4 p.val]).remain)

/-- The element after n further ones (R152). -/
def Port.skip (p : Port) : Nat → Nat × Nat → Nat × Nat
  | 0, i => i
  | n + 1, i => p.skip n (p.next i)

/-- An element fetched, as SZ extends it (R63, R152). -/
def streamExtend (z n : Nat) : W := extend (8 * szBytes z) (z ≥ 4) n

/-- The element fetched next by port k of the executing context joins the elements ahead (R155). -/
def State.addAhead (s : State) (k : Fin 4) (e : Elem) : State :=
  s.modCur fun c => { c with ports := c.ports.set k { (c.ports[k]) with ahead := (c.ports[k]).ahead ++ [e], gone := none, page := none } }

/-- The translation of the element that port k fetches next has ended without an address: an element that cannot be popped, or, where the
page is not present, a wait for the answer to its token, once the handler has not given up on it (R155, R290, R426). -/
def State.fetchFails (s : State) (k : Fin 4) (va : Nat) (r : XEnd) : Option State :=
  let q := s.cur.ports[k]
  match r with
  | .ok .. => none
  | .prot => some (s.addAhead k (.bad .eprot))
  | .bad pa => some (s.uncorrectable (s.partNo s.core) pa s.core)
  | .absent =>
    if q.gone = some (va / 65536) then some (s.addAhead k (.bad .epnp))
    else if s.migrates (s.partNo s.core) va then none
    else
      let (tok, t) := s.pageFault s.core 5 s.ctx.val va s.cur.pc.toNat
      some (t.modCur fun c => { c with ports := c.ports.set k { q with page := tok } })

/-- The fetch of the next element of a bound read stream: its segment checks, then the store buffer, the data cache or memory; an invalid
word of a stash tile is filled first, and a page that is not present leaves the element pending with a ring record (R155, R157, R209,
R382). -/
def State.fetchElement (s : State) (k : Fin 4) : Option State :=
  let q := s.cur.ports[k]
  if !q.bound || q.writes || q.ahead.length ≥ 8 || q.ahead.length ≥ q.remain then none
  else
    let n := szBytes q.sz
    let i := q.skip q.ahead.length (q.i0, q.i1)
    match s.seg q.sg (q.offset i.1 i.2) n n [.r] with
    | .error (.fault c ..) => some (s.addAhead k (.bad c))
    | .error _ => none
    | .ok (true, a) =>
      match s.tileGate a with
      | .ok () => some (s.addAhead k (.val (streamExtend q.sz (Memory.load s.here.pad a n))))
      | .error (.fault c ..) => some (s.addAhead k (.bad c))
      | .error _ => none
    | .ok (false, va) =>
      match s.localRead s.core s.cur.comp va n with
      | .val v => some ((s.noteRead s.core s.ctx va n).addAhead k (.val (streamExtend q.sz v)))
      | .fill t m => match s.freshMap s.core t m with
        | (.ok .., u, m) => u.stashLine u.core u.ctx t m ((va - m.va) / 64)
        | (r, u, _) => u.fetchFails k va r
      | .foreign => none
      | .miss =>
        match s.translate s.core s.cur.comp va { r := true } with
        | (.ok pa _, t) =>
          match t.coreLoad t.core t.ctx va pa n with
          | .val v u => some (u.addAhead k (.val (streamExtend q.sz v)))
          | .wait => none
          | .bad => some (t.uncorrectable (t.partNo t.core) pa t.core)
        | (r, t) => t.fetchFails k va r

/-- STREAM_ELEMENT_ARRIVAL: the next element of port n of context x of core g arrives; a pop parked on it is issued again
(R155). -/
def execStreamElementArrival (s : State) : Host.Outcome State Fault Refusal :=
  match (s.ctxAt s.ev.g (ctxNo s.ev.x)).st, (s.coreAt s.ev.g).away with
  | .free, _ | _, some _ => event s none
  | _, none => event s ((s.asCtx s.ev.g (ctxNo s.ev.x) fun t => t.fetchElement (Fin.ofNat 4 s.ev.n)).map (·.refocus s))

end Sys2Proof.Machine
end

