-- ==== Sys2Proof/Machine/Loads.lean ====
section
/-! DEFINITION. Loads, stores, remote accesses, stash mode, write-back, DISCARD, DRAIN, and the steps that end them
(10 R196 to R219; 03 R90). -/

namespace Sys2Proof.Machine

/-! ### LD, ST, LDRO, PREF -/

/-- The executing context's read of n bytes has been served by the core: recency and read set (R205, R382). -/
def State.served (s : State) (va n : Nat) : State :=
  (s.modHere fun c => c.touch (va / 64) s.curPart.asid s.cur.comp).noteRead s.core s.ctx va n

/-- LD at a segment offset (R200). -/
def State.loadOp (s : State) (srcs : List Src) (z : LSz) (d : Reg) (sg : Fin 8) (off : State → W) (len : Nat) : Act State := do
  let t ← s.readRegs srcs (some d)
  let n := lszBytes z
  let (loc, a) ← t.seg sg (off t) n n [.r]
  if loc then
    t.tileGate a
    let u ← t.writeReg d (lszExtend z (Memory.load t.here.pad a n))
    return u.advance len
  else
    match t.localRead t.core t.cur.comp a n with
    | .val v =>
      let u ← (t.served a n).writeReg d (lszExtend z v)
      return u.advance len
    | .fill tile m => t.stashMiss tile m a
    | .foreign => .error (.park .store (.foreign a n))
    | .miss =>
      let xl ← t.startXl a { r := true }
      .error (.held (t.hold .mem (.load d z a xl) len))

/-- ST at a segment offset (R200). -/
def State.storeOp (s : State) (srcs : List Src) (n : Nat) (d : Reg) (sg : Fin 8) (off : State → W) (len : Nat) : Act State := do
  let t ← s.readRegs (srcs ++ [plain d]) none
  let (loc, a) ← t.seg sg (off t) n n [.w]
  let u ← t.store loc a n (t.g d) .st
  return u.advance len

/-- LD (R199, R200). -/
def execLd (z : LSz) (d : Reg) (o : MOff) (s : State) : Host.Outcome State Fault Refusal :=
  finish s (s.loadOp (moffSrcs o) z d o.sg (fun t => moffOffset o t (lszBytes z)) 4)

/-- ST (R199, R200). -/
def execSt (z : SSz) (d : Reg) (o : MOff) (s : State) : Host.Outcome State Fault Refusal :=
  finish s (s.storeOp (moffSrcs o) (sszBytes z) d o.sg (fun t => moffOffset o t (sszBytes z)) 4)

/-- LD.I64 of 16 bits (R90). -/
def execLdI6416 (d a : Reg) (g : Fin 8) (s : State) : Host.Outcome State Fault Refusal :=
  finish s (s.loadOp [plain a] .n64 d g (fun t => t.g a) 2)

/-- ST.I64 of 16 bits (R90). -/
def execStI6416 (d a : Reg) (g : Fin 8) (s : State) : Host.Outcome State Fault Refusal :=
  finish s (s.storeOp [plain a] 8 d g (fun t => t.g a) 2)

/-- LD.N32 of 16 bits (R90). -/
def execLdN3216 (d a : Reg) (g : Fin 8) (s : State) : Host.Outcome State Fault Refusal :=
  finish s (s.loadOp [plain a] .n32 d g (fun t => t.g a) 2)

/-- ST.N32 of 16 bits (R90). -/
def execStN3216 (d a : Reg) (g : Fin 8) (s : State) : Host.Outcome State Fault Refusal :=
  finish s (s.storeOp [plain a] 4 d g (fun t => t.g a) 2)

/-- LDRO: always parks for its reply on the read-only path (R202, R206). -/
def execLdro (z : LSz) (d : Reg) (o : MOff) (s : State) : Host.Outcome State Fault Refusal :=
  finish s do
    let t ← s.readRegs (moffSrcs o) (some d)
    let n := lszBytes z
    let (loc, a) ← t.seg o.sg (moffOffset o t n) n n [.r]
    faultIf loc .eseg 0 a
    let xl ← t.startXl a { r := true }
    .error (.held (t.hold .mem (.ldro d z a xl) 4))

/-- The line of a prefetch read at the slices and put into the data cache (R206). -/
def State.prefill (s : State) (va pa : Nat) (e : TlbEnt) : State :=
  match s.lineFor s.core pa e with
  | .words w u => u.fillCore u.core u.cur.comp va pa w
  | _ => s

/-- The line of a prefetch is filled when every check passes, the leaf grants R and the tag admits it; a line whose words an acquire has
invalidated is filled again (R206). [log 26, DEDUCED] -/
def State.prefetch (s : State) (va : Nat) : State :=
  match s.translate s.core s.cur.comp va { r := true } with
  | (.ok pa e, t) =>
    match (t.here).dline (va / 64) t.curPart.asid t.cur.comp with
    | some l => if l.valid = 0xFF then t else t.prefill va pa e
    | none => t.prefill va pa e
  | (_, t) => t

/-- PREF: no fault of the access, no park for it, no read set (R206). [log 26, DEDUCED] -/
def execPref (o : MOff) (s : State) : Host.Outcome State Fault Refusal :=
  finish s do
    let t ← s.readRegs (moffSrcs o) none
    match t.seg o.sg (moffOffset o t 64) 64 64 [] with
    | .ok (false, a) => return (t.prefetch a).advance 4
    | _ => return t.advance 4

/-! ### Remote accesses (R214 to R216) -/

/-- LDX: the issuer's checks, then the request goes to the target (R215). -/
def execLdx (z : LSz) (d : Reg) (a b : Src) (s : State) : Host.Outcome State Fault Refusal :=
  finish s do
    let t ← s.readRegs [a, b] (some d)
    let (g, l, n) := ((t.g a.r).toNat, (t.g b.r).toNat, lszBytes z)
    faultIf (g ≥ t.coreCount t.core) .eseg 0 l
    faultIf (l + n > 0x6000) .eseg 0 l
    faultIf (l % n ≠ 0) .ealign 0 l
    .error (.held (t.hold .mem (.ldx d z g l) 4))

/-- STX: the issuer's checks, then an entry of the store buffer (R215). -/
def execStx (z : SSz) (d : Reg) (a b : Src) (s : State) : Host.Outcome State Fault Refusal :=
  finish s do
    let t ← s.readRegs [a, b, plain d] none
    let (g, l, n) := ((t.g a.r).toNat, (t.g b.r).toNat, sszBytes z)
    faultIf (g ≥ t.coreCount t.core) .eseg 0 l
    faultIf (l + n > 0x6000) .eseg 0 l
    faultIf (l % n ≠ 0) .ealign 0 l
    faultIf (l < 0x0800) .eseg 0 l
    if t.here.hasRoom t.ctx.val then
      let e : SbEntry := { seq := 0, ctx := t.ctx.val, pc := t.cur.pc, src := .stx, va := l, target := g, sz := z, data := t.g d,
                           comp := t.cur.comp, writer := t.cur.writer, priv := t.privOf t.core t.cur t.cur.pc }
      return ((t.modHere fun c => c.enter e).modCur fun c => c.bump 5 1).advance 4
    else .error (.park .store .room)

/-- LDX.W: a window register read (R214). -/
def execLdxW (d w : Reg) (s : State) : Host.Outcome State Fault Refusal :=
  finish s (s.compute [] d 4 fun t => t.here.win[Fin.ofNat 4 w.val])

/-- The writable bits of a window register (R214). -/
def winMask : W := 0xE000000F7FFF7FFF

/-- A value that STX.W refuses (R214). -/
def winBad (v : W) : Bool :=
  v.getLsbD 63 && (decide (bitsOf v 32 4 < 1 ∨ bitsOf v 32 4 > 6 ∨ bitsOf v 0 15 % 8 ≠ 0 ∨ bitsOf v 16 15 % 8 ≠ 0
    ∨ bitsOf v 0 15 + bitsOf v 16 15 > 0x6000) || v &&& ~~~winMask != 0)

/-- STX.W: the lead writes a window register (R214). -/
def execStxW (d w : Reg) (s : State) : Host.Outcome State Fault Refusal :=
  finish s do
    s.leadOnly
    let t ← s.readRegs [plain d] none
    faultIf (winBad (t.g d)) .eseg
    return (t.modHere fun c => { c with win := c.win.set (Fin.ofNat 4 w.val) (t.g d &&& winMask) }).advance 4

/-- A window that covers n bytes from a local address with the right, for writing or reading (R215). -/
def winCovers (v : W) (l n : Nat) (write : Bool) : Bool :=
  v.getLsbD 63 && v.getLsbD (if write then 62 else 61)
    && decide (bitsOf v 0 15 ≤ l ∧ l + n ≤ bitsOf v 0 15 + bitsOf v 16 15)

/-- The refusal of a remote access at target core t from core g, by its subcode; none: granted (R215, R216). -/
def State.remoteRefused (s : State) (g t l n : Nat) (write : Bool) : Option Nat :=
  let c := s.coreAt t
  let ws := c.win.toList.filter fun v => winCovers v l n write
  if ws.isEmpty then some 1
  else if !ws.any (fun v => inScope s (scopeOf (bitsOf v 32 4)) t g) then some 2
  else if l ≥ 0x0800 ∧ ((c.tileAt l).st ≠ .ready ∨ (c.tileAt l).stash.isSome) then some 3
  else none


/-- An LDX of context x of core g is decided at its target: the bytes return, or ENACK in the issuer (R215, R216). -/
def State.remoteLoad (s : State) (g : Nat) (x : Fin 16) : Option State :=
  match (s.ctxAt g x).st, (s.ctxAt g x).req with
  | .parked _, some (.ldx d z i l) =>
    let t := s.coreNo g i
    let n := lszBytes z
    if (s.coreAt g).frozen then none
    else match s.remoteRefused g t l n false with
    | some sub => some ((s.modCtx g x fun c => c.bump 11 1).failReq g x .enack sub l)
    | none => s.reply g x d (lszExtend z (Memory.load (s.coreAt t).pad l n))
  | _, _ => none

/-- A buffered STX is decided at its target: the bytes are written and acknowledged, or the store is recorded (R215, R216). -/
def State.remoteStore (s : State) (g : Nat) (e : SbEntry) : State :=
  let t := s.coreNo g e.target
  let n := sszBytes e.sz
  match s.remoteRefused g t e.va n true with
  | some sub => (s.modCtx g (ctxNo e.ctx) fun c => c.bump 11 1).recordStore g e .enack sub
  | none => (s.padStore t e.va n (lowBits (8 * n) e.data)).storeGone g e.seq e.ctx

/-- The buffered STX with a number, when it is the context's oldest to its target and not waiting to be recorded (R215). -/
def CoreSt.stxDue (c : CoreSt) (seq : Nat) : Option SbEntry :=
  match c.sb.find? fun e => e.seq == seq && e.src == .stx && e.fault.isNone with
  | some e => if c.sb.any fun k => k.src == .stx && k.ctx == e.ctx && k.target == e.target && decide (k.seq < e.seq) then none else some e
  | none => none

/-- REMOTE_ACCESS: the STX numbered v of core g (n = 1), or the LDX of its context x, arrives at the target (R215, R277). -/
def execRemoteAccess (s : State) : Host.Outcome State Fault Refusal :=
  let g := s.ev.g
  if s.ev.n = 1 then
    match (s.coreAt g).stxDue s.ev.v with
    | some e =>
      let t := s.coreNo g e.target
      if (s.coreAt t).away.isSome then event s (some (s.toInbox t (.stx g e.seq)))
      else event s (some (s.remoteStore g e))
    | none => event s none
  else
    let x := ctxNo s.ev.x
    match (s.ctxAt g x).st, (s.ctxAt g x).req with
    | .parked _, some (.ldx _ _ i _) =>
      let t := s.coreNo g i
      if (s.coreAt t).away.isSome then event s (some (s.toInbox t (.ldx g x.val)))
      else event s (s.remoteLoad g x)
    | _, _ => event s none

/-! ### Stash mode, WBACK, DISCARD, DRAIN (R208 to R213) -/

/-- A stash tile of the core overlaps 1 KiB of virtual memory (R209). -/
def CoreSt.stashOver (c : CoreSt) (va : Nat) : Bool :=
  c.tiles.any fun t => match t.stash with | some m => decide (m.va < va + 1024 ∧ va < m.va + 1024) | none => false

/-- STASH (R209). -/
def execStash (l : Tile) (a : Src) (g : Reg) (s : State) : Host.Outcome State Fault Refusal :=
  finish s do
    let t ← s.readRegs [a] none
    faultIf (l.val ≤ 1) .etile 1
    let (loc, va) ← t.seg (segNo g) (t.g a.r) 1024 1024 [.r]
    faultIf loc .eseg 0 va
    faultIf ((t.here.tiles[l]).stash.isSome || t.here.stashOver va) .etile 6 va
    if t.waitOver t.core t.ctx (.tileIdle l.val) then .error (.held (t.hold .mem (.stash l.val va) 4))
    else .error (.park .tile (.tileIdle l.val))

/-- The dirty words that a write-back of a tile, or of one line of it, awaits (R211). -/
def Stash.owes (m : Stash) (line : Option Nat) : Bool :=
  match line with
  | none => m.dirty != 0
  | some k => m.dirty >>> (8 * k) &&& 0xFF#128 != 0

/-- A tile leaves stash mode READY; its invalid words hold zero (R210). -/
def CoreSt.unstash (c : CoreSt) (t : Fin 24) : CoreSt :=
  match (c.tiles[t]).stash with
  | some m =>
    let pad := (List.range 128).foldl
      (fun p i => if m.valid.getLsbD i then p else Memory.store p (1024 * t.val + 8 * i) 8 0) c.pad
    { c with pad := pad, tiles := c.tiles.set t { (c.tiles[t]) with st := .ready, stash := none } }
  | none => c

/-- STASH.OFF (R210). -/
def execStashOff (l : Tile) (s : State) : Host.Outcome State Fault Refusal :=
  finish s do
    faultIf (l.val ≤ 1) .etile 1
    match (s.here.tiles[l]).stash with
    | none => raiseSub .etile 6
    | some m =>
      if m.owes none then .error (.held (s.hold .mem (.wback l.val none true) 4))
      else return (s.modHere fun c => c.unstash l).advance 4

/-- WBACK of one line (R211). [log 24, DEDUCED] -/
def execWback (a : Src) (g : Reg) (s : State) : Host.Outcome State Fault Refusal :=
  finish s do
    let t ← s.readRegs [a] none
    let (loc, va) ← t.seg (segNo g) (t.g a.r) 64 64 []
    faultIf loc .eseg 0 va
    match t.here.stashMap va with
    | some (tile, m) =>
      let line := (va - m.va) / 64
      if m.owes (some line) then .error (.held (t.hold .mem (.wback tile.val (some line) false) 4)) else return t.advance 4
    | none => return t.advance 4

/-- WBACK of a tile (R211). -/
def execWbackTile (l : Tile) (s : State) : Host.Outcome State Fault Refusal :=
  finish s do
    faultIf (l.val ≤ 1) .etile 1
    match (s.here.tiles[l]).stash with
    | none => raiseSub .etile 6
    | some m =>
      if m.owes none then .error (.held (s.hold .mem (.wback l.val none false) 4)) else return s.advance 4

/-- A context of a core with gateway blocks must write its stash tiles back: an XFENCE of its partition that names GW waits (R255). -/
def State.gwAsked (s : State) (g : Nat) : Bool :=
  s.cores.any fun (k, c) => (s.gatewayCores k).contains g && c.ctxs.any fun x => match x.st with
    | .parked (.xfence p _) => p.getLsbD 4
    | _ => false

/-- DISCARD (R212). -/
def execDiscard (a : Src) (g : Reg) (s : State) : Host.Outcome State Fault Refusal :=
  finish s do
    let t ← s.readRegs [a] none
    let (loc, va) ← t.seg (segNo g) (t.g a.r) 64 64 [.w]
    faultIf loc .eseg 0 va
    if t.here.sb.any fun e => e.ctx == t.ctx.val && e.src != .stx && e.va / 64 == va / 64 then
      .error (.park .mem (.lineDrained (va / 64)))
    else .error (.held (t.hold .mem (.discard va) 4))

/-- DRAIN (R208). -/
def execDrain (s : State) : Host.Outcome State Fault Refusal :=
  finish s
    (if s.here.storesOf s.ctx.val then .error (.held ((s.modCur fun c => { c with draining := true }).parkCur .drain .drained))
     else .ok (s.advance 4))



/-- The context waits in the first part of a release at QUAD scope or wider (R210, R238). -/
def Ctx.releasing (c : Ctx) : Bool :=
  let first := match c.prog with | some p => p.sweep.isNone | none => false
  first && (match c.req, c.st with
    | some (.atomicOut _ _ _ _ _ _ _ .rel sc _), _ | some (.atomicOut _ _ _ _ _ _ _ .ar sc _), _ => scopeWide sc
    | some (.gateOut _ _ (.sig ..)), _ | some (.gateOut _ _ (.xfer ..)), _ | some (.hop ..), _ | some (.evidence ..), _ => true
    | none, .parked (.fence sc _) | some (.enqueue ..), .parked (.fence sc _) => scopeWide sc
    | none, .parked (.xfence p _) => p.getLsbD 0
    | _, _ => false)

/-- The context waits for write-backs of word i of stash tile t: WBACK, STASH.OFF, or a release in its first part (R210). -/
def Ctx.wantsBack (c : Ctx) (t i : Nat) : Bool :=
  (match c.req with
   | some (.wback u line _) => u == t && (match line with | some k => i / 8 == k | none => true)
   | _ => false) || c.releasing

/-- A dirty stash word is written at its home and acknowledged; the writers enter the dirty tables (R210, R239, R383). -/
def State.writeBack (s : State) (g : Nat) (t : Fin 24) (m : Stash) (i : Nat) : State :=
  let pa := m.pa + 8 * i
  let p := s.partNo g
  let v := Memory.load (s.coreAt g).pad (1024 * t.val + 8 * i) 8
  let home := homeDie pa
  let u := s.countL2 p home (s.findLine home (pa / 64)).isNone
  let u := u.homeStore p pa (some g) (some g) (some (dieOf g)) 8 v
  let u := (m.wrote.filter fun w => w.1 == i).foldl (fun (u : State) w => u.trackWrite pa 8 (w.2.map fun (l, b) => (p, l, b))) u
  (u.modCore g fun c => c.setStash t { m with dirty := m.dirty &&& ~~~(1#128 <<< i), wrote := m.wrote.filter fun w => w.1 != i }).ackCore
    g (m.va + 8 * i) pa

/-- Contexts of core g whose write-back is complete go on (R210, R211). -/
def State.endBacks (s : State) (g : Nat) : State :=
  (List.finRange 16).foldl (fun s x =>
    match (s.ctxAt g x).st, (s.ctxAt g x).req with
    | .parked _, some (.wback t line off) =>
      let t : Fin 24 := Fin.ofNat 24 t
      match ((s.coreAt g).tiles[t]).stash with
      | some m =>
        if m.owes line then s
        else (if off then s.modCore g fun c => c.unstash t else s).modCtx g x Ctx.retire
      | none => s.modCtx g x Ctx.retire
    | _, _ => s) s

/-- STASH_WRITE_BACK_ACKNOWLEDGED: dirty word v of stash tile n of core g, which a context waits for, reaches its slice (R210,
R211). -/
def execStashWriteBackAcknowledged (s : State) : Host.Outcome State Fault Refusal :=
  let g := s.ev.g
  let t : Fin 24 := Fin.ofNat 24 s.ev.n
  let i := s.ev.v % 128
  match ((s.coreAt g).tiles[t]).stash with
  | some m =>
    if m.dirty.getLsbD i && (s.gwAsked g || (s.coreAt g).ctxs.any fun c => c.wantsBack t.val i) then
      event s (some (if s.lineLive (m.pa / 64 + i / 8) then (s.writeBack g t m i).endBacks g
                     else s.uncorrectable (s.partNo g) (m.pa + 8 * i) g))
    else event s none
  | none => event s none

/-- DISCARD acts: the core's stash and data-cache copies and the slices' copies of the line are dropped without write-back, the
words lose their owner, and the line counts as written (R212, R383). [log 32, DEDUCED] -/
def State.discardLine (s : State) (g va pa : Nat) (writer : Option (Nat × Nat)) : State :=
  let asid := (s.partOf g).asid
  let u := s.modCore g fun c => { c with
    dcache := c.dcache.filter fun l => !(l.vline == va / 64 && l.asid == asid)
    tiles := c.tiles.map fun t => { t with stash := t.stash.map fun m =>
      if m.va ≤ va ∧ va < m.va + 1024 then
        let k := ~~~(0xFF#128 <<< (8 * ((va - m.va) / 64)))
        { m with valid := m.valid &&& k, dirty := m.dirty &&& k, wrote := m.wrote.filter fun w => w.1 / 8 != (va - m.va) / 64 }
      else m } }
  let u := (List.range 8).foldl (fun (u : State) i => u.setOwner (pa / 8 + i) none) u
  (u.forgetLine (pa / 64)).trackWrite (pa / 64 * 64) 64 (writer.map fun (l, i) => (s.partNo g, l, i))

/-! ### The ends of translations, loads and stores -/

/-- The address, the rights and the ACCESS code of the walk that a request waits for (R198, R289). -/
def Req.walks : Req → Option (Nat × Need × Nat)
  | .load _ _ va .walk => some (va, { r := true }, 0)
  | .ldro _ _ va .walk => some (va, { r := true }, 0)
  | .desc _ va .walk => some (va, { r := true }, 0)
  | .stash _ va => some (va, { r := true }, 6)
  | .discard va => some (va, { w := true }, 1)
  | .spill _ _ va .walk => some (va, { w := true }, 4)
  | .fill va .walk => some (va, { r := true }, 4)
  | .atomicOut _ _ _ _ _ _ va _ _ .walk => some (va, { r := true, w := true }, 3)
  | _ => none

/-- The request with its translation. -/
def Req.settled (pa : Nat) : Req → Req
  | .load d z va _ => .load d z va (.ready pa)
  | .ldro d z va _ => .ldro d z va (.ready pa)
  | .desc p va _ => .desc p va (.ready pa)
  | .spill r t va _ => .spill r t va (.ready pa)
  | .fill va _ => .fill va (.ready pa)
  | .atomicOut d op w sx v n va o sc _ => .atomicOut d op w sx v n va o sc (.ready pa)
  | r => r

/-- The request of a context meets a page that is not present: its instruction is abandoned and reissued after the answer, by a stopped
context when it resumes; a context that is being reaped is done with it (R198, R236, R290). -/
def State.pageWait (s : State) (g : Nat) (x : Fin 16) (access va : Nat) : State :=
  let (tok, t) := s.pageFault g access x.val va (s.ctxAt g x).pc.toNat
  let t := t.withdraw g x.val
  let c := t.ctxAt g x
  if c.reaping then (t.modCtx g x fun c => c.abandon).settleReap g x
  else if c.st = .stopped then t.takeBack g x
  else if c.later then t.modCtx g x fun c => { c.takeBack with st := .run }
  else t.modCtx g x fun c =>
    let w : Wait := match tok with | some k => .page k | none => .ports
    (c.takeBack.countPnp w).parkOn .pnp w s.cycle

/-- STASH_FILL: the line that context x of core g waits for is filled, and its instruction is issued again; a mapping that must be walked for
again first may lack its page or its right now (R198, R209, R382, R420). [log 117, DESIGN CHOICE] -/
def execStashFill (s : State) : Host.Outcome State Fault Refusal :=
  let g := s.ev.g
  let x := ctxNo s.ev.x
  match (s.ctxAt g x).st, (s.ctxAt g x).req with
  | .parked _, some (.stashFill t line) =>
    let t : Fin 24 := Fin.ofNat 24 t
    let again := fun (s : State) => s.modCtx g x fun c => { c.abandon with st := .run }
    match ((s.coreAt g).tiles[t]).stash with
    | none => event s (some (again s))
    | some m => match s.freshMap g t m with
      | (.ok .., u, k) => event s ((u.stashLine g x t k line).map again)
      | (.prot, u, _) => event s (some (u.failReq g x .eprot 0 m.va))
      | (.bad pa, u, _) => event s (some (u.uncorrectable (u.partNo g) pa g))
      | (.absent, u, _) =>
        if (s.ctxAt g x).giveUp = some (m.va / 65536) then event s (some (u.failReq g x .epnp 0 m.va))
        else if u.migrates (u.partNo g) m.va then event s none
        else event s (some (u.pageWait g x 0 m.va))
  | _, _ => event s none

/-- What a request does when its translation has ended with an address (R209, R212). -/
def State.walked (s : State) (g : Nat) (x : Fin 16) (r : Req) (pa : Nat) (e : TlbEnt) : Option State :=
  match r with
  | .stash t va =>
    let t : Fin 24 := Fin.ofNat 24 t
    let k := (s.coreAt g).tiles[t]
    if k.stash.isSome || (s.coreAt g).stashOver va then some (s.failReq g x .etile 6 va)
    else if !s.waitOver g x (.tileIdle t.val) then none
    else
        let m : Stash := { va := va, pa := pa, asid := (s.partOf g).asid, wright := e.w && !(s.tagOf pa).sealed, comp := (s.ctxAt g x).comp
                           valid := 0, dirty := 0 }
        some ((s.modCore g fun c => { c with tiles := c.tiles.set t { k with st := .ready, stash := some m } }).modCtx g x Ctx.retire)
  | .discard va => some ((s.discardLine g va pa (s.ctxAt g x).writer).modCtx g x Ctx.retire)
  | _ => some (s.modCtx g x fun c => { c with req := some (r.settled pa) })

/-- The walk of a request may end: that of an atomic follows its release and its same-word wait (R230, R242). -/
def State.mayWalk (s : State) (g : Nat) (x : Fin 16) : Req → Bool
  | .atomicOut _ _ _ _ _ _ va ord sc _ => s.mayLeave g x ord sc va
  | _ => true

/-- The walk of a request of context x of core g ends (R198). -/
def State.walkReq (s : State) (g : Nat) (x : Fin 16) (r : Req) : Option State :=
  let c := s.ctxAt g x
  match r.walks with
  | some (va, need, access) =>
    if !s.mayWalk g x r then none
    else if c.giveUp = some (va / 65536) then some (s.failReq g x .epnp 0 va)
    else match s.translate g c.comp va need with
      | (.ok pa e, t) => t.walked g x r pa e
      | (.prot, t) => some (t.failReq g x .eprot 0 va)
      | (.bad pa, t) => some (t.uncorrectable (t.partNo g) pa g)
      | (.absent, t) => if t.migrates (t.partNo g) va then none else some (t.pageWait g x access va)
  | none => none

/-- The walk of a context's request ends; that of an atomic goes on also for a context that is stopped or being reaped (R198, R236). -/
def State.ctxWalk (s : State) (g : Nat) (x : Fin 16) : Option State :=
  let c := s.ctxAt g x
  match c.st, c.req with
  | .parked _, some r => s.walkReq g x r
  | .stopped, some r => if r.isAtomic then s.walkReq g x r else none
  | _, _ => none

/-- A buffered store changed. -/
def State.modEntry (s : State) (g seq : Nat) (f : SbEntry → SbEntry) : State :=
  s.modCore g fun c => { c with sb := c.sb.map fun e => if e.seq == seq then f e else e }

/-- The walk of a buffered store ends: it is settled, waits for its page, or is recorded (R198, R203). -/
def State.storeWalk (s : State) (g seq : Nat) : Option State :=
  match (s.coreAt g).sb.find? fun e => e.seq == seq with
  | some e =>
    if e.src = .stx ∨ e.fault.isSome ∨ e.xl ≠ .walk then none
    else if e.gaveUp then some (s.recordStore g e .epnp 0)
    else if (match e.page with | some k => s.tokenOut k | none => false) then none
    else match s.translate g e.comp e.va { w := true } with
      | (.ok pa _, t) => some (t.modEntry g seq fun k => { k with xl := .ready pa, page := none })
      | (.prot, t) => some (t.recordStore g e .eprot 0)
      | (.bad pa, t) => some (t.uncorrectable (t.partNo g) pa g)
      | (.absent, t) =>
        if t.migrates (t.partNo g) e.va then none
        else
          let (tok, u) := t.pageFault g 1 e.ctx e.va e.pc.toNat
          some (u.modEntry g seq fun k => { k with page := tok })
  | none => none

/-- TRANSLATION_WALK_END: the walk of buffered store v of core g (n = 1), or of the request of its context x, ends (R198). -/
def execTranslationWalkEnd (s : State) : Host.Outcome State Fault Refusal :=
  if s.ev.n = 1 then event s (s.storeWalk s.ev.g s.ev.v)
  else event s (s.serve s.ev.g (ctxNo s.ev.x) Req.isAtomic fun t => t.ctxWalk s.ev.g (ctxNo s.ev.x))

/-- A control transfer that a reply completes: the target becomes the pc and the instruction is counted (R133, R134, R141). -/
def State.replyGoto (s : State) (g : Nat) (x : Fin 16) (pc : W) : State :=
  (((s.focus g x).goto pc).refocus s).modCtx g x fun c => ({ c with step := 0 } : Ctx).retire

/-- A spill commits: the oldest entry enters the store buffer with its translation settled (R134). -/
def State.spillReply (s : State) (g : Nat) (x : Fin 16) (ret target : W) (va pa : Nat) : Option State :=
  let k := s.ctxAt g x
  if ((s.coreAt g).stashMap va).isSome then some (s.modCtx g x fun c => { c.abandon with st := .run })
  else if (s.coreAt g).hasRoom x.val then
    let e : SbEntry := { seq := 0, ctx := x.val, pc := k.pc, src := .spill, va := va, sz := .n64, data := k.rstk.getLastD 0,
                         comp := k.comp, xl := .ready pa, writer := k.writer, priv := s.privOf g k k.pc }
    some (((s.modCore g fun c => c.enter e).modCtx g x fun c => (c.bump 5 1).pushRet ret).replyGoto g x target)
  else none

/-- A spill through a scratchpad segment or a stash tile is a local store, made now with its checks; where it has to wait, the instruction is
issued again (R134, R201, R209). -/
def State.spillHere (s : State) (g : Nat) (x : Fin 16) (ret target : W) : Option State :=
  let k := s.ctxAt g x
  let again := s.modCtx g x fun c => { c.abandon with st := .run }
  let act : Act State := do
    let t := s.focus g x
    let (loc, a) ← t.seg 7 (.ofNat 64 (8 * k.sc)) 8 8 [.w]
    t.store loc a 8 (k.rstk.getLastD 0) .spill
  match act with
  | .ok t => some (((t.refocus s).modCtx g x fun c => c.pushRet ret).replyGoto g x target)
  | .error (.fault c sub addr _) => some (s.failReq g x c sub addr)
  | .error _ => some again

/-- A fill through a scratchpad segment or a stash tile reads the word now (R134, R201, R209, R382). -/
def State.fillHere (s : State) (g : Nat) (x : Fin 16) : Option State :=
  let k := s.ctxAt g x
  let again := s.modCtx g x fun c => { c.abandon with st := .run }
  let back := fun (t : State) (v : Nat) =>
    some ((t.modCtx g x fun c => { c with sc := c.sc - 1 }).replyGoto g x (evenPc (.ofNat 64 v)))
  match (s.focus g x).seg 7 (.ofNat 64 (8 * (k.sc - 1))) 8 8 [.r] with
  | .ok (true, a) =>
    match (s.focus g x).tileGate a with
    | .ok _ => back s (Memory.load (s.coreAt g).pad a 8)
    | .error (.fault c sub addr _) => some (s.failReq g x c sub addr)
    | .error _ => some again
  | .ok (false, a) =>
    match s.localRead g k.comp a 8 with
    | .val v => back (s.noteRead g x a 8) v
    | _ => some again
  | .error (.fault c sub addr _) => some (s.failReq g x c sub addr)
  | .error _ => some again

/-- The reply of a read of several words: what is done with the number, or a wait, or an uncorrectable error. -/
def State.readReply (s : State) (g pa : Nat) (r : ReadEnd) (f : Nat → State → Option State) : Option State :=
  match r with
  | .val v t => f v t
  | .wait => none
  | .bad => some (s.uncorrectable (s.partNo g) pa g)

/-- The reply to a translated request of context x of core g (R200, R202, R206, R133, R134, R154). [log 6, DEDUCED] [log 91, DESIGN CHOICE] -/
def State.loadReply (s : State) (g : Nat) (x : Fin 16) : Option State :=
  match (s.ctxAt g x).st, (s.ctxAt g x).req with
  | .parked _, some (.load d z va (.ready pa)) =>
    s.readReply g pa (s.coreLoad g x va pa (lszBytes z)) fun v t => t.reply g x d (lszExtend z v)
  | .parked _, some (.ldro d z va (.ready pa)) =>
    match s.roRead g (s.ctxAt g x).comp pa (s.leafOf g va pa) with
    | .words w t => (t.noteRead g x va (lszBytes z)).reply g x d (lszExtend z (lineValue w (pa % 64) (lszBytes z)))
    | .wait => none
    | .bad => some (s.uncorrectable (s.partNo g) pa g)
  | .parked _, some (.desc p va (.ready pa)) =>
    s.readReply g pa (s.coreLoads g x va pa 4) fun v t =>
      if streamDescOk v then
        some ((t.modCtx g x fun c => { c with ports := c.ports.set (Fin.ofNat 4 p) (configured v) }).modCtx g x Ctx.retire)
      else some (t.failReq g x .estream 3 va)
  | .parked _, some (.spill ret target va (.ready pa)) => s.spillReply g x ret target va pa
  | .parked _, some (.spill ret target _ .here) => s.spillHere g x ret target
  | .parked _, some (.fill _ .here) => s.fillHere g x
  | .parked _, some (.fill va (.ready pa)) =>
    s.readReply g pa (s.coreLoad g x va pa 8) fun v t =>
      some ((t.modCtx g x fun c => { c with sc := c.sc - 1 }).replyGoto g x (evenPc (.ofNat 64 v)))
  | _, _ => none

/-- LOAD_REPLY: the data for the parked request of context x of core g returns (R202); a core that is saved, or stopped for it, discards a
reply, and the instruction is issued again (R275). [log 6, DEDUCED] -/
def execLoadReply (s : State) : Host.Outcome State Fault Refusal :=
  event s (if (s.coreAt s.ev.g).frozen then none else s.loadReply s.ev.g (ctxNo s.ev.x))

/-- A buffered store that may complete: settled, and the oldest of its aligned word (R203, R217). -/
def CoreSt.storeDue (c : CoreSt) (seq : Nat) : Option (SbEntry × Nat) :=
  match c.sb.find? fun e => e.seq == seq && e.src != .stx && e.fault.isNone with
  | some e =>
    match e.xl with
    | .ready pa =>
      let same := fun (k : SbEntry) => decide (k.seq < seq) && k.src != .stx &&
        (k.va / 8 == e.va / 8 || (match k.xl with | .ready q => q / 8 == pa / 8 | _ => false))
      if c.sb.any same then none else some (e, pa)
    | _ => none
  | none => none

/-- STORE_COMPLETE: buffered store v of core g is written at its slice and acknowledged (R203, R239, R240, R383). -/
def execStoreComplete (s : State) : Host.Outcome State Fault Refusal :=
  let g := s.ev.g
  match (s.coreAt g).storeDue s.ev.v with
  | some (e, pa) =>
    match s.readyScrub (s.partNo g) (s.leafOf g e.va pa) with
    | some t =>
      let n := sszBytes e.sz
      event s (some (if t.lineLive (pa / 64) then (t.coreWrite g e.va pa n (lowBits (8 * n) e.data) e.writer).storeGone g e.seq e.ctx
                     else t.uncorrectable (t.partNo g) pa g))
    | none => event s none
  | none => event s none


/-- RO_LINE_EXPIRY: the lines of physical line v leave the read-only cache of cluster g, 65,536 cycles after their fill (R254). -/
def execRoLineExpiry (s : State) : Host.Outcome State Fault Refusal :=
  event s (some (s.modCluster s.ev.g fun c =>
    { c with ro := c.ro.filter fun l => !(l.line == s.ev.v && decide (l.filled + 65536 ≤ s.cycle)) }))

end Sys2Proof.Machine
end

