-- ==== Sys2Proof/Machine/Channels.lean ====
section
/-! DEFINITION. Channels: sends, receives, arrivals, cycles of named receives (17 R315 to R320). -/

namespace Sys2Proof.Machine

/-- The tag of a flit (R315). -/
def Flit.tag (m : Flit) : Nat := m.src * 4096 + m.ctx * 256

/-- CHSEND: the flit is read at issue and waits for its target (R317). -/
def execChsend (n : Fin 4) (d : Reg) (a : Src) (s : State) : Host.Outcome State Fault Refusal :=
  finish s do
    let t ← s.readOps [a, plain d, plain (d + 1)] [d, d + 1] 6
    let i := (t.g a.r).toNat
    faultIf (i ≥ t.coreCount t.core) .eseg
    .error (.held (t.hold .chan (.send n.val i (t.g d) (t.g (d + 1))) 4))

/-- A receive that finds no flit parks, behind the receives that parked before it (R317). -/
def State.parkReceive (s : State) (ch : Fin 4) (src : Option Nat) : Act State :=
  let me := (s.core, s.ctx.val)
  .error (.held ((s.modHere fun c => { c with chanQ := if c.chanQ.contains me then c.chanQ else c.chanQ ++ [me] }).parkCur .chan
    (.flit ch.val src)))

/-- A receive takes its flit out of the channel; the flits that earlier receives wait for stay (R317). -/
def CoreSt.receive (c : CoreSt) (g : Nat) (ch : Fin 4) (x : Nat) (src : Option Nat) : Option (Flit × CoreSt) :=
  match takeFlit src (c.flitsFor g ch.val x) with
  | some (m, _) => some (m, { c with chans := c.chans.set ch ((c.chans[ch]).erase m), chanQ := c.chanQ.filter fun e => e != (g, x) })
  | none => none

/-- CHRECV (R317). -/
def execChrecv (n : Fin 4) (d b : Reg) (s : State) : Host.Outcome State Fault Refusal :=
  finish s do
    let t ← s.readOps [] [d, d + 1, b] 6
    match t.here.receive t.core n t.ctx.val none with
    | none => s.parkReceive n none
    | some (m, c) =>
      return ((t.setHere c).modCur fun k => ((k.setG d m.lo).setG (d + 1) m.hi).setG b (.ofNat 64 m.tag)).advance 4

/-- CHRECV.FROM: while it waits it is an edge to the sender's core (R317, R319). -/
def execChrecvFrom (n : Fin 4) (d : Reg) (a : Src) (s : State) : Host.Outcome State Fault Refusal :=
  finish s do
    let t ← s.readOps [a] [d, d + 1] 6
    let i := (t.g a.r).toNat
    faultIf (i ≥ t.coreCount t.core) .eseg
    match t.here.receive t.core n t.ctx.val (some i) with
    | none => s.parkReceive n (some i)
    | some (m, c) => return ((t.setHere c).modCur fun k => (k.setG d m.lo).setG (d + 1) m.hi).advance 4

/-- CHPOLL (R317). -/
def execChpoll (n : Fin 4) (d : Reg) (s : State) : Host.Outcome State Fault Refusal :=
  finish s do
    let t ← s.readOps [] [d] 6
    let l := t.here.chans[n]
    let tag := match l with | m :: _ => m.tag | [] => 0
    return (t.modCur fun c => c.setG d (.ofNat 64 (tag * 2 ^ 32 + l.length))).advance 4

/-- The channel and target core of a CHSEND that waits. -/
def State.sending (s : State) (g x : Nat) : Option (Nat × Nat) :=
  match (s.ctxAt g (ctxNo x)).st, (s.ctxAt g (ctxNo x)).req with
  | .parked _, some (.send ch i _ _) => some (ch, s.coreNo g i)
  | _, _ => none

/-- A flit arrives at its target: accepted when the channel has a free entry and no earlier flit waits for it, else it waits in
the order of arrival (R317). -/
def State.flitArrives (s : State) (g : Nat) (x : Fin 16) : Option State :=
  let c := s.ctxAt g x
  match c.st, c.req with
  | .parked _, some (.send ch i lo hi) =>
    let t := s.coreNo g i
    let k := s.coreAt t
    let earlier := (k.chanQ.takeWhile fun e => e != (g, x.val)).any fun e => s.sending e.1 e.2 == some (ch, t)
    if (k.chans[Fin.ofNat 4 ch]).length < 8 ∧ !earlier then
      let m : Flit := { lo := lo, hi := hi, src := s.coreIndex g, ctx := x.val }
      let u := s.modCore t fun k =>
        { k with chans := k.chans.set (Fin.ofNat 4 ch) (k.chans[Fin.ofNat 4 ch] ++ [m]), chanQ := k.chanQ.filter fun e => e != (g, x.val) }
      some (u.modCtx g x Ctx.retire)
    else some (s.modCore t fun k => if k.chanQ.contains (g, x.val) then k else { k with chanQ := k.chanQ ++ [(g, x.val)] })
  | _, _ => none

/-- FLIT_ARRIVAL: the flit of context x of core g reaches its target, or finds room there (R317, R277). -/
def execFlitArrival (s : State) : Host.Outcome State Fault Refusal :=
  let g := s.ev.g
  match s.sending g (ctxNo s.ev.x).val with
  | some (_, t) =>
    if (s.coreAt t).away.isSome then event s (some (s.toInbox t (.flit g (ctxNo s.ev.x).val)))
    else event s (s.flitArrives g (ctxNo s.ev.x))
  | none => event s none

/-! ### Cycles of named receives (R319) -/

/-- The channel of the edge of context x of core g, the core that it runs to, and the cycle since which it stands: the context waits in a named
receive that no flit has woken, on a core that has not stopped for a pre-emption (R319, R317). -/
def State.edge (s : State) (g x : Nat) : Option (Nat × Nat × Nat) :=
  match (s.ctxAt g (ctxNo x)).st with
  | .parked (.flit ch (some i)) =>
    if (s.coreAt g).frozen || s.waitOver g (ctxNo x) (.flit ch (some i)) then none
    else some (ch, s.coreNo g i, (s.ctxAt g (ctxNo x)).parkedAt)
  | _ => none

/-- CHANNEL_PROBE_TIMER: the edge of context x of core g has stood for 1,024 cycles; its core sends a probe (R319). [log 30, DEDUCED] -/
def execChannelProbeTimer (s : State) : Host.Outcome State Fault Refusal :=
  let g := s.ev.g
  let x := (ctxNo s.ev.x).val
  match s.edge g x with
  | some (_, t, k) =>
    if s.cycle ≥ k + 1024 ∧ !(s.probes.any fun p => p.path.head? == some (g, x, k)) then
      event s (some { s with probes := s.probes ++ [{ path := [(g, x, k)], dest := t, confirm := none }] })
    else event s none
  | none => event s none

/-- The probe after its arrival: dropped, started on its confirm pass, or forwarded along every edge of the core (R319). -/
def State.probeMoves (s : State) (p : Probe) : List Probe :=
  match p.path.head? with
  | none => []
  | some (g, x, k) =>
    if (s.coreAt p.dest).away.isSome then []
    else if p.dest = g ∧ (s.edge g x).any (fun e => e.2.2 == k) then [{ p with confirm := some p.path.reverse }]
    else if p.path.length ≥ 4096 then []
    else (List.range 16).filterMap fun y => (s.edge p.dest y).map fun e => { p with path := p.path ++ [(p.dest, y, e.2.2)], dest := e.2.1 }

/-- CHANNEL_PROBE: probe n arrives at its destination (R319). -/
def execChannelProbe (s : State) : Host.Outcome State Fault Refusal :=
  match s.probes[s.ev.n]? with
  | some p =>
    if p.confirm.isSome then event s none
    else event s (some { s with probes := s.probes.eraseIdx s.ev.n ++ s.probeMoves p })
  | none => event s none

/-- A flit from the named core is on its way to the receive's channel: not yet arrived there, or waiting for room. -/
def State.flitComing (s : State) (g ch t : Nat) (waiting : Bool) : Bool :=
  (List.range 16).any fun y => s.sending t y == some (ch, g) && ((s.coreAt g).chanQ.contains (t, y) == waiting)

/-- The core that follows the i-th context of a cycle: the next one's, or the origin's (R319). -/
def nextOnPath (path : List (Nat × Nat × Nat)) (i : Nat) : Nat := (((path[i + 1]?).orElse fun _ => path[0]?).map (·.1)).getD 0

/-- Every edge of a cycle still stands, unbroken since the probe crossed it, and runs to the cycle's next core (R319). [log 30, DEDUCED] -/
def State.cycleStands (s : State) (path : List (Nat × Nat × Nat)) : Bool :=
  (List.range path.length).all fun i => match path[i]? with
    | some (g, x, k) => (match s.edge g x with | some (_, t, m) => t == nextOnPath path i && m == k | none => false)
    | none => false

/-- Every context of a confirmed cycle stops with ECHAN, where the whole cycle still stands; one that was broken meanwhile is not reported
(R319, R279). -/
def State.reportCycle (s : State) (path : List (Nat × Nat × Nat)) : State :=
  if s.cycleStands path then path.foldl (fun s e => s.failReq e.1 (ctxNo e.2.1) .echan 0 0) s else s

/-- CHANNEL_CONFIRM: the confirm of probe n reaches the next receiver, behind the flits sent earlier along the edge, and checks that
the edge to the cycle's next core stands and no matching flit has entered; the last check reports the cycle (R319). -/
def execChannelConfirm (s : State) : Host.Outcome State Fault Refusal :=
  match s.probes[s.ev.n]? with
  | some p =>
    match p.confirm with
    | some ((g, x, k) :: rest) =>
      let drop : State := { s with probes := s.probes.eraseIdx s.ev.n }
      match s.edge g x with
      | some (ch, t, m) =>
        if t ≠ nextOnPath p.path rest.length ∨ m ≠ k then event s (some drop)
        else if s.flitComing g ch t false then event s none
        else if s.flitComing g ch t true || (s.coreAt g).chans[Fin.ofNat 4 ch].any (fun m => m.src == s.coreIndex t) then event s (some drop)
        else if rest.isEmpty then event s (some (drop.reportCycle p.path))
        else event s (some { s with probes := s.probes.set s.ev.n { p with confirm := some rest } })
      | none => event s (some drop)
    | _ => event s none
  | none => event s none

end Sys2Proof.Machine
end

