-- ==== Sys2Proof/Machine/Fences.lean ====
section
/-! DEFINITION. FENCE and XFENCE, far-copy invalidations, sweeps, writes on the HIO path (13 R248 to R263; 26 R430). -/

namespace Sys2Proof.Machine

/-- FENCE (R250): the release actions, then the acquire actions, at the clamped scope. -/
def execFence (o : Ord) (z : Scope) (s : State) : Host.Outcome State Fault Refusal :=
  finish s do
    let (sc, t) ← s.clamp z
    match o with
    | .rel | .ar => s.awaitRelease .fence sc
    | _ => .ok ()
    match o with
    | .acq | .ar =>
      let _ ← s.awaitAcquire .fence sc
      return (t.acquire t.core t.ctx sc).advance 4
    | _ => return t.advance 4

/-- The cluster's read-only cache is emptied (R254). -/
def State.emptyRo (s : State) (h : Nat) : State := s.modCluster h fun c => { c with ro := [] }

/-- XFENCE (R255): path steps and cross-die release, cross-die acquire, the read-only cache, the acquire actions. -/
def execXfence (p : BitVec 6) (z : Reg) (s : State) : Host.Outcome State Fault Refusal :=
  finish s do
    let (sc, t) ← s.clamp (scopeOf z.val)
    let k := s.cur.prog.getD { s.newProg s.core with cores := s.cur.cores }
    let acq := if p.getLsbD 0 || p.getLsbD 4 then atLeastQuad sc else sc
    if k.sweep.isSome || s.xReleased s.core k p sc then
      let _ ← s.awaitAcquire .fence acq
      let t := if p.getLsbD 1 then t.emptyRo (t.core / 8) else t
      return (t.acquire t.core t.ctx acq).advance 4
    else .error (.held ((s.modCur fun c => { c with prog := some k }).parkCur .fence (.xfence p sc)))

/-- FAR_COPY_INVALIDATION: die p applies the oldest invalidation that die n sent it (R258). -/
def execFarCopyInvalidation (s : State) : Host.Outcome State Fault Refusal :=
  match s.invals.find? fun v => v.home == s.ev.n && v.die == s.ev.p with
  | some v =>
    let t : State := { s with invals := s.invals.filter fun w => w.seq != v.seq }
    match t.findLine v.die v.line with
    | some l => event s (some (t.dropLine l))
    | none => event s (some t)
  | none => event s none

/-- A sweep with the marker of home die d taken back. -/
def unmark (d : Nat) (l : List (Nat × Nat)) : List (Nat × Nat) := l.filter fun m => m.1 != d

/-- The sweep that a context waits for: of a fence or an instruction that waits in place, of an atomic, a HOP or a gate reply (R259). -/
def Ctx.sweeping (c : Ctx) : Option (List (Nat × Nat)) :=
  match c.req with
  | some (.atomicBack _ _ _ _ _ _ w) => w
  | some (.hopIn _ w) => w
  | some (.gateBack _ _ _ w) => w
  | _ => match c.prog with | some p => p.sweep | none => none

/-- A request that waits for a sweep of its own. -/
def Req.sweeps : Req → Bool
  | .atomicBack _ _ _ _ _ _ (some _) | .gateBack _ _ _ (some _) => true
  | _ => false

/-- The context with the marker of home die d taken back. -/
def Ctx.unmark (c : Ctx) (d : Nat) : Ctx :=
  match c.req with
  | some (.atomicBack r w sx old o sc (some l)) => { c with req := some (.atomicBack r w sx old o sc (some (Machine.unmark d l))) }
  | some (.hopIn r (some l)) => { c with req := some (.hopIn r (some (Machine.unmark d l))) }
  | some (.gateBack rs a slot (some l)) => { c with req := some (.gateBack rs a slot (some (Machine.unmark d l))) }
  | _ => { c with prog := c.prog.map fun p => { p with sweep := p.sweep.map (Machine.unmark d) } }

/-- SWEEP_MARKER: the marker of home die n returns to context x of core g, behind the invalidations sent before it (R259). -/
def execSweepMarker (s : State) : Host.Outcome State Fault Refusal :=
  let g := s.ev.g
  let x := ctxNo s.ev.x
  event s (s.serve g x Req.sweeps fun s =>
    let here := s.hops.find? fun h => h.core == g && h.ctx == x
    match ((here.map (·.image)).getD (s.ctxAt g x)).sweeping with
    | some l =>
      match l.find? fun m => m.1 == s.ev.n with
      | some m =>
        if !s.markerBack (dieOf g) m then none
        else if here.isSome then some { s with hops := s.hops.map fun h =>
          if h.core = g ∧ h.ctx = x then { h with image := h.image.unmark s.ev.n } else h }
        else some (s.modCtx g x fun c => c.unmark s.ev.n)
      | none => none
    | none => none)

/-- A frame of a tenant's world (26 R429, R430). [log 31, DEDUCED] -/
def tenantWorld (w : Nat) : Bool := w != 0 && w != 255

/-- The part of an HIO write that lies in one 64 KiB frame: performed at its home and entered into the dirty tables, or, from outside world 0
to a tenant's frame, dropped and counted (R256, R383, R430). [log 31, DEDUCED] [log 82, DESIGN CHOICE] -/
def State.hioPart (s : State) (sys : Bool) (pa : Nat) (bytes : List Byte) : State :=
  if !sys && tenantWorld (s.tagOf pa).world then { s with hioRefused := s.hioRefused + 1 }
  else
    let last := pa + bytes.length
    (List.range ((last + 4095) / 4096 - pa / 4096)).foldl (fun (s : State) i =>
      let a := Nat.max pa (4096 * (pa / 4096 + i))
      s.trackWrite a (Nat.min (4096 * (pa / 4096 + i + 1)) last - a) none)
      (s.homeStore 16 pa none none none bytes.length (ofBytes bytes))

/-- An HIO write in parts that each lie in one 64 KiB frame; the number bounds the parts. -/
def State.hioParts (s : State) (sys : Bool) : Nat → Nat → List Byte → State
  | 0, _, _ => s
  | _, _, [] => s
  | n + 1, pa, l =>
    let k := 65536 - pa % 65536
    (s.hioPart sys pa (l.take k)).hioParts sys n (pa + k) (l.drop k)

/-- HIO_WRITE: the write numbered v, the oldest of its port, is performed at its home, each part of it as the tag of its frame admits (R263,
R256, R430). [log 31, DEDUCED] [log 82, DESIGN CHOICE] -/
def execHioWrite (s : State) : Host.Outcome State Fault Refusal :=
  match s.hioQ.find? fun w => w.seq == s.ev.v with
  | some w =>
    if s.hioQ.any fun k => k.port == w.port && decide (k.seq < w.seq) then event s none
    else
      let t : State := { s with hioQ := s.hioQ.filter fun k => k.seq != w.seq }
      event s (some (t.hioParts w.sys (w.bytes.length / 65536 + 2) w.pa w.bytes))
  | none => event s none

end Sys2Proof.Machine
end

