-- ==== Sys2Proof/WellFormed.lean ====
section
/-! DEFINITION. Which instructions are well formed: `recordOk` says that the field values name a record of the chip
table (step 3 of R66), `operandsOk` is the check of the register fields that the record leaves open (step 5 of R66). -/

namespace Sys2Proof

/-- The I types of scalar integer instructions (R111). -/
def iTys : List Ty := [.i64, .i32, .i16, .i8]
/-- The N types of scalar integer instructions (R111). -/
def nTys : List Ty := [.n64, .n32, .n16, .n8]
/-- The I and N types of scalar integer instructions (R111). -/
def inTys : List Ty := iTys ++ nTys
/-- The I lane types (R144). -/
def iLanes : List Ty := [.i32, .i16, .i8]
/-- The I and N lane types (R144). -/
def inLanes : List Ty := iLanes ++ [.n32, .n16, .n8]
/-- The lane types of PMAC and PSAD (R148). -/
def macTys : List Ty := [.i8, .i16, .n8, .n16]
/-- The lane types of PPACK (R147). -/
def packTys : List Ty := [.i16, .i32, .n16, .n32]
/-- The floating types of scalar, packed and special-function instructions (R172, R177, R188). -/
def fTys : List Ty := [.f32, .f16, .bf16]
/-- The types of FCLASS (R172). -/
def fclassTys : List Ty := fTys ++ [.e4m3, .e5m2]
/-- The element types of blocks that BADDQ and BQUANT write (R180). -/
def blkTys : List Ty := [.i8, .i4, .e4m3, .e5m2, .ds8]
/-- Every type code of R69. -/
def allTys : List Ty := [.i64, .i32, .i16, .i8, .i4, .i2, .i1, .n64, .n32, .n16, .n8, .n4, .f32, .f16, .bf16, .e4m3, .e5m2, .ds8]

/-- Destination and source pairs that FCVT accepts (R175). -/
def fcvtPair (t s : Ty) : Bool :=
  let fl := [Ty.f32, .f16, .bf16, .e4m3, .e5m2]
  decide (t ∈ fl ++ inTys ∧ s ∈ .ds8 :: fl ++ inTys ∧ t ≠ s ∧ (t ∈ fl ∨ s ∈ .ds8 :: fl))

/-- The narrowing pairs of PFCVT, which use gB (R179). -/
def pfcvtUsesB (t s : Ty) : Bool :=
  decide ((t, s) ∈ [(Ty.f16, Ty.f32), (.bf16, .f32), (.e4m3, .f16), (.e5m2, .f16), (.e4m3, .bf16), (.e5m2, .bf16)])

/-- Destination and source pairs that PFCVT accepts (R179). -/
def pfcvtPair (t s : Ty) : Bool :=
  pfcvtUsesB t s ||
  decide ((t, s) ∈ [(Ty.f32, Ty.f16), (.f32, .bf16), (.f16, .e4m3), (.f16, .e5m2), (.f16, .ds8), (.bf16, .e4m3), (.bf16, .e5m2),
    (.bf16, .ds8), (.f16, .bf16), (.bf16, .f16), (.e4m3, .e5m2), (.e5m2, .e4m3)])

/-- XFENCE names at least two paths (R248). -/
def pathsOk (p : BitVec 6) : Bool :=
  decide (2 ≤ (List.range 6).countP fun i => p.getLsbD i)

/-- The operand of format M is not the one that means "no index register" (R64). -/
def MOff.ok (o : MOff) : Bool := o.idx != some ⟨15, true⟩

/-- The field values of the instruction name a record of the chip table (R66 step 3). -/
def Instr.recordOk : Instr → Bool
  | .add t _ _ _ => decide (t ∈ inTys)
  | .sub t _ _ _ => decide (t ∈ inTys)
  | .rsub t _ _ _ => decide (t ∈ inTys)
  | .mul t _ _ _ => decide (t ∈ inTys)
  | .mulh t _ _ _ => decide (t ∈ iTys)
  | .mulhn t _ _ _ => decide (t ∈ nTys)
  | .shl t _ _ _ => decide (t ∈ inTys)
  | .shr t _ _ _ => decide (t ∈ nTys)
  | .sar t _ _ _ => decide (t ∈ iTys)
  | .rol t _ _ _ => decide (t ∈ inTys)
  | .clz t _ _ => decide (t ∈ nTys)
  | .ctz t _ _ => decide (t ∈ nTys)
  | .popc t _ _ => decide (t ∈ nTys)
  | .brev t _ _ => decide (t ∈ nTys)
  | .min t _ _ _ => decide (t ∈ iTys)
  | .max t _ _ _ => decide (t ∈ iTys)
  | .minn t _ _ _ => decide (t ∈ nTys)
  | .maxn t _ _ _ => decide (t ∈ nTys)
  | .seteq t _ _ _ => decide (t ∈ inTys)
  | .setne t _ _ _ => decide (t ∈ inTys)
  | .setlt t _ _ _ => decide (t ∈ iTys)
  | .setge t _ _ _ => decide (t ∈ iTys)
  | .setltn t _ _ _ => decide (t ∈ nTys)
  | .setgen t _ _ _ => decide (t ∈ nTys)
  | .addConst t _ _ _ => decide (t ∈ inTys)
  | .rsubConst t _ _ _ => decide (t ∈ inTys)
  | .mulConst t _ _ _ => decide (t ∈ inTys)
  | .shlConst t _ _ _ => decide (t ∈ inTys)
  | .shrConst t _ _ _ => decide (t ∈ nTys)
  | .lea _ _ o => o.ok
  | .div t _ _ _ => decide (t ∈ iTys)
  | .divn t _ _ _ => decide (t ∈ nTys)
  | .rem t _ _ _ => decide (t ∈ iTys)
  | .remn t _ _ _ => decide (t ∈ nTys)
  | .padd _ t _ _ _ => decide (t ∈ inLanes)
  | .psub _ t _ _ _ => decide (t ∈ inLanes)
  | .padds _ t _ _ _ => decide (t ∈ inLanes)
  | .psubs _ t _ _ _ => decide (t ∈ inLanes)
  | .pmul _ t _ _ _ => decide (t ∈ inLanes)
  | .pmulh _ t _ _ _ => decide (t ∈ inLanes)
  | .pmin _ t _ _ _ => decide (t ∈ inLanes)
  | .pmax _ t _ _ _ => decide (t ∈ inLanes)
  | .pavg _ t _ _ _ => decide (t ∈ inLanes)
  | .pabs _ t _ _ => decide (t ∈ iLanes)
  | .pshl _ t _ _ _ => decide (t ∈ inLanes)
  | .pshr _ t _ _ _ => decide (t ∈ inLanes)
  | .pcmpEq t _ _ _ => decide (t ∈ inLanes)
  | .pcmpNe t _ _ _ => decide (t ∈ inLanes)
  | .pcmpLt t _ _ _ => decide (t ∈ inLanes)
  | .pcmpGe t _ _ _ => decide (t ∈ inLanes)
  | .psel t _ _ _ => decide (t ∈ inLanes)
  | .ppack t _ _ _ => decide (t ∈ packTys)
  | .punpkLo t _ _ => decide (t ∈ inLanes)
  | .punpkHi t _ _ => decide (t ∈ inLanes)
  | .pmac _ t _ _ _ => decide (t ∈ macTys)
  | .phadd _ t _ _ _ => decide (t ∈ inLanes)
  | .psad _ t _ _ _ => decide (t ∈ macTys)
  | .fadd t _ _ _ => decide (t ∈ fTys)
  | .fsub t _ _ _ => decide (t ∈ fTys)
  | .fmul t _ _ _ => decide (t ∈ fTys)
  | .ffma t _ _ _ => decide (t ∈ fTys)
  | .fmin t _ _ _ => decide (t ∈ fTys)
  | .fmax t _ _ _ => decide (t ∈ fTys)
  | .fabs t _ _ => decide (t ∈ fTys)
  | .fneg t _ _ => decide (t ∈ fTys)
  | .fcmpEq t _ _ _ => decide (t ∈ fTys)
  | .fcmpLt t _ _ _ => decide (t ∈ fTys)
  | .fcmpLe t _ _ _ => decide (t ∈ fTys)
  | .fcmpUn t _ _ _ => decide (t ∈ fTys)
  | .frnd t _ _ => decide (t ∈ fTys)
  | .fclass t _ _ => decide (t ∈ fclassTys)
  | .fcvt _ t s _ _ => fcvtPair t s
  | .pfadd _ t _ _ _ => decide (t ∈ fTys)
  | .pfmul _ t _ _ _ => decide (t ∈ fTys)
  | .pffma _ t _ _ _ => decide (t ∈ fTys)
  | .pfmax _ t _ _ _ => decide (t ∈ fTys)
  | .pfcvt _ t s _ _ b => (pfcvtPair t s && (pfcvtUsesB t s || b == ⟨0, false⟩))
  | .baddq t _ _ _ => decide (t ∈ blkTys)
  | .bquant t _ _ _ => decide (t ∈ blkTys)
  | .srcp t _ _ => decide (t ∈ fTys)
  | .srsq t _ _ => decide (t ∈ fTys)
  | .ssqrt t _ _ => decide (t ∈ fTys)
  | .sexp2 t _ _ => decide (t ∈ fTys)
  | .slog2 t _ _ => decide (t ∈ fTys)
  | .ssin t _ _ => decide (t ∈ fTys)
  | .scos t _ _ => decide (t ∈ fTys)
  | .stanh t _ _ => decide (t ∈ fTys)
  | .sfdiv t _ _ _ => decide (t ∈ fTys)
  | .ld _ _ o => o.ok
  | .st _ _ o => o.ok
  | .ldro _ _ o => o.ok
  | .pref o => o.ok
  | .fence o _ => decide (o ≠ .rlx)
  | .xfence p _ => pathsOk p
  | .gtopen r _ _ => decide (r ≠ 0)
  | .gtsig v _ _ _ a => v || a == ⟨0, false⟩
  | _ => true

/-- The checks of register fields that a record leaves open, made by the instruction's own entry (R66 step 5). -/
def Instr.operandsOk : Instr → Bool
  | .bany a _ => decide (a.val < 4)
  | .ball a _ => decide (a.val < 4)
  | .kand d a b => decide (d.val < 4 ∧ a.val < 4 ∧ b.val < 4)
  | .kor d a b => decide (d.val < 4 ∧ a.val < 4 ∧ b.val < 4)
  | .kxor d a b => decide (d.val < 4 ∧ a.val < 4 ∧ b.val < 4)
  | .knot d a => decide (d.val < 4 ∧ a.val < 4)
  | .kmov d a => decide (d.val < 4 ∧ a.val < 4)
  | .kmovFromG d _ => decide (d.val < 4)
  | .kmovToG _ a => decide (a.val < 4)
  | .pcmpEq _ k _ _ => decide (k.val < 4)
  | .pcmpNe _ k _ _ => decide (k.val < 4)
  | .pcmpLt _ k _ _ => decide (k.val < 4)
  | .pcmpGe _ k _ _ => decide (k.val < 4)
  | .scfg _ _ p => decide (p.val < 4)
  | .sbind p => decide (p.val < 4)
  | .sstop p => decide (p.val < 4)
  | .scnt _ p => decide (p.val < 4)
  | .ldxW _ w => decide (w.val < 4)
  | .stxW _ w => decide (w.val < 4)
  | .stash _ _ g => decide (g.val < 8)
  | .wback _ g => decide (g.val < 8)
  | .discard _ g => decide (g.val < 8)
  | .aaddN32 _ _ _ _ g => decide (g.val < 8)
  | .aaddI32 _ _ _ _ g => decide (g.val < 8)
  | .aadd64 _ _ _ _ g => decide (g.val < 8)
  | .aandN32 _ _ _ _ g => decide (g.val < 8)
  | .aandI32 _ _ _ _ g => decide (g.val < 8)
  | .aand64 _ _ _ _ g => decide (g.val < 8)
  | .aorN32 _ _ _ _ g => decide (g.val < 8)
  | .aorI32 _ _ _ _ g => decide (g.val < 8)
  | .aor64 _ _ _ _ g => decide (g.val < 8)
  | .axorN32 _ _ _ _ g => decide (g.val < 8)
  | .axorI32 _ _ _ _ g => decide (g.val < 8)
  | .axor64 _ _ _ _ g => decide (g.val < 8)
  | .aswapN32 _ _ _ _ g => decide (g.val < 8)
  | .aswapI32 _ _ _ _ g => decide (g.val < 8)
  | .aswap64 _ _ _ _ g => decide (g.val < 8)
  | .acasN32 _ _ d _ g => decide (d.val % 2 = 0 ∧ g.val < 8)
  | .acasI32 _ _ d _ g => decide (d.val % 2 = 0 ∧ g.val < 8)
  | .acas64 _ _ d _ g => decide (d.val % 2 = 0 ∧ g.val < 8)
  | .amin _ _ _ _ _ g => decide (g.val < 8)
  | .amax _ _ _ _ _ g => decide (g.val < 8)
  | .aminn _ _ _ _ _ g => decide (g.val < 8)
  | .amaxn _ _ _ _ _ g => decide (g.val < 8)
  | .afadd _ _ _ _ g => decide (g.val < 8)
  | .xfence _ s => decide (s.val < 11)
  | .chsend _ d _ => decide (d.val % 2 = 0)
  | .chrecv _ d b => decide (d.val % 2 = 0 ∧ b.val ≠ d.val ∧ b.val ≠ d.val + 1)
  | .chrecvFrom _ d _ => decide (d.val % 2 = 0)
  | .cntrd _ n => decide (n.val < 8)
  | .cntcfg _ n => decide (n.val < 8)
  | .cntstop n => decide (n.val < 8)
  | .dtmark _ _ g => decide (g.val < 8)
  | .gtwait _ d _ => decide (d.val % 2 = 0)
  | .gtpoll _ d => decide (d.val % 2 = 0)
  | _ => true

/-- A well-formed instruction: its record exists and its register fields pass. -/
def Instr.wf (i : Instr) : Bool := i.recordOk && i.operandsOk

end Sys2Proof
end

