-- ==== Sys2Proof/Decode.lean ====
section
/-! DEFINITION. The decoder and the encoder of native words, 16-bit forms and Gydon halfwords. A word decodes exactly when
it matches a record of the chip table (R66); a word that matches none decodes to nothing. -/

namespace Sys2Proof

/-- Bits lo to lo + n − 1 of w. -/
def field (w lo n : Nat) : Nat := w / 2 ^ lo % 2 ^ n

/-- Bit i of w. -/
def fbit (w i : Nat) : Bool := w / 2 ^ i % 2 == 1

/-- An n-bit field as a number below 2^n. -/
def fin (m : Nat) [NeZero m] (w lo n : Nat) : Fin m := .ofNat m (field w lo n)

/-- An n-bit field as a bit vector. -/
def bv (w lo n : Nat) : BitVec n := .ofNat n (w / 2 ^ lo)

/-- The code of a type (R69). -/
def Ty.code : Ty → Nat
  | .i64 => 0 | .i32 => 1 | .i16 => 2 | .i8 => 3 | .i4 => 4 | .i2 => 5 | .i1 => 6
  | .n64 => 8 | .n32 => 9 | .n16 => 10 | .n8 => 11 | .n4 => 12
  | .f32 => 16 | .f16 => 17 | .bf16 => 18 | .e4m3 => 19 | .e5m2 => 20 | .ds8 => 21

/-- The type with a code; reserved codes name none (R69). -/
def Ty.ofCode : Nat → Option Ty
  | 0 => some .i64 | 1 => some .i32 | 2 => some .i16 | 3 => some .i8 | 4 => some .i4 | 5 => some .i2 | 6 => some .i1
  | 8 => some .n64 | 9 => some .n32 | 10 => some .n16 | 11 => some .n8 | 12 => some .n4
  | 16 => some .f32 | 17 => some .f16 | 18 => some .bf16 | 19 => some .e4m3 | 20 => some .e5m2 | 21 => some .ds8
  | _ => none

/-- SZ of a load (R63). -/
def LSz.code : LSz → Nat
  | .n8 => 0 | .n16 => 1 | .n32 => 2 | .n64 => 3 | .i8 => 4 | .i16 => 5 | .i32 => 6

/-- The load size with an SZ value; 7 names none (R63). -/
def LSz.ofCode : Nat → Option LSz
  | 0 => some .n8 | 1 => some .n16 | 2 => some .n32 | 3 => some .n64 | 4 => some .i8 | 5 => some .i16 | 6 => some .i32
  | _ => none

/-- SZ of a store (R63). -/
def SSz.code : SSz → Nat
  | .n8 => 0 | .n16 => 1 | .n32 => 2 | .n64 => 3

/-- The store size with an SZ value; 4 to 7 name none (R63). -/
def SSz.ofCode : Nat → Option SSz
  | 0 => some .n8 | 1 => some .n16 | 2 => some .n32 | 3 => some .n64
  | _ => none

/-- ORD of an ordering (R227). -/
def Ord.code : Ord → Nat
  | .rlx => 0 | .acq => 1 | .rel => 2 | .ar => 3

/-- The ordering with an ORD value, taken modulo 4 (R227). -/
def Ord.ofCode (n : Nat) : Ord :=
  match n % 4 with
  | 0 => .rlx | 1 => .acq | 2 => .rel | _ => .ar

/-- The code of a scope (R18). -/
def Scope.code : Scope → Nat
  | .ctx => 0 | .core => 1 | .quad => 2 | .clus => 3 | .sect => 4 | .die => 5 | .part => 6 | .pkg => 7 | .host => 8
  | .link => 9 | .sys => 10

/-- The scope with a code; 11 to 15 are reserved (R18). -/
def Scope.ofCode : Nat → Option Scope
  | 0 => some .ctx | 1 => some .core | 2 => some .quad | 3 => some .clus | 4 => some .sect | 5 => some .die
  | 6 => some .part | 7 => some .pkg | 8 => some .host | 9 => some .link | 10 => some .sys
  | _ => none

/-- The number of a system register (R80, R280). -/
def SysReg.code : SysReg → Nat
  | .ctxstat => 0 | .fpc => 1 | .geom => 2 | .fullb => 3
  | .sgb n => 0x08 + n.val | .sgl n => 0x10 + n.val
  | .rstk => 0x18
  | .strm n => 0x20 + n.val | .trm n => 0x28 + n.val | .gth n => 0x2C + n.val
  | .tvec => 0x30 | .tepc => 0x31 | .tstat => 0x32 | .tsel => 0x33 | .tpc => 0x34 | .sfcnt => 0x35
  | .tscr n => 0x38 + n.val

/-- The system register with a number; a number outside R80 and R280 names none. -/
def SysReg.ofCode (n : Nat) : Option SysReg :=
  if n < 4 then some (match n with | 0 => .ctxstat | 1 => .fpc | 2 => .geom | _ => .fullb)
  else if 0x08 ≤ n ∧ n < 0x10 then some (.sgb (.ofNat 8 n))
  else if 0x10 ≤ n ∧ n < 0x18 then some (.sgl (.ofNat 8 n))
  else if n = 0x18 then some .rstk
  else if 0x20 ≤ n ∧ n < 0x24 then some (.strm (.ofNat 4 n))
  else if 0x28 ≤ n ∧ n < 0x2C then some (.trm (.ofNat 4 n))
  else if 0x2C ≤ n ∧ n < 0x30 then some (.gth (.ofNat 4 n))
  else if 0x30 ≤ n ∧ n < 0x36 then some (match n with | 0x30 => .tvec | 0x31 => .tepc | 0x32 => .tstat | 0x33 => .tsel | 0x34 => .tpc | _ => .sfcnt)
  else if 0x38 ≤ n ∧ n < 0x3C then some (.tscr (.ofNat 4 n))
  else none

/-- The fields of formats R, X and B (R61). -/
structure FmtR where
  /-- bits 31:26 -/
  m6 : Nat
  /-- bits 25:21 -/
  f5 : Nat
  /-- BF -/
  y : Bool
  /-- B -/
  b : Reg
  /-- AF -/
  x : Bool
  /-- A -/
  a : Reg
  /-- D, or the condition of format B -/
  d : Reg
deriving DecidableEq, Repr

/-- The fields of format K (R61). -/
structure FmtK where
  /-- bits 31:27 -/
  m5 : Nat
  /-- bits 26:24 -/
  f3 : Nat
  /-- C8 -/
  c : Fin 256
  /-- AF -/
  x : Bool
  /-- A -/
  a : Reg
  /-- D -/
  d : Reg
deriving DecidableEq, Repr

/-- The fields of format M (R61). -/
structure FmtM where
  /-- SZ -/
  sz : Nat
  /-- disp10 -/
  disp : BitVec 10
  /-- SG -/
  sg : Fin 8
  /-- AF -/
  x : Bool
  /-- A -/
  a : Reg
  /-- D -/
  d : Reg
deriving DecidableEq, Repr

/-- The fields of a word of format R, X or B (R61). -/
def splitR (w : Nat) : FmtR :=
  ⟨field w 26 6, field w 21 5, fbit w 20, fin 16 w 16 4, fbit w 15, fin 16 w 11 4, fin 16 w 7 4⟩

/-- The fields of a word of format K (R61). -/
def splitK (w : Nat) : FmtK :=
  ⟨field w 27 5, field w 24 3, fin 256 w 16 8, fbit w 15, fin 16 w 11 4, fin 16 w 7 4⟩

/-- The fields of a word of format M (R61). -/
def splitM (w : Nat) : FmtM :=
  ⟨field w 29 3, bv w 19 10, fin 8 w 16 3, fbit w 15, fin 16 w 11 4, fin 16 w 7 4⟩

/-- gA with AF. -/
def FmtR.srcA (f : FmtR) : Src := ⟨f.a, f.x⟩
/-- gB with BF. -/
def FmtR.srcB (f : FmtR) : Src := ⟨f.b, f.y⟩
/-- D is zero. -/
def FmtR.noD (f : FmtR) : Bool := f.d == 0
/-- A and AF are zero. -/
def FmtR.noA (f : FmtR) : Bool := f.a == 0 && !f.x
/-- B and BF are zero. -/
def FmtR.noB (f : FmtR) : Bool := f.b == 0 && !f.y
/-- The option bit M6[5]. -/
def FmtR.opt (f : FmtR) : Bool := fbit f.m6 5
/-- gA with AF. -/
def FmtK.srcA (f : FmtK) : Src := ⟨f.a, f.x⟩
/-- The memory operand of format M (R64). -/
def FmtM.off (f : FmtM) : MOff :=
  ⟨f.sg, if f.x && f.a == 15 then none else some ⟨f.a, f.x⟩, f.disp⟩

/-- An instruction under a condition on fixed fields. -/
def opt (c : Bool) (i : Instr) : Option Instr := if c then some i else none

/-- A type field that must hold a code of the list. -/
def typed (l : List Ty) (code : Nat) (k : Ty → Option Instr) : Option Instr :=
  match Ty.ofCode code with
  | some t => if t ∈ l then k t else none
  | none => none

/-- A tile field; 24 to 31 name no tile (R207). -/
def tiled (n : Nat) (k : Tile → Option Instr) : Option Instr :=
  if h : n < 24 then k ⟨n, h⟩ else none

/-- Major 0x08, format B (R65). -/
def dec08 (f : FmtR) (w : Nat) : Option Instr :=
  match f.d.val with
  | 0 => some (.beq f.srcA f.srcB (bv w 21 11))
  | 1 => some (.bne f.srcA f.srcB (bv w 21 11))
  | 2 => some (.blt f.srcA f.srcB (bv w 21 11))
  | 3 => some (.bge f.srcA f.srcB (bv w 21 11))
  | 4 => some (.bltn f.srcA f.srcB (bv w 21 11))
  | 5 => some (.bgen f.srcA f.srcB (bv w 21 11))
  | 6 => opt (f.noB) (.bz f.srcA (bv w 21 11))
  | 7 => opt (f.noB) (.bnz f.srcA (bv w 21 11))
  | 8 => opt (f.noB && !f.x) (.bany f.a (bv w 21 11))
  | 9 => opt (f.noB && !f.x) (.ball f.a (bv w 21 11))
  | _ => none

/-- Major 0x09, format J (R65). -/
def dec09 (w : Nat) : Option Instr := some (.jmp (bv w 7 25))

/-- Major 0x0D, format J (R65). -/
def dec0D (w : Nat) : Option Instr := some (.call (bv w 7 25))

/-- Major 0x03, format K (R65). -/
def dec03 (f : FmtK) : Option Instr :=
  match f.f3 with
  | 0 => typed inTys f.m5 fun t => some (.addConst t f.d f.srcA f.c)
  | 1 => typed inTys f.m5 fun t => some (.rsubConst t f.d f.srcA f.c)
  | 2 => typed inTys f.m5 fun t => some (.mulConst t f.d f.srcA f.c)
  | 3 => opt (f.m5 == 0) (.andConst f.d f.srcA f.c)
  | 4 => opt (f.m5 == 0) (.orConst f.d f.srcA f.c)
  | 5 => opt (f.m5 == 0) (.xorConst f.d f.srcA f.c)
  | 6 => typed inTys f.m5 fun t => some (.shlConst t f.d f.srcA f.c)
  | 7 => typed nTys f.m5 fun t => some (.shrConst t f.d f.srcA f.c)
  | _ => none

/-- Major 0x04, format L (R65). -/
def dec04 (w : Nat) : Option Instr := some (.ldi (fin 16 w 7 4) (bv w 11 21))

/-- Major 0x06, format L (R65). -/
def dec06 (w : Nat) : Option Instr := some (.ldhi (fin 16 w 7 4) (bv w 11 21))

/-- Major 0x07, format M (R65). -/
def dec07 (f : FmtM) : Option Instr :=
  (SSz.ofCode f.sz).map fun s => .lea s f.d f.off

/-- Major 0x1C, format M (R65). -/
def dec1C (f : FmtM) : Option Instr :=
  (LSz.ofCode f.sz).map fun s => .ld s f.d f.off

/-- Major 0x1D, format M (R65). -/
def dec1D (f : FmtM) : Option Instr :=
  (SSz.ofCode f.sz).map fun s => .st s f.d f.off

/-- Major 0x1E, format M (R65). -/
def dec1E (f : FmtM) : Option Instr :=
  if f.sz = 7 then opt (f.d == 0) (.pref f.off) else (LSz.ofCode f.sz).map fun s => .ldro s f.d f.off

/-- Major 0x01, format R or X (R65). -/
def dec01 (f : FmtR) : Option Instr :=
  match f.f5 with
  | 0 => typed inTys f.m6 fun t => some (.add t f.d f.srcA f.srcB)
  | 1 => typed inTys f.m6 fun t => some (.sub t f.d f.srcA f.srcB)
  | 2 => typed inTys f.m6 fun t => some (.rsub t f.d f.srcA f.srcB)
  | 3 => typed inTys f.m6 fun t => some (.mul t f.d f.srcA f.srcB)
  | 4 => typed iTys f.m6 fun t => some (.mulh t f.d f.srcA f.srcB)
  | 5 => typed nTys f.m6 fun t => some (.mulhn t f.d f.srcA f.srcB)
  | 6 => opt (f.m6 == 0) (.and f.d f.srcA f.srcB)
  | 7 => opt (f.m6 == 0) (.or f.d f.srcA f.srcB)
  | 8 => opt (f.m6 == 0) (.xor f.d f.srcA f.srcB)
  | 9 => opt (f.m6 == 0) (.andn f.d f.srcA f.srcB)
  | 10 => typed inTys f.m6 fun t => some (.shl t f.d f.srcA f.srcB)
  | 11 => typed nTys f.m6 fun t => some (.shr t f.d f.srcA f.srcB)
  | 12 => typed iTys f.m6 fun t => some (.sar t f.d f.srcA f.srcB)
  | 13 => typed inTys f.m6 fun t => some (.rol t f.d f.srcA f.srcB)
  | 14 => opt (f.m6 == 0 && f.noB) (.mov f.d f.srcA)
  | _ => none

/-- Major 0x02, format R or X (R65). -/
def dec02 (f : FmtR) : Option Instr :=
  match f.f5 with
  | 0 => typed nTys f.m6 fun t => opt (f.noB) (.clz t f.d f.srcA)
  | 1 => typed nTys f.m6 fun t => opt (f.noB) (.ctz t f.d f.srcA)
  | 2 => typed nTys f.m6 fun t => opt (f.noB) (.popc t f.d f.srcA)
  | 3 => typed nTys f.m6 fun t => opt (f.noB) (.brev t f.d f.srcA)
  | 4 => opt (f.m6 % 32 == 0) (.ext f.opt f.d f.srcA f.srcB)
  | 5 => opt (f.m6 == 0) (.ins f.d f.srcA f.srcB)
  | 6 => typed iTys f.m6 fun t => some (.min t f.d f.srcA f.srcB)
  | 7 => typed iTys f.m6 fun t => some (.max t f.d f.srcA f.srcB)
  | 8 => typed nTys f.m6 fun t => some (.minn t f.d f.srcA f.srcB)
  | 9 => typed nTys f.m6 fun t => some (.maxn t f.d f.srcA f.srcB)
  | 10 => typed inTys f.m6 fun t => some (.seteq t f.d f.srcA f.srcB)
  | 11 => typed inTys f.m6 fun t => some (.setne t f.d f.srcA f.srcB)
  | 12 => typed iTys f.m6 fun t => some (.setlt t f.d f.srcA f.srcB)
  | 13 => typed iTys f.m6 fun t => some (.setge t f.d f.srcA f.srcB)
  | 14 => typed nTys f.m6 fun t => some (.setltn t f.d f.srcA f.srcB)
  | 15 => typed nTys f.m6 fun t => some (.setgen t f.d f.srcA f.srcB)
  | 16 => opt (f.m6 == 0) (.sel f.d f.srcA f.srcB)
  | _ => none

/-- Major 0x05, format R or X (R65). -/
def dec05 (f : FmtR) : Option Instr :=
  match f.f5 with
  | 0 => typed iTys f.m6 fun t => some (.div t f.d f.srcA f.srcB)
  | 1 => typed nTys f.m6 fun t => some (.divn t f.d f.srcA f.srcB)
  | 2 => typed iTys f.m6 fun t => some (.rem t f.d f.srcA f.srcB)
  | 3 => typed nTys f.m6 fun t => some (.remn t f.d f.srcA f.srcB)
  | _ => none

/-- Major 0x0A, format R or X (R65). -/
def dec0A (f : FmtR) : Option Instr :=
  match f.f5 with
  | 0 => opt (f.m6 == 0 && f.noD && f.noB) (.jmpr f.srcA)
  | 1 => opt (f.m6 == 0 && f.noD && f.noB) (.callr f.srcA)
  | 2 => opt (f.m6 == 0 && f.noD && f.noA && f.noB) (.ret)
  | 3 => opt (f.m6 == 0 && f.noD && f.noA && f.noB) (.exit)
  | 4 => opt (f.m6 == 0 && f.noD && f.noA && f.noB) (.nop)
  | _ => none

/-- Major 0x0B, format R or X (R65). -/
def dec0B (f : FmtR) : Option Instr :=
  match f.f5 with
  | 0 => opt (f.m6 == 0 && !f.x && !f.y) (.kand f.d f.a f.b)
  | 1 => opt (f.m6 == 0 && !f.x && !f.y) (.kor f.d f.a f.b)
  | 2 => opt (f.m6 == 0 && !f.x && !f.y) (.kxor f.d f.a f.b)
  | 3 => opt (f.m6 == 0 && !f.x && f.noB) (.knot f.d f.a)
  | 4 => opt (f.m6 == 0 && !f.x && f.noB) (.kmov f.d f.a)
  | 5 => opt (f.m6 == 0 && f.noB) (.kmovFromG f.d f.srcA)
  | 6 => opt (f.m6 == 0 && !f.x && f.noB) (.kmovToG f.d f.a)
  | _ => none

/-- Major 0x0C, format R or X (R65). -/
def dec0C (f : FmtR) : Option Instr :=
  match f.f5 with
  | 0 => opt (f.m6 == 0 && f.noB) (.couple f.d f.srcA)
  | 1 => opt (f.m6 == 0 && f.noD && f.noA && f.noB) (.decouple)
  | 2 => opt (f.m6 == 0 && f.noA && f.noB) (.recouple f.d)
  | _ => none

/-- Major 0x10, format R or X (R65). -/
def dec10 (f : FmtR) : Option Instr :=
  match f.f5 with
  | 0 => typed inLanes (f.m6 % 32) fun t => some (.padd f.opt t f.d f.srcA f.srcB)
  | 1 => typed inLanes (f.m6 % 32) fun t => some (.psub f.opt t f.d f.srcA f.srcB)
  | 2 => typed inLanes (f.m6 % 32) fun t => some (.padds f.opt t f.d f.srcA f.srcB)
  | 3 => typed inLanes (f.m6 % 32) fun t => some (.psubs f.opt t f.d f.srcA f.srcB)
  | 4 => typed inLanes (f.m6 % 32) fun t => some (.pmul f.opt t f.d f.srcA f.srcB)
  | 5 => typed inLanes (f.m6 % 32) fun t => some (.pmulh f.opt t f.d f.srcA f.srcB)
  | 6 => typed inLanes (f.m6 % 32) fun t => some (.pmin f.opt t f.d f.srcA f.srcB)
  | 7 => typed inLanes (f.m6 % 32) fun t => some (.pmax f.opt t f.d f.srcA f.srcB)
  | 8 => typed inLanes (f.m6 % 32) fun t => some (.pavg f.opt t f.d f.srcA f.srcB)
  | 9 => typed iLanes (f.m6 % 32) fun t => opt (f.noB) (.pabs f.opt t f.d f.srcA)
  | 10 => typed inLanes (f.m6 % 32) fun t => some (.pshl f.opt t f.d f.srcA f.srcB)
  | 11 => typed inLanes (f.m6 % 32) fun t => some (.pshr f.opt t f.d f.srcA f.srcB)
  | _ => none

/-- Major 0x11, format R or X (R65). -/
def dec11 (f : FmtR) : Option Instr :=
  match f.f5 with
  | 0 => typed inLanes f.m6 fun t => some (.pcmpEq t f.d f.srcA f.srcB)
  | 1 => typed inLanes f.m6 fun t => some (.pcmpNe t f.d f.srcA f.srcB)
  | 2 => typed inLanes f.m6 fun t => some (.pcmpLt t f.d f.srcA f.srcB)
  | 3 => typed inLanes f.m6 fun t => some (.pcmpGe t f.d f.srcA f.srcB)
  | 4 => typed inLanes f.m6 fun t => some (.psel t f.d f.srcA f.srcB)
  | 5 => opt (f.m6 == 0) (.pshuf f.d f.srcA f.srcB)
  | 6 => typed packTys f.m6 fun t => some (.ppack t f.d f.srcA f.srcB)
  | 7 => typed inLanes f.m6 fun t => opt (f.noB) (.punpkLo t f.d f.srcA)
  | 8 => typed inLanes f.m6 fun t => opt (f.noB) (.punpkHi t f.d f.srcA)
  | _ => none

/-- Major 0x12, format R or X (R65). -/
def dec12 (f : FmtR) : Option Instr :=
  match f.f5 with
  | 0 => typed macTys (f.m6 % 32) fun t => some (.pmac f.opt t f.d f.srcA f.srcB)
  | 1 => typed inLanes (f.m6 % 32) fun t => some (.phadd f.opt t f.d f.srcA f.srcB)
  | 2 => typed macTys (f.m6 % 32) fun t => some (.psad f.opt t f.d f.srcA f.srcB)
  | _ => none

/-- Major 0x13, format R or X (R65). -/
def dec13 (f : FmtR) : Option Instr :=
  match f.f5 with
  | 0 => opt (decide (f.m6 < 8) && f.noD && !f.y) (.scfg (.ofNat 8 f.m6) f.srcA f.b)
  | 1 => opt (f.m6 == 0 && f.noD && f.noA && !f.y) (.sbind f.b)
  | 2 => opt (f.m6 == 0 && f.noD && f.noA && !f.y) (.sstop f.b)
  | 3 => opt (f.m6 == 0 && f.noA && !f.y) (.scnt f.d f.b)
  | _ => none

/-- Major 0x14, format R or X (R65). -/
def dec14 (f : FmtR) : Option Instr :=
  match f.f5 with
  | 0 => typed fTys f.m6 fun t => some (.fadd t f.d f.srcA f.srcB)
  | 1 => typed fTys f.m6 fun t => some (.fsub t f.d f.srcA f.srcB)
  | 2 => typed fTys f.m6 fun t => some (.fmul t f.d f.srcA f.srcB)
  | 3 => typed fTys f.m6 fun t => some (.ffma t f.d f.srcA f.srcB)
  | 4 => typed fTys f.m6 fun t => some (.fmin t f.d f.srcA f.srcB)
  | 5 => typed fTys f.m6 fun t => some (.fmax t f.d f.srcA f.srcB)
  | 6 => typed fTys f.m6 fun t => opt (f.noB) (.fabs t f.d f.srcA)
  | 7 => typed fTys f.m6 fun t => opt (f.noB) (.fneg t f.d f.srcA)
  | 8 => typed fTys f.m6 fun t => some (.fcmpEq t f.d f.srcA f.srcB)
  | 9 => typed fTys f.m6 fun t => some (.fcmpLt t f.d f.srcA f.srcB)
  | 10 => typed fTys f.m6 fun t => some (.fcmpLe t f.d f.srcA f.srcB)
  | 11 => typed fTys f.m6 fun t => some (.fcmpUn t f.d f.srcA f.srcB)
  | 12 => typed fTys f.m6 fun t => opt (f.noB) (.frnd t f.d f.srcA)
  | 13 => typed fclassTys f.m6 fun t => opt (f.noB) (.fclass t f.d f.srcA)
  | _ => none

/-- Major 0x15, format R or X (R65). -/
def dec15 (f : FmtR) : Option Instr :=
  typed allTys (f.m6 % 32) fun t => typed allTys f.f5 fun s => opt (fcvtPair t s && f.noB) (.fcvt f.opt t s f.d f.srcA)

/-- Major 0x16, format R or X (R65). -/
def dec16 (f : FmtR) : Option Instr :=
  match f.f5 with
  | 0 => typed fTys (f.m6 % 32) fun t => some (.pfadd f.opt t f.d f.srcA f.srcB)
  | 1 => typed fTys (f.m6 % 32) fun t => some (.pfmul f.opt t f.d f.srcA f.srcB)
  | 2 => typed fTys (f.m6 % 32) fun t => some (.pffma f.opt t f.d f.srcA f.srcB)
  | 3 => typed fTys (f.m6 % 32) fun t => some (.pfmax f.opt t f.d f.srcA f.srcB)
  | _ => typed allTys (f.m6 % 32) fun t => typed allTys (f.f5 + 12) fun s => opt (pfcvtPair t s && (pfcvtUsesB t s || f.noB)) (.pfcvt f.opt t s f.d f.srcA f.srcB)

/-- Major 0x17, format R or X (R65). -/
def dec17 (f : FmtR) : Option Instr :=
  match f.f5 with
  | 0 => typed blkTys f.m6 fun t => some (.baddq t f.d f.srcA f.srcB)
  | 1 => typed blkTys f.m6 fun t => some (.bquant t f.d f.srcA f.srcB)
  | 2 => opt (f.m6 == 0 && f.noB) (.bdesc f.d f.srcA)
  | 3 => opt (f.m6 % 32 == 21 && f.noB) (.dsexp f.opt f.d f.srcA)
  | _ => none

/-- Major 0x18, format R or X (R65). -/
def dec18 (f : FmtR) : Option Instr :=
  match f.f5 with
  | 0 => typed fTys f.m6 fun t => opt (f.noB) (.srcp t f.d f.srcA)
  | 1 => typed fTys f.m6 fun t => opt (f.noB) (.srsq t f.d f.srcA)
  | 2 => typed fTys f.m6 fun t => opt (f.noB) (.ssqrt t f.d f.srcA)
  | 3 => typed fTys f.m6 fun t => opt (f.noB) (.sexp2 t f.d f.srcA)
  | 4 => typed fTys f.m6 fun t => opt (f.noB) (.slog2 t f.d f.srcA)
  | 5 => typed fTys f.m6 fun t => opt (f.noB) (.ssin t f.d f.srcA)
  | 6 => typed fTys f.m6 fun t => opt (f.noB) (.scos t f.d f.srcA)
  | 7 => typed fTys f.m6 fun t => opt (f.noB) (.stanh t f.d f.srcA)
  | 8 => typed fTys f.m6 fun t => some (.sfdiv t f.d f.srcA f.srcB)
  | _ => none

/-- Major 0x1F, format R or X (R65). -/
def dec1F (f : FmtR) : Option Instr :=
  match f.f5 with
  | 0 => ((LSz.ofCode (f.m6 / 8)).bind fun s => opt (f.m6 % 8 == 0) (.ldx s f.d f.srcA f.srcB)) <|> (opt (f.m6 == 56 && f.noA && !f.y) (.ldxW f.d f.b))
  | 1 => ((SSz.ofCode (f.m6 / 8)).bind fun s => opt (f.m6 % 8 == 0) (.stx s f.d f.srcA f.srcB)) <|> (opt (f.m6 == 56 && f.noA && !f.y) (.stxW f.d f.b))
  | 2 => (tiled f.m6 fun l => opt (f.noD && !f.y) (.stash l f.srcA f.b)) <|> (tiled (f.m6 - 32) fun l => opt (decide (32 ≤ f.m6) && f.noD && f.noA && f.noB) (.stashOff l))
  | 3 => (opt (f.m6 == 0 && f.noD && !f.y) (.wback f.srcA f.b)) <|> (tiled (f.m6 - 32) fun l => opt (decide (32 ≤ f.m6) && f.noD && f.noA && f.noB) (.wbackTile l))
  | 4 => opt (f.m6 == 0 && f.noD && !f.y) (.discard f.srcA f.b)
  | 5 => opt (f.m6 == 0 && f.noD && f.noA && f.noB) (.drain)
  | _ => none

/-- Major 0x20, format R or X (R65). -/
def dec20 (f : FmtR) : Option Instr :=
  match f.f5 with
  | 0 => (Scope.ofCode (f.m6 % 16)).bind fun s => opt (!f.y) (.aaddN32 (Ord.ofCode (f.m6 / 16)) s f.d f.srcA f.b)
  | 1 => (Scope.ofCode (f.m6 % 16)).bind fun s => opt (!f.y) (.aaddI32 (Ord.ofCode (f.m6 / 16)) s f.d f.srcA f.b)
  | 2 => (Scope.ofCode (f.m6 % 16)).bind fun s => opt (!f.y) (.aadd64 (Ord.ofCode (f.m6 / 16)) s f.d f.srcA f.b)
  | 3 => (Scope.ofCode (f.m6 % 16)).bind fun s => opt (!f.y) (.aandN32 (Ord.ofCode (f.m6 / 16)) s f.d f.srcA f.b)
  | 4 => (Scope.ofCode (f.m6 % 16)).bind fun s => opt (!f.y) (.aandI32 (Ord.ofCode (f.m6 / 16)) s f.d f.srcA f.b)
  | 5 => (Scope.ofCode (f.m6 % 16)).bind fun s => opt (!f.y) (.aand64 (Ord.ofCode (f.m6 / 16)) s f.d f.srcA f.b)
  | 6 => (Scope.ofCode (f.m6 % 16)).bind fun s => opt (!f.y) (.aorN32 (Ord.ofCode (f.m6 / 16)) s f.d f.srcA f.b)
  | 7 => (Scope.ofCode (f.m6 % 16)).bind fun s => opt (!f.y) (.aorI32 (Ord.ofCode (f.m6 / 16)) s f.d f.srcA f.b)
  | 8 => (Scope.ofCode (f.m6 % 16)).bind fun s => opt (!f.y) (.aor64 (Ord.ofCode (f.m6 / 16)) s f.d f.srcA f.b)
  | 9 => (Scope.ofCode (f.m6 % 16)).bind fun s => opt (!f.y) (.axorN32 (Ord.ofCode (f.m6 / 16)) s f.d f.srcA f.b)
  | 10 => (Scope.ofCode (f.m6 % 16)).bind fun s => opt (!f.y) (.axorI32 (Ord.ofCode (f.m6 / 16)) s f.d f.srcA f.b)
  | 11 => (Scope.ofCode (f.m6 % 16)).bind fun s => opt (!f.y) (.axor64 (Ord.ofCode (f.m6 / 16)) s f.d f.srcA f.b)
  | 12 => (Scope.ofCode (f.m6 % 16)).bind fun s => opt (!f.y) (.aswapN32 (Ord.ofCode (f.m6 / 16)) s f.d f.srcA f.b)
  | 13 => (Scope.ofCode (f.m6 % 16)).bind fun s => opt (!f.y) (.aswapI32 (Ord.ofCode (f.m6 / 16)) s f.d f.srcA f.b)
  | 14 => (Scope.ofCode (f.m6 % 16)).bind fun s => opt (!f.y) (.aswap64 (Ord.ofCode (f.m6 / 16)) s f.d f.srcA f.b)
  | 15 => (Scope.ofCode (f.m6 % 16)).bind fun s => opt (!f.y) (.acasN32 (Ord.ofCode (f.m6 / 16)) s f.d f.srcA f.b)
  | 16 => (Scope.ofCode (f.m6 % 16)).bind fun s => opt (!f.y) (.acasI32 (Ord.ofCode (f.m6 / 16)) s f.d f.srcA f.b)
  | 17 => (Scope.ofCode (f.m6 % 16)).bind fun s => opt (!f.y) (.acas64 (Ord.ofCode (f.m6 / 16)) s f.d f.srcA f.b)
  | 18 => (Scope.ofCode (f.m6 % 16)).bind fun s => opt (!f.y) (.amin (Ord.ofCode (f.m6 / 16)) s false f.d f.srcA f.b)
  | 19 => (Scope.ofCode (f.m6 % 16)).bind fun s => opt (!f.y) (.amin (Ord.ofCode (f.m6 / 16)) s true f.d f.srcA f.b)
  | 20 => (Scope.ofCode (f.m6 % 16)).bind fun s => opt (!f.y) (.amax (Ord.ofCode (f.m6 / 16)) s false f.d f.srcA f.b)
  | 21 => (Scope.ofCode (f.m6 % 16)).bind fun s => opt (!f.y) (.amax (Ord.ofCode (f.m6 / 16)) s true f.d f.srcA f.b)
  | 22 => (Scope.ofCode (f.m6 % 16)).bind fun s => opt (!f.y) (.aminn (Ord.ofCode (f.m6 / 16)) s false f.d f.srcA f.b)
  | 23 => (Scope.ofCode (f.m6 % 16)).bind fun s => opt (!f.y) (.aminn (Ord.ofCode (f.m6 / 16)) s true f.d f.srcA f.b)
  | 24 => (Scope.ofCode (f.m6 % 16)).bind fun s => opt (!f.y) (.amaxn (Ord.ofCode (f.m6 / 16)) s false f.d f.srcA f.b)
  | 25 => (Scope.ofCode (f.m6 % 16)).bind fun s => opt (!f.y) (.amaxn (Ord.ofCode (f.m6 / 16)) s true f.d f.srcA f.b)
  | 26 => (Scope.ofCode (f.m6 % 16)).bind fun s => opt (!f.y) (.afadd (Ord.ofCode (f.m6 / 16)) s f.d f.srcA f.b)
  | _ => none

/-- Major 0x21, format R or X (R65). -/
def dec21 (f : FmtR) : Option Instr :=
  match f.f5 with
  | 0 => (Scope.ofCode (f.m6 % 16)).bind fun s => opt (Ord.ofCode (f.m6 / 16) != .rlx && f.noD && f.noA && f.noB) (.fence (Ord.ofCode (f.m6 / 16)) s)
  | 1 => opt (pathsOk (.ofNat 6 f.m6) && f.noA && f.noB) (.xfence (.ofNat 6 f.m6) f.d)
  | _ => none

/-- Major 0x22, format R or X (R65). -/
def dec22 (f : FmtR) : Option Instr :=
  match f.f5 with
  | 0 => opt (f.m6 == 0 && f.noD && f.noB) (.trinit f.srcA)
  | 1 => opt (f.m6 == 0 && f.noD && f.noB) (.trjoin f.srcA)
  | 2 => opt (f.m6 == 0 && f.noB) (.trarrive f.d f.srcA)
  | 3 => opt (f.m6 == 0 && f.noD) (.trexpect f.srcA f.srcB)
  | 4 => opt (f.m6 == 0) (.trwait f.d f.srcA f.srcB)
  | 5 => opt (f.m6 == 0 && f.noB) (.trtest f.d f.srcA)
  | 6 => opt (f.m6 == 0 && f.noD && f.noB) (.trdrop f.srcA)
  | _ => none

/-- Major 0x23, format R or X (R65). -/
def dec23 (f : FmtR) : Option Instr :=
  match f.f5 with
  | 0 => opt (decide (f.m6 < 4) && f.noB) (.chsend (.ofNat 4 f.m6) f.d f.srcA)
  | 1 => opt (decide (f.m6 < 4) && f.noA && !f.y) (.chrecv (.ofNat 4 f.m6) f.d f.b)
  | 2 => opt (decide (f.m6 < 4) && f.noB) (.chrecvFrom (.ofNat 4 f.m6) f.d f.srcA)
  | 3 => opt (decide (f.m6 < 4) && f.noA && f.noB) (.chpoll (.ofNat 4 f.m6) f.d)
  | _ => none

/-- Major 0x24, format R or X (R65). -/
def dec24 (f : FmtR) : Option Instr :=
  match f.f5 with
  | 0 => tiled (f.m6 % 32) fun l => some (.cpfill f.opt l f.d f.srcA f.srcB)
  | 1 => tiled (f.m6 % 32) fun l => some (.cpdrain f.opt l f.d f.srcA f.srcB)
  | 2 => tiled (f.m6 % 32) fun l => some (.cpgath f.opt l f.d f.srcA f.srcB)
  | 3 => tiled (f.m6 % 32) fun l => some (.cpscat f.opt l f.d f.srcA f.srcB)
  | 4 => opt (f.m6 == 0 && f.noB) (.cpwait f.d f.srcA)
  | 5 => opt (f.m6 == 0 && f.noB) (.cppoll f.d f.srcA)
  | 6 => tiled f.m6 fun l => opt (f.noA && f.noB) (.tlstat l f.d)
  | 7 => tiled f.m6 fun l => opt (f.noD && f.noB) (.tlset l f.srcA)
  | _ => none

/-- Major 0x26, format R or X (R65). -/
def dec26 (f : FmtR) : Option Instr :=
  match f.f5 with
  | 0 => some (.mxmul (fbit f.m6 5) (fbit f.m6 4) (fbit f.m6 3) (fbit f.m6 2) (.ofNat 4 f.m6) f.d f.srcA f.srcB)
  | 1 => some (.mxmulg (fbit f.m6 5) (fbit f.m6 4) (fbit f.m6 3) (fbit f.m6 2) (.ofNat 4 f.m6) f.d f.srcA f.srcB)
  | 2 => opt (decide (f.m6 % 32 < 4) && f.noA && f.noB) (.mxzero (fbit f.m6 5) (.ofNat 4 f.m6) f.d)
  | 3 => opt (decide (f.m6 % 32 < 4) && f.noB) (.mxread (fbit f.m6 5) (.ofNat 4 f.m6) f.d f.srcA)
  | 4 => opt (f.m6 == 0 && f.noB) (.mxwait f.d f.srcA)
  | 5 => opt (f.m6 == 0 && f.noB) (.mxpoll f.d f.srcA)
  | _ => none

/-- Major 0x28, format R or X (R65). -/
def dec28 (f : FmtR) : Option Instr :=
  match f.f5 with
  | 0 => opt (f.m6 == 0) (.spawn f.d f.srcA f.srcB)
  | 1 => opt (f.m6 == 0 && f.noD && f.noB) (.reap f.srcA)
  | 2 => (opt (f.m6 == 0 && f.noD && f.noB) (.wake f.srcA)) <|> (opt (f.m6 == 1) (.wakeV f.d f.srcA f.srcB))
  | 3 => opt (f.m6 == 0 && f.noD && f.noA && f.noB) (.yield)
  | 4 => opt (f.m6 == 0 && f.noB) (.sleep f.d f.srcA)
  | 5 => opt (f.m6 == 0 && f.noB) (.hop f.d f.srcA)
  | _ => none

/-- Major 0x29, format R or X (R65). -/
def dec29 (f : FmtR) : Option Instr :=
  match f.f5 with
  | 0 => opt (f.m6 == 0) (.lnch f.d f.srcA f.srcB)
  | 1 => opt (f.m6 == 0) (.relnch f.d f.srcA f.srcB)
  | 2 => opt (f.m6 == 0 && !f.y) (.dtmark f.d f.srcA f.b)
  | 3 => opt (f.m6 == 0 && f.noA && f.noB) (.dtwave f.d)
  | 4 => opt (f.m6 == 0 && f.noD && f.noA && f.noB) (.dtforget)
  | _ => none

/-- Major 0x2A, format R or X (R65). -/
def dec2A (f : FmtR) : Option Instr :=
  match f.f5 with
  | 0 => opt (decide (0 < f.m6 ∧ f.m6 < 8) && f.noB) (.gtopen (.ofNat 8 f.m6) f.d f.srcA)
  | 1 => opt (decide (f.m6 < 16) && (fbit f.m6 3 || f.noA) && f.noB) (.gtsig (fbit f.m6 3) (fbit f.m6 2) (.ofNat 4 f.m6) f.d f.srcA)
  | 2 => opt (decide (f.m6 < 4) && f.noB) (.gtwait (.ofNat 4 f.m6) f.d f.srcA)
  | 3 => opt (decide (f.m6 < 4) && f.noA && f.noB) (.gtpoll (.ofNat 4 f.m6) f.d)
  | 4 => opt (decide (f.m6 % 8 < 4)) (.gtxfer (.ofNat 8 (f.m6 / 8)) (.ofNat 4 f.m6) f.d f.srcA f.srcB)
  | 5 => opt (decide (f.m6 < 4) && f.noD && f.noA && f.noB) (.gtclose (.ofNat 4 f.m6))
  | _ => none

/-- Major 0x2C, format R or X (R65). -/
def dec2C (f : FmtR) : Option Instr :=
  match f.f5 with
  | 0 => opt (f.noD && f.noA && f.noB) (.trap (.ofNat 64 f.m6))
  | 1 => (opt (f.m6 == 0 && f.noD && f.noA && f.noB) (.eret)) <|> (opt (f.m6 == 1 && f.noD && f.noB) (.eretCtx f.srcA))
  | 2 => (SysReg.ofCode f.m6).bind fun r => opt (f.noA && f.noB) (.mfs r f.d)
  | 3 => (SysReg.ofCode f.m6).bind fun r => opt (f.noD && f.noB) (.mts r f.srcA)
  | 4 => opt (f.m6 == 0 && f.noB) (.sfrec f.d f.srcA)
  | 5 => opt (decide (f.m6 < 4) && f.noB) (.fltinfo (.ofNat 4 f.m6) f.d f.srcA)
  | _ => none

/-- Major 0x2D, format R or X (R65). -/
def dec2D (f : FmtR) : Option Instr :=
  match f.f5 with
  | 0 => (opt (f.m6 == 0 && f.noA && !f.y) (.cntrd f.d f.b)) <|> (opt (decide (32 ≤ f.m6 ∧ f.m6 < 40) && f.noA && f.noB) (.cntrdUnit (.ofNat 8 (f.m6 - 32)) f.d))
  | 1 => opt (decide (f.m6 < 16) && f.noD && f.noA && !f.y) (.cntcfg (.ofNat 16 f.m6) f.b)
  | 2 => opt (f.m6 == 0 && f.noD && f.noA && !f.y) (.cntstop f.b)
  | _ => none

/-- Major 0x2E, format R or X (R65). -/
def dec2E (f : FmtR) : Option Instr :=
  match f.f5 with
  | 0 => opt (decide (f.m6 < 8)) (.evreq (.ofNat 8 f.m6) f.d f.srcA f.srcB)
  | 1 => opt (decide (f.m6 < 8) && f.noB) (.kinst (.ofNat 8 f.m6) f.d f.srcA)
  | 2 => opt (f.m6 == 0 && f.noB) (.cmpsw f.d f.srcA)
  | _ => none

/-- The instruction of a native 32-bit word (bit 0 set), if it matches a record (R65, R66). -/
def decode32 (w : Nat) : Option Instr :=
  if w % 2 = 0 then none else
  match field w 1 6 with
  | 1 => dec01 (splitR w)
  | 2 => dec02 (splitR w)
  | 3 => dec03 (splitK w)
  | 4 => dec04 w
  | 5 => dec05 (splitR w)
  | 6 => dec06 w
  | 7 => dec07 (splitM w)
  | 8 => dec08 (splitR w) w
  | 9 => dec09 w
  | 10 => dec0A (splitR w)
  | 11 => dec0B (splitR w)
  | 12 => dec0C (splitR w)
  | 13 => dec0D w
  | 16 => dec10 (splitR w)
  | 17 => dec11 (splitR w)
  | 18 => dec12 (splitR w)
  | 19 => dec13 (splitR w)
  | 20 => dec14 (splitR w)
  | 21 => dec15 (splitR w)
  | 22 => dec16 (splitR w)
  | 23 => dec17 (splitR w)
  | 24 => dec18 (splitR w)
  | 28 => dec1C (splitM w)
  | 29 => dec1D (splitM w)
  | 30 => dec1E (splitM w)
  | 31 => dec1F (splitR w)
  | 32 => dec20 (splitR w)
  | 33 => dec21 (splitR w)
  | 34 => dec22 (splitR w)
  | 35 => dec23 (splitR w)
  | 36 => dec24 (splitR w)
  | 38 => dec26 (splitR w)
  | 40 => dec28 (splitR w)
  | 41 => dec29 (splitR w)
  | 42 => dec2A (splitR w)
  | 44 => dec2C (splitR w)
  | 45 => dec2D (splitR w)
  | 46 => dec2E (splitR w)
  | _ => none

/-- The instruction of a native 16-bit form (bit 0 clear), if it matches a record (R89, R90). -/
def decode16 (w : Nat) : Option Instr :=
  if w % 2 = 1 then none else
  match field w 1 4 with
  | 0 => opt (w &&& 65504 == 0) (.exit16)
  | 1 => opt (w &&& 57344 == 0) (.mov16 (fin 16 w 5 4) (fin 16 w 9 4))
  | 2 => opt (w &&& 57344 == 0) (.add16 (fin 16 w 5 4) (fin 16 w 9 4))
  | 3 => opt (w &&& 57344 == 0) (.sub16 (fin 16 w 5 4) (fin 16 w 9 4))
  | 4 => opt (w &&& 57344 == 0) (.and16 (fin 16 w 5 4) (fin 16 w 9 4))
  | 5 => opt (w &&& 57344 == 0) (.or16 (fin 16 w 5 4) (fin 16 w 9 4))
  | 6 => opt (w &&& 57344 == 0) (.xor16 (fin 16 w 5 4) (fin 16 w 9 4))
  | 7 => some (.ldi16 (fin 16 w 5 4) (bv w 9 7))
  | 8 => some (.ldI6416 (fin 16 w 5 4) (fin 16 w 9 4) (fin 8 w 13 3))
  | 9 => some (.stI6416 (fin 16 w 5 4) (fin 16 w 9 4) (fin 8 w 13 3))
  | 10 => some (.ldN3216 (fin 16 w 5 4) (fin 16 w 9 4) (fin 8 w 13 3))
  | 11 => some (.stN3216 (fin 16 w 5 4) (fin 16 w 9 4) (fin 8 w 13 3))
  | 12 => some (.bz16 (fin 16 w 5 4) (bv w 9 7))
  | 13 => some (.bnz16 (fin 16 w 5 4) (bv w 9 7))
  | 14 => opt (w &&& 65504 == 0) (.ret16)
  | 15 => opt (w &&& 57344 == 0) (.movF16 (fin 16 w 5 4) (fin 16 w 9 4))
  | _ => none

/-- The instruction of a Gydon halfword; an unassigned opcode or a non-zero unused field has none (R38, R39). -/
def decodeGydon (w : Nat) : Option Instr :=
  match field w 11 5 with
  | 1 => some (.gydonLi)
  | 2 => some (.gydonLhi)
  | 3 => opt (w &&& 31 == 0) (.gydonMv)
  | 4 => opt (w &&& 3 == 0) (.gydonAdd)
  | 5 => opt (w &&& 3 == 0) (.gydonSub)
  | 6 => opt (w &&& 3 == 0) (.gydonAnd)
  | 7 => opt (w &&& 3 == 0) (.gydonOr)
  | 8 => opt (w &&& 3 == 0) (.gydonXor)
  | 9 => opt (w &&& 3 == 0) (.gydonShl)
  | 10 => opt (w &&& 3 == 0) (.gydonShr)
  | 11 => some (.gydonLdb)
  | 12 => some (.gydonLdh)
  | 13 => some (.gydonLdw)
  | 14 => some (.gydonStw)
  | 15 => some (.gydonBeq)
  | 16 => some (.gydonBne)
  | 17 => some (.gydonBlt)
  | 18 => some (.gydonJmp)
  | 19 => opt (w &&& 31 == 0) (.gydonTbl)
  | 20 => some (.gydonField)
  | 21 => opt (w &&& 1823 == 0) (.gydonEmit) <|> opt (w &&& 1823 == 1) (.gydonEmitH)
  | 22 => opt (w &&& 1823 == 0) (.gydonOrig)
  | 23 => opt (w &&& 2047 == 0) (.gydonDone)
  | 24 => opt (w &&& 1823 == 0) (.gydonFail)
  | _ => none

/-- An encoded native instruction: a 16-bit form or a 32-bit word. -/
inductive Enc where
  | half (w : BitVec 16)
  | word (w : BitVec 32)
deriving DecidableEq, Repr

/-- The instruction that an encoding stands for. -/
def decode : Enc → Option Instr
  | .half w => decode16 w.toNat
  | .word w => decode32 w.toNat

/-- The word of format R or X with the given fields (R61). -/
def wordR (maj m6 f5 : Nat) (d : Reg) (a b : Src) : Enc :=
  .word (.ofNat 32 (1 + 2 * (maj + 64 * (d.val + 16 * (a.r.val + 16 * (a.f.toNat + 2 * (b.r.val + 16 * (b.f.toNat + 2 * (f5 + 32 * m6)))))))))

/-- The word of format K with the given fields (R61). -/
def wordK (maj m5 f3 : Nat) (c : Fin 256) (a : Src) (d : Reg) : Enc :=
  .word (.ofNat 32 (1 + 2 * (maj + 64 * (d.val + 16 * (a.r.val + 16 * (a.f.toNat + 2 * (c.val + 256 * (f3 + 8 * m5))))))))

/-- The index fields of format M: no index is AF = 1, A = 15 (R64). -/
def MOff.src (o : MOff) : Src := o.idx.getD ⟨15, true⟩

/-- The word of format M with the given fields (R61). -/
def wordM (maj sz : Nat) (d : Reg) (o : MOff) : Enc :=
  .word (.ofNat 32 (1 + 2 * (maj + 64 * (d.val + 16 * (o.src.r.val + 16 * (o.src.f.toNat + 2 * (o.sg.val + 8 * (o.disp.toNat + 1024 * sz))))))))

/-- The word of format B with the given fields (R61, R126). -/
def wordB (maj cond : Nat) (a b : Src) (p : BitVec 11) : Enc :=
  .word (.ofNat 32 (1 + 2 * (maj + 64 * (cond + 16 * (a.r.val + 16 * (a.f.toNat + 2 * (b.r.val + 16 * (b.f.toNat + 2 * p.toNat))))))))

/-- The word of format J (R61). -/
def wordJ (maj : Nat) (p : BitVec 25) : Enc := .word (.ofNat 32 (1 + 2 * (maj + 64 * p.toNat)))

/-- The word of format L (R61). -/
def wordL (maj : Nat) (d : Reg) (i : BitVec 21) : Enc := .word (.ofNat 32 (1 + 2 * (maj + 64 * (d.val + 16 * i.toNat))))

/-- The encoding of an instruction; a Gydon instruction (its operands are in the halfword) and a step without an encoding
have none. -/
def encode : Instr → Option Enc
  | .gydonLi => none
  | .gydonLhi => none
  | .gydonMv => none
  | .gydonAdd => none
  | .gydonSub => none
  | .gydonAnd => none
  | .gydonOr => none
  | .gydonXor => none
  | .gydonShl => none
  | .gydonShr => none
  | .gydonLdb => none
  | .gydonLdh => none
  | .gydonLdw => none
  | .gydonStw => none
  | .gydonBeq => none
  | .gydonBne => none
  | .gydonBlt => none
  | .gydonJmp => none
  | .gydonTbl => none
  | .gydonField => none
  | .gydonEmit => none
  | .gydonEmitH => none
  | .gydonOrig => none
  | .gydonDone => none
  | .gydonFail => none
  | .gydonReadReply => none
  | .doneComplete => none
  | .add t d a b => some (wordR 1 t.code 0 d a b)
  | .sub t d a b => some (wordR 1 t.code 1 d a b)
  | .rsub t d a b => some (wordR 1 t.code 2 d a b)
  | .mul t d a b => some (wordR 1 t.code 3 d a b)
  | .mulh t d a b => some (wordR 1 t.code 4 d a b)
  | .mulhn t d a b => some (wordR 1 t.code 5 d a b)
  | .and d a b => some (wordR 1 0 6 d a b)
  | .or d a b => some (wordR 1 0 7 d a b)
  | .xor d a b => some (wordR 1 0 8 d a b)
  | .andn d a b => some (wordR 1 0 9 d a b)
  | .shl t d a b => some (wordR 1 t.code 10 d a b)
  | .shr t d a b => some (wordR 1 t.code 11 d a b)
  | .sar t d a b => some (wordR 1 t.code 12 d a b)
  | .rol t d a b => some (wordR 1 t.code 13 d a b)
  | .mov d a => some (wordR 1 0 14 d a ⟨0, false⟩)
  | .clz t d a => some (wordR 2 t.code 0 d a ⟨0, false⟩)
  | .ctz t d a => some (wordR 2 t.code 1 d a ⟨0, false⟩)
  | .popc t d a => some (wordR 2 t.code 2 d a ⟨0, false⟩)
  | .brev t d a => some (wordR 2 t.code 3 d a ⟨0, false⟩)
  | .ext e d a b => some (wordR 2 (e.toNat * 32) 4 d a b)
  | .ins d a b => some (wordR 2 0 5 d a b)
  | .min t d a b => some (wordR 2 t.code 6 d a b)
  | .max t d a b => some (wordR 2 t.code 7 d a b)
  | .minn t d a b => some (wordR 2 t.code 8 d a b)
  | .maxn t d a b => some (wordR 2 t.code 9 d a b)
  | .seteq t d a b => some (wordR 2 t.code 10 d a b)
  | .setne t d a b => some (wordR 2 t.code 11 d a b)
  | .setlt t d a b => some (wordR 2 t.code 12 d a b)
  | .setge t d a b => some (wordR 2 t.code 13 d a b)
  | .setltn t d a b => some (wordR 2 t.code 14 d a b)
  | .setgen t d a b => some (wordR 2 t.code 15 d a b)
  | .sel d a b => some (wordR 2 0 16 d a b)
  | .addConst t d a c => some (wordK 3 t.code 0 c a d)
  | .rsubConst t d a c => some (wordK 3 t.code 1 c a d)
  | .mulConst t d a c => some (wordK 3 t.code 2 c a d)
  | .andConst d a c => some (wordK 3 0 3 c a d)
  | .orConst d a c => some (wordK 3 0 4 c a d)
  | .xorConst d a c => some (wordK 3 0 5 c a d)
  | .shlConst t d a c => some (wordK 3 t.code 6 c a d)
  | .shrConst t d a c => some (wordK 3 t.code 7 c a d)
  | .ldi d i => some (wordL 4 d i)
  | .ldhi d i => some (wordL 6 d i)
  | .lea s d o => some (wordM 7 s.code d o)
  | .div t d a b => some (wordR 5 t.code 0 d a b)
  | .divn t d a b => some (wordR 5 t.code 1 d a b)
  | .rem t d a b => some (wordR 5 t.code 2 d a b)
  | .remn t d a b => some (wordR 5 t.code 3 d a b)
  | .beq a b p => some (wordB 8 0 a b p)
  | .bne a b p => some (wordB 8 1 a b p)
  | .blt a b p => some (wordB 8 2 a b p)
  | .bge a b p => some (wordB 8 3 a b p)
  | .bltn a b p => some (wordB 8 4 a b p)
  | .bgen a b p => some (wordB 8 5 a b p)
  | .bz a p => some (wordB 8 6 a ⟨0, false⟩ p)
  | .bnz a p => some (wordB 8 7 a ⟨0, false⟩ p)
  | .bany a p => some (wordB 8 8 ⟨a, false⟩ ⟨0, false⟩ p)
  | .ball a p => some (wordB 8 9 ⟨a, false⟩ ⟨0, false⟩ p)
  | .jmp p => some (wordJ 9 p)
  | .call p => some (wordJ 13 p)
  | .jmpr a => some (wordR 10 0 0 0 a ⟨0, false⟩)
  | .callr a => some (wordR 10 0 1 0 a ⟨0, false⟩)
  | .ret => some (wordR 10 0 2 0 ⟨0, false⟩ ⟨0, false⟩)
  | .exit => some (wordR 10 0 3 0 ⟨0, false⟩ ⟨0, false⟩)
  | .nop => some (wordR 10 0 4 0 ⟨0, false⟩ ⟨0, false⟩)
  | .kand d a b => some (wordR 11 0 0 d ⟨a, false⟩ ⟨b, false⟩)
  | .kor d a b => some (wordR 11 0 1 d ⟨a, false⟩ ⟨b, false⟩)
  | .kxor d a b => some (wordR 11 0 2 d ⟨a, false⟩ ⟨b, false⟩)
  | .knot d a => some (wordR 11 0 3 d ⟨a, false⟩ ⟨0, false⟩)
  | .kmov d a => some (wordR 11 0 4 d ⟨a, false⟩ ⟨0, false⟩)
  | .kmovFromG d a => some (wordR 11 0 5 d a ⟨0, false⟩)
  | .kmovToG d a => some (wordR 11 0 6 d ⟨a, false⟩ ⟨0, false⟩)
  | .couple d a => some (wordR 12 0 0 d a ⟨0, false⟩)
  | .decouple => some (wordR 12 0 1 0 ⟨0, false⟩ ⟨0, false⟩)
  | .recouple d => some (wordR 12 0 2 d ⟨0, false⟩ ⟨0, false⟩)
  | .gangArrival => none
  | .padd m t d a b => some (wordR 16 (m.toNat * 32 + t.code) 0 d a b)
  | .psub m t d a b => some (wordR 16 (m.toNat * 32 + t.code) 1 d a b)
  | .padds m t d a b => some (wordR 16 (m.toNat * 32 + t.code) 2 d a b)
  | .psubs m t d a b => some (wordR 16 (m.toNat * 32 + t.code) 3 d a b)
  | .pmul m t d a b => some (wordR 16 (m.toNat * 32 + t.code) 4 d a b)
  | .pmulh m t d a b => some (wordR 16 (m.toNat * 32 + t.code) 5 d a b)
  | .pmin m t d a b => some (wordR 16 (m.toNat * 32 + t.code) 6 d a b)
  | .pmax m t d a b => some (wordR 16 (m.toNat * 32 + t.code) 7 d a b)
  | .pavg m t d a b => some (wordR 16 (m.toNat * 32 + t.code) 8 d a b)
  | .pabs m t d a => some (wordR 16 (m.toNat * 32 + t.code) 9 d a ⟨0, false⟩)
  | .pshl m t d a b => some (wordR 16 (m.toNat * 32 + t.code) 10 d a b)
  | .pshr m t d a b => some (wordR 16 (m.toNat * 32 + t.code) 11 d a b)
  | .pcmpEq t k a b => some (wordR 17 t.code 0 k a b)
  | .pcmpNe t k a b => some (wordR 17 t.code 1 k a b)
  | .pcmpLt t k a b => some (wordR 17 t.code 2 k a b)
  | .pcmpGe t k a b => some (wordR 17 t.code 3 k a b)
  | .psel t d a b => some (wordR 17 t.code 4 d a b)
  | .pshuf d a b => some (wordR 17 0 5 d a b)
  | .ppack t d a b => some (wordR 17 t.code 6 d a b)
  | .punpkLo t d a => some (wordR 17 t.code 7 d a ⟨0, false⟩)
  | .punpkHi t d a => some (wordR 17 t.code 8 d a ⟨0, false⟩)
  | .pmac m t d a b => some (wordR 18 (m.toNat * 32 + t.code) 0 d a b)
  | .phadd m t d a b => some (wordR 18 (m.toNat * 32 + t.code) 1 d a b)
  | .psad m t d a b => some (wordR 18 (m.toNat * 32 + t.code) 2 d a b)
  | .scfg g a p => some (wordR 19 g.val 0 0 a ⟨p, false⟩)
  | .sbind p => some (wordR 19 0 1 0 ⟨0, false⟩ ⟨p, false⟩)
  | .sstop p => some (wordR 19 0 2 0 ⟨0, false⟩ ⟨p, false⟩)
  | .scnt d p => some (wordR 19 0 3 d ⟨0, false⟩ ⟨p, false⟩)
  | .streamElementArrival => none
  | .fadd t d a b => some (wordR 20 t.code 0 d a b)
  | .fsub t d a b => some (wordR 20 t.code 1 d a b)
  | .fmul t d a b => some (wordR 20 t.code 2 d a b)
  | .ffma t d a b => some (wordR 20 t.code 3 d a b)
  | .fmin t d a b => some (wordR 20 t.code 4 d a b)
  | .fmax t d a b => some (wordR 20 t.code 5 d a b)
  | .fabs t d a => some (wordR 20 t.code 6 d a ⟨0, false⟩)
  | .fneg t d a => some (wordR 20 t.code 7 d a ⟨0, false⟩)
  | .fcmpEq t d a b => some (wordR 20 t.code 8 d a b)
  | .fcmpLt t d a b => some (wordR 20 t.code 9 d a b)
  | .fcmpLe t d a b => some (wordR 20 t.code 10 d a b)
  | .fcmpUn t d a b => some (wordR 20 t.code 11 d a b)
  | .frnd t d a => some (wordR 20 t.code 12 d a ⟨0, false⟩)
  | .fclass t d a => some (wordR 20 t.code 13 d a ⟨0, false⟩)
  | .fcvt o t s d a => some (wordR 21 (o.toNat * 32 + t.code) s.code d a ⟨0, false⟩)
  | .pfadd m t d a b => some (wordR 22 (m.toNat * 32 + t.code) 0 d a b)
  | .pfmul m t d a b => some (wordR 22 (m.toNat * 32 + t.code) 1 d a b)
  | .pffma m t d a b => some (wordR 22 (m.toNat * 32 + t.code) 2 d a b)
  | .pfmax m t d a b => some (wordR 22 (m.toNat * 32 + t.code) 3 d a b)
  | .pfcvt o t s d a b => some (wordR 22 (o.toNat * 32 + t.code) (s.code - 12) d a b)
  | .baddq t d a b => some (wordR 23 t.code 0 d a b)
  | .bquant t d a b => some (wordR 23 t.code 1 d a b)
  | .bdesc d a => some (wordR 23 0 2 d a ⟨0, false⟩)
  | .dsexp h d a => some (wordR 23 (h.toNat * 32 + 21) 3 d a ⟨0, false⟩)
  | .srcp t d a => some (wordR 24 t.code 0 d a ⟨0, false⟩)
  | .srsq t d a => some (wordR 24 t.code 1 d a ⟨0, false⟩)
  | .ssqrt t d a => some (wordR 24 t.code 2 d a ⟨0, false⟩)
  | .sexp2 t d a => some (wordR 24 t.code 3 d a ⟨0, false⟩)
  | .slog2 t d a => some (wordR 24 t.code 4 d a ⟨0, false⟩)
  | .ssin t d a => some (wordR 24 t.code 5 d a ⟨0, false⟩)
  | .scos t d a => some (wordR 24 t.code 6 d a ⟨0, false⟩)
  | .stanh t d a => some (wordR 24 t.code 7 d a ⟨0, false⟩)
  | .sfdiv t d a b => some (wordR 24 t.code 8 d a b)
  | .sfuRequestStart => none
  | .returnToken => none
  | .ld s d o => some (wordM 28 s.code d o)
  | .st s d o => some (wordM 29 s.code d o)
  | .ldro s d o => some (wordM 30 s.code d o)
  | .pref o => some (wordM 30 7 0 o)
  | .ldx s d a b => some (wordR 31 (s.code * 8) 0 d a b)
  | .ldxW d w => some (wordR 31 56 0 d ⟨0, false⟩ ⟨w, false⟩)
  | .stx s d a b => some (wordR 31 (s.code * 8) 1 d a b)
  | .stxW d w => some (wordR 31 56 1 d ⟨0, false⟩ ⟨w, false⟩)
  | .stash l a g => some (wordR 31 l.val 2 0 a ⟨g, false⟩)
  | .stashOff l => some (wordR 31 (l.val + 32) 2 0 ⟨0, false⟩ ⟨0, false⟩)
  | .wback a g => some (wordR 31 0 3 0 a ⟨g, false⟩)
  | .wbackTile l => some (wordR 31 (l.val + 32) 3 0 ⟨0, false⟩ ⟨0, false⟩)
  | .discard a g => some (wordR 31 0 4 0 a ⟨g, false⟩)
  | .drain => some (wordR 31 0 5 0 ⟨0, false⟩ ⟨0, false⟩)
  | .stashFill => none
  | .translationWalkEnd => none
  | .migrationPullComplete => none
  | .loadReply => none
  | .storeComplete => none
  | .remoteAccess => none
  | .aaddN32 o s d a g => some (wordR 32 (o.code * 16 + s.code) 0 d a ⟨g, false⟩)
  | .aaddI32 o s d a g => some (wordR 32 (o.code * 16 + s.code) 1 d a ⟨g, false⟩)
  | .aadd64 o s d a g => some (wordR 32 (o.code * 16 + s.code) 2 d a ⟨g, false⟩)
  | .aandN32 o s d a g => some (wordR 32 (o.code * 16 + s.code) 3 d a ⟨g, false⟩)
  | .aandI32 o s d a g => some (wordR 32 (o.code * 16 + s.code) 4 d a ⟨g, false⟩)
  | .aand64 o s d a g => some (wordR 32 (o.code * 16 + s.code) 5 d a ⟨g, false⟩)
  | .aorN32 o s d a g => some (wordR 32 (o.code * 16 + s.code) 6 d a ⟨g, false⟩)
  | .aorI32 o s d a g => some (wordR 32 (o.code * 16 + s.code) 7 d a ⟨g, false⟩)
  | .aor64 o s d a g => some (wordR 32 (o.code * 16 + s.code) 8 d a ⟨g, false⟩)
  | .axorN32 o s d a g => some (wordR 32 (o.code * 16 + s.code) 9 d a ⟨g, false⟩)
  | .axorI32 o s d a g => some (wordR 32 (o.code * 16 + s.code) 10 d a ⟨g, false⟩)
  | .axor64 o s d a g => some (wordR 32 (o.code * 16 + s.code) 11 d a ⟨g, false⟩)
  | .aswapN32 o s d a g => some (wordR 32 (o.code * 16 + s.code) 12 d a ⟨g, false⟩)
  | .aswapI32 o s d a g => some (wordR 32 (o.code * 16 + s.code) 13 d a ⟨g, false⟩)
  | .aswap64 o s d a g => some (wordR 32 (o.code * 16 + s.code) 14 d a ⟨g, false⟩)
  | .acasN32 o s d a g => some (wordR 32 (o.code * 16 + s.code) 15 d a ⟨g, false⟩)
  | .acasI32 o s d a g => some (wordR 32 (o.code * 16 + s.code) 16 d a ⟨g, false⟩)
  | .acas64 o s d a g => some (wordR 32 (o.code * 16 + s.code) 17 d a ⟨g, false⟩)
  | .amin o s t d a g => some (wordR 32 (o.code * 16 + s.code) (18 + t.toNat) d a ⟨g, false⟩)
  | .amax o s t d a g => some (wordR 32 (o.code * 16 + s.code) (20 + t.toNat) d a ⟨g, false⟩)
  | .aminn o s t d a g => some (wordR 32 (o.code * 16 + s.code) (22 + t.toNat) d a ⟨g, false⟩)
  | .amaxn o s t d a g => some (wordR 32 (o.code * 16 + s.code) (24 + t.toNat) d a ⟨g, false⟩)
  | .afadd o s d a g => some (wordR 32 (o.code * 16 + s.code) 26 d a ⟨g, false⟩)
  | .atomicAtSlice => none
  | .atomicReply => none
  | .revoke => none
  | .fence o s => some (wordR 33 (o.code * 16 + s.code) 0 0 ⟨0, false⟩ ⟨0, false⟩)
  | .xfence p s => some (wordR 33 p.toNat 1 s ⟨0, false⟩ ⟨0, false⟩)
  | .farCopyInvalidation => none
  | .sweepMarker => none
  | .hioWrite => none
  | .roLineExpiry => none
  | .trinit a => some (wordR 34 0 0 0 a ⟨0, false⟩)
  | .trjoin a => some (wordR 34 0 1 0 a ⟨0, false⟩)
  | .trarrive d a => some (wordR 34 0 2 d a ⟨0, false⟩)
  | .trexpect a b => some (wordR 34 0 3 0 a b)
  | .trwait d a b => some (wordR 34 0 4 d a b)
  | .trtest d a => some (wordR 34 0 5 d a ⟨0, false⟩)
  | .trdrop a => some (wordR 34 0 6 0 a ⟨0, false⟩)
  | .trwaitDeadline => none
  | .chsend n d a => some (wordR 35 n.val 0 d a ⟨0, false⟩)
  | .chrecv n d b => some (wordR 35 n.val 1 d ⟨0, false⟩ ⟨b, false⟩)
  | .chrecvFrom n d a => some (wordR 35 n.val 2 d a ⟨0, false⟩)
  | .chpoll n d => some (wordR 35 n.val 3 d ⟨0, false⟩ ⟨0, false⟩)
  | .flitArrival => none
  | .channelProbeTimer => none
  | .channelProbe => none
  | .channelConfirm => none
  | .cpfill q l d a b => some (wordR 36 (q.toNat * 32 + l.val) 0 d a b)
  | .cpdrain q l d a b => some (wordR 36 (q.toNat * 32 + l.val) 1 d a b)
  | .cpgath q l d a b => some (wordR 36 (q.toNat * 32 + l.val) 2 d a b)
  | .cpscat q l d a b => some (wordR 36 (q.toNat * 32 + l.val) 3 d a b)
  | .cpwait d a => some (wordR 36 0 4 d a ⟨0, false⟩)
  | .cppoll d a => some (wordR 36 0 5 d a ⟨0, false⟩)
  | .tlstat l d => some (wordR 36 l.val 6 d ⟨0, false⟩ ⟨0, false⟩)
  | .tlset l a => some (wordR 36 l.val 7 0 a ⟨0, false⟩)
  | .copyJobStart => none
  | .copyBankWrite => none
  | .copyGlobalWriteAccept => none
  | .copyJobFault => none
  | .copyJobComplete => none
  | .gatewaySeed => none
  | .mxmul q u v w s d a b => some (wordR 38 (q.toNat * 32 + u.toNat * 16 + v.toNat * 8 + w.toNat * 4 + s.val) 0 d a b)
  | .mxmulg q u v w s d a b => some (wordR 38 (q.toNat * 32 + u.toNat * 16 + v.toNat * 8 + w.toNat * 4 + s.val) 1 d a b)
  | .mxzero q s d => some (wordR 38 (q.toNat * 32 + s.val) 2 d ⟨0, false⟩ ⟨0, false⟩)
  | .mxread q s d a => some (wordR 38 (q.toNat * 32 + s.val) 3 d a ⟨0, false⟩)
  | .mxwait d a => some (wordR 38 0 4 d a ⟨0, false⟩)
  | .mxpoll d a => some (wordR 38 0 5 d a ⟨0, false⟩)
  | .matrixJobStart => none
  | .matrixJobComplete => none
  | .matrixJobFault => none
  | .spawn d a b => some (wordR 40 0 0 d a b)
  | .reap a => some (wordR 40 0 1 0 a ⟨0, false⟩)
  | .wake a => some (wordR 40 0 2 0 a ⟨0, false⟩)
  | .wakeV n a b => some (wordR 40 1 2 n a b)
  | .yield => some (wordR 40 0 3 0 ⟨0, false⟩ ⟨0, false⟩)
  | .sleep d a => some (wordR 40 0 4 d a ⟨0, false⟩)
  | .hop d a => some (wordR 40 0 5 d a ⟨0, false⟩)
  | .sleepLimit => none
  | .hopTargetRequest => none
  | .hopImageArrival => none
  | .preempt => none
  | .resume => none
  | .inboxMessage => none
  | .trap n => some (wordR 44 n.val 0 0 ⟨0, false⟩ ⟨0, false⟩)
  | .eret => some (wordR 44 0 1 0 ⟨0, false⟩ ⟨0, false⟩)
  | .eretCtx a => some (wordR 44 1 1 0 a ⟨0, false⟩)
  | .mfs r d => some (wordR 44 r.code 2 d ⟨0, false⟩ ⟨0, false⟩)
  | .mts r a => some (wordR 44 r.code 3 0 a ⟨0, false⟩)
  | .sfrec d a => some (wordR 44 0 4 d a ⟨0, false⟩)
  | .fltinfo i d a => some (wordR 44 i.val 5 d a ⟨0, false⟩)
  | .handlerEntry => none
  | .leadRestart => none
  | .cntrd d n => some (wordR 45 0 0 d ⟨0, false⟩ ⟨n, false⟩)
  | .cntrdUnit u d => some (wordR 45 (u.val + 32) 0 d ⟨0, false⟩ ⟨0, false⟩)
  | .cntcfg e n => some (wordR 45 e.val 1 0 ⟨0, false⟩ ⟨n, false⟩)
  | .cntstop n => some (wordR 45 0 2 0 ⟨0, false⟩ ⟨n, false⟩)
  | .lnch d a b => some (wordR 41 0 0 d a b)
  | .relnch d a b => some (wordR 41 0 1 d a b)
  | .dtmark d a g => some (wordR 41 0 2 d a ⟨g, false⟩)
  | .dtwave d => some (wordR 41 0 3 d ⟨0, false⟩ ⟨0, false⟩)
  | .dtforget => some (wordR 41 0 4 0 ⟨0, false⟩ ⟨0, false⟩)
  | .gtopen r d a => some (wordR 42 r.val 0 d a ⟨0, false⟩)
  | .gtsig v n h d a => some (wordR 42 (v.toNat * 8 + n.toNat * 4 + h.val) 1 d a ⟨0, false⟩)
  | .gtwait h d a => some (wordR 42 h.val 2 d a ⟨0, false⟩)
  | .gtpoll h d => some (wordR 42 h.val 3 d ⟨0, false⟩ ⟨0, false⟩)
  | .gtxfer g h d a b => some (wordR 42 (g.val * 8 + h.val) 4 d a b)
  | .gtclose h => some (wordR 42 h.val 5 0 ⟨0, false⟩ ⟨0, false⟩)
  | .gateTableOperation => none
  | .gateReply => none
  | .gateTransferComplete => none
  | .gateRefillTick => none
  | .gateMigrationSend => none
  | .gateMigrationArrival => none
  | .evreq g d a b => some (wordR 46 g.val 0 d a b)
  | .kinst g d a => some (wordR 46 g.val 1 d a ⟨0, false⟩)
  | .cmpsw d a => some (wordR 46 0 2 d a ⟨0, false⟩)
  | .evidenceComplete => none
  | .keyInstallComplete => none
  | .rotationSweepStep => none
  | .exit16 => some (.half (.ofNat 16 (0)))
  | .mov16 d a => some (.half (.ofNat 16 (2 + d.val * 32 + a.val * 512)))
  | .add16 d a => some (.half (.ofNat 16 (4 + d.val * 32 + a.val * 512)))
  | .sub16 d a => some (.half (.ofNat 16 (6 + d.val * 32 + a.val * 512)))
  | .and16 d a => some (.half (.ofNat 16 (8 + d.val * 32 + a.val * 512)))
  | .or16 d a => some (.half (.ofNat 16 (10 + d.val * 32 + a.val * 512)))
  | .xor16 d a => some (.half (.ofNat 16 (12 + d.val * 32 + a.val * 512)))
  | .ldi16 d i => some (.half (.ofNat 16 (14 + d.val * 32 + i.toNat * 512)))
  | .ldI6416 d a g => some (.half (.ofNat 16 (16 + d.val * 32 + a.val * 512 + g.val * 8192)))
  | .stI6416 d a g => some (.half (.ofNat 16 (18 + d.val * 32 + a.val * 512 + g.val * 8192)))
  | .ldN3216 d a g => some (.half (.ofNat 16 (20 + d.val * 32 + a.val * 512 + g.val * 8192)))
  | .stN3216 d a g => some (.half (.ofNat 16 (22 + d.val * 32 + a.val * 512 + g.val * 8192)))
  | .bz16 d p => some (.half (.ofNat 16 (24 + d.val * 32 + p.toNat * 512)))
  | .bnz16 d p => some (.half (.ofNat 16 (26 + d.val * 32 + p.toNat * 512)))
  | .ret16 => some (.half (.ofNat 16 (28)))
  | .movF16 d a => some (.half (.ofNat 16 (30 + d.val * 32 + a.val * 512)))
  | .launch => none
  | .relaunch => none
  | .mark => none
  | .markStore => none
  | .waitval => none
  | .waitvalSatisfied => none
  | .invalidPacket => none
  | .translationStart => none
  | .launchAdmit => none
  | .seedBlock => none
  | .waveEnd => none
  | .launchComplete => none
  | .uncorrectableError => none
  | .partitionReset => none
  | .watchdogExpiry => none
  | .partitionEnable => none
  | .partitionDisable => none
  | .registerWrite => none
  | .pshoot => none
  | .pshootComplete => none
  | .pdrop => none
  | .doorbellReissue => none
  | .doorbellGiveUp => none
  | .scrubTaggedRequest => none
  | .scrubClearLine => none
  | .gateCreate => none
  | .gateChange => none
  | .gateDestroy => none
  | .gateMigrate => none
  | .createCompartment => none
  | .setFrameTag => none
  | .readCertificate => none
  | .firmwareUpdate => none
  | .thermalReading => none
  | .firmwareMessage => none
  | .permitReturn => none
  | .packageReset => none
  | .pcieLinkTraining => none
  | .linkPartnerDetect => none
  | .linkProbeExchange => none
  | .linkTrainResult => none
  | .linkFlitReceive => none
  | .linkRetrainRequest => none
  | .illegalEncoding => none
  | .fetchFault => none
  | .blockOperationComplete => none
  | .stashWriteBackAcknowledged => none
  | .sliceSumComplete => none
  | .faultRingRegisterWrite => none
  | .pstatRead => none
  | .linkLossOfLock => none

/-- A row of spec/opcode_table.json holds this many bits: a 32-bit word is native, a 16-bit word is a native 16-bit form or,
where it matches no record of those, a Gydon halfword (R24, R59: the mode of the context decides which of the two is decoded). -/
def decodeTableWord (nbits w : Nat) : Option Instr :=
  if nbits = 32 then decode32 (w % 2 ^ 32)
  else if nbits = 16 then
    match decode16 (w % 2 ^ 16) with
    | some i => some i
    | none => decodeGydon (w % 2 ^ 16)
  else none

end Sys2Proof
end

