-- ==== Sys2Proof/Machine/Fetch.lean ====
section
/-! DEFINITION. Choosing the context that issues, fetching its instruction, the passing of time
(03 R59, R60; 06 R140; 13 R254; 14 R265, R266, R271; 15 R293). -/

namespace Sys2Proof.Machine

/-- The context runs, or its wait is over (R265, R82). -/
def State.active (s : State) (g : Nat) (x : Fin 16) : Bool :=
  match (s.ctxAt g x).st with
  | .run => true
  | .parked w => s.waitOver g x w
  | _ => false

/-- A coupled context issues the instruction that the leader has fetched for it; the leader fetches the next one when every member has
completed the one before and none is stopped (R140). [log 12, DEDUCED] -/
def State.gangReady (s : State) (g : Nat) (x : Fin 16) : Bool :=
  match (s.ctxAt g x).gang with
  | none => true
  | some (first, n) => (s.ctxAt g x).gword.isSome || (s.coreIndex g == first && (s.members g first n).all fun m =>
      let c := s.ctxAt m x
      c.gang != some (first, n) || (c.gword.isNone && c.st != .stopped))

/-- READY (R265): its core may issue (R276, R291, R454), the context is active, its last issue was at least 8 cycles ago, and no YIELD of it waits for another. [log 76, DESIGN CHOICE] -/
def State.ready (s : State) (g : Nat) (x : Fin 16) : Bool :=
  let c := s.coreAt g
  let k := c.ctxs[x]
  !c.halted && !s.gated && !c.frozen && s.active g x && decide (k.notBefore ≤ s.cycle)
    && k.yields.all (fun y => !s.active g (ctxNo y)) && s.gangReady g x

/-- The first READY context after the one that issued last (R266). -/
def State.pick (s : State) (g : Nat) : Option (Fin 16) :=
  ((List.range 16).map fun i => ctxNo ((s.coreAt g).lastIssuer + 1 + i)).find? (s.ready g)

/-- The core issues from context x: the rotation, the 8-cycle interval, the waits of YIELD (R265, R266, R271). -/
def State.startIssue (s : State) (g : Nat) (x : Fin 16) : State :=
  let s := (s.focus g x).modCore g fun c =>
    { c with lastIssuer := x.val, issuedAt := s.cycle + 1,
             ctxs := c.ctxs.map fun k => { k with yields := k.yields.filter (· != x.val) } }
  s.modCur fun c => { c with st := .run, notBefore := s.cycle + 8, yields := [] }

/-- A parcel of code read at an offset of sg0, on the RO path (R60, R253, R254). -/
def State.fetchHalf (s : State) (o : W) : Act (Nat × State) := do
  let (loc, a) ← s.seg 0 o 2 2 [.x]
  if loc then
    s.tileGate a
    return (Memory.load s.here.pad a 2, s)
  else
    match s.translate s.core s.cur.comp a { x := true } with
    | (.prot, _) => raise .eprot a
    | (.absent, t) => t.notPresent 2 a
    | (.bad pa, t) => t.lineBad pa
    | (.ok pa e, t) =>
      match t.roRead s.core s.cur.comp pa e with
      | .words w u => return (lineValue w (pa % 64) 2, u)
      | .wait => .error (.park .mem (.scrub e.pa))
      | .bad => t.lineBad pa

/-- A word that the leader of a gang has fetched goes to every coupled member (R140). [log 12, DEDUCED] -/
def State.giveWord (s : State) (w : Nat × Nat) : State :=
  match s.cur.gang with
  | none => s
  | some (first, n) => (s.members s.core first n).foldl (fun s m => s.modCtx m s.ctx fun c =>
      if c.gang = some (first, n) then { c with gword := some w, gout := none } else c) s

/-- The instruction at the pc of the executing context: its word, its length, and the state after the fetch. A member of a gang takes the
word that the leader has fetched (R59, R60, R140). -/
def State.fetch (s : State) : Act (Nat × Nat × State) :=
  match s.cur.gword with
  | some (w, n) => .ok (w, n, s)
  | none => do
    let (lo, s) ← s.fetchHalf s.cur.pc
    if lo % 2 = 0 then return (lo, 2, s.giveWord (lo, 2))
    else
      let (hi, s) ← s.fetchHalf (s.cur.pc + 2)
      return (lo + 65536 * hi, 4, s.giveWord (lo + 65536 * hi, 4))

/-- The halfword at the pc of a translation, or ESEG at or beyond the end of its image (R26). The image is the copy in the translation
area: a page of it that is not present parks the context (R30, R57). [log 77, DEDUCED] -/
def State.gydonFetch (s : State) : Act (Nat × State) :=
  match s.curPart.xlat with
  | none => raise .eseg
  | some t =>
    let a := 2 * s.cur.gyd.pc
    if t.xlen < a + 2 then raise .eseg a
    else match s.translate s.core s.cur.comp (t.vImage + a) { x := true } with
      | (.prot, _) => raise .eprot (t.vImage + a)
      | (.absent, u) => u.notPresent 8 (t.vImage + a)
      | (.bad pa, u) => u.lineBad pa
      | (.ok pa e, u) =>
        match u.lineFor s.core pa e with
        | .words w v => return (lineValue w (pa % 64) 2, v)
        | .wait => .error (.park .mem (.scrub e.pa))
        | .bad => u.lineBad pa

/-- The executing context with an instruction in its instruction register. -/
def State.latch (s : State) (w : Nat) : State := s.modCur fun c => { c with iword := .ofNat 32 w }

/-- The instruction that a native word stands for, or the step that an illegal encoding takes (R66). -/
def nativeInstr (w len : Nat) : Instr :=
  match decode (if len = 2 then .half (.ofNat 16 w) else .word (.ofNat 32 w)) with
  | some i => if i.wf then i else .illegalEncoding
  | none => .illegalEncoding

/-- The instruction that a Gydon halfword stands for (R39). -/
def gydonInstr (w : Nat) : Instr := (decodeGydon w).getD .illegalEncoding

/-- Context x of core g as n cycles pass: events 1 and 3 of its counters; one whose wait is over is parked no more (R293). -/
def State.passCtx (s : State) (g : Nat) (x : Fin 16) (n : Nat) (c : Ctx) : Ctx :=
  let c := { c with fresh := false }
  match c.st with
  | .free => c
  | .parked w => if s.waitOver g x w then c.bump 1 n else (c.bump 1 n).bump 3 n
  | _ => c.bump 1 n

/-- An instruction of a context of partition p has completed in the current cycle (R393). -/
def State.stirring (s : State) (p : Nat) : Bool :=
  s.cores.any fun (g, c) => s.partOfCluster (g / 8) == some p && c.ctxs.any (·.fresh)

/-- n cycles pass; saved cores count none (R295); a partition in which an instruction has completed has made progress (R393). [log 76, DESIGN CHOICE] -/
def State.pass (s : State) (n : Nat) : State :=
  let stir := (List.range 16).map s.stirring
  { s with
    cycle := s.cycle + n
    parts := .ofFn fun p => let t := s.parts[p]; if (stir[p.val]?).getD false then { t with progress := s.cycle } else t
    cores := s.cores.map fun (g, c) =>
      (g, { c with ctxs := .ofFn fun x => if c.away.isSome then { c.ctxs[x] with fresh := false } else s.passCtx g x n c.ctxs[x] }) }

end Sys2Proof.Machine
end

