-- ==== Sys2Proof/Machine/Jobs.lean ====
section
/-! DEFINITION. Reads and writes of global memory by copy and matrix jobs, identifiers and statuses of jobs
(18 R330, R332, R333; 20 R354; 13 R256; 25 R421; 26 R430). -/

namespace Sys2Proof.Machine

/-- How a read of a job ends. -/
inductive JobRead where
  | val (v : Nat) (s : State)
  | wait
  | absent (va : Nat)
  | prot (va : Nat)
  | bad (pa : Nat)
deriving DecidableEq, Repr

/-- A job's read is entered into the read set of the block that issued it; once that block has ended, into its committed record (R382).
[log 81, DEDUCED] -/
def State.noteJobRead (s : State) (g x : Nat) (writer : Option (Nat × Nat)) (va n : Nat) : State :=
  match writer with
  | some (l, i) => if (s.ctxAt g (ctxNo x)).writer = some (l, i) then s.noteRead g (ctxNo x) va n else s.noteLate g l i va n
  | none => s

/-- A read of n bytes within one word, served at the home slice for core g's compartment; the reply passes back through the die's far copy
(R332, R333, R257). -/
def State.jobRead (s : State) (g comp va n : Nat) : JobRead :=
  match s.translate g comp va { r := true } with
  | (.absent, _) => .absent va
  | (.prot, _) => .prot va
  | (.bad pa, _) => .bad pa
  | (.ok pa e, t) =>
    match t.readyScrub (t.partNo g) e with
    | none => .wait
    | some u =>
      match u.readHome (u.partNo g) (pa / 64) e.unscr with
      | some (w, v) => .val (lineValue w (pa % 64) n) (v.passBack (dieOf g) (pa / 8) w[Fin.ofNat 8 (pa / 8)])
      | none => .bad pa

/-- Reads of k pieces of n bytes, lowest address first, as one number. -/
def State.jobReads (s : State) (g comp va n : Nat) : Nat → JobRead
  | 0 => .val 0 s
  | k + 1 =>
    match s.jobRead g comp va n with
    | .val v t =>
      match t.jobReads g comp (va + n) n k with
      | .val r u => .val (v + 256 ^ n * r) u
      | e => e
    | e => e

/-- The writes of k pieces of n bytes may be made: every page is present and writable, and scrub records are there (the number
is not used). -/
def State.jobMayWrite (s : State) (g comp va n : Nat) : Nat → JobRead
  | 0 => .val 0 s
  | k + 1 =>
    match s.translate g comp va { w := true } with
    | (.absent, _) => .absent va
    | (.prot, _) => .prot va
    | (.bad pa, _) => .bad pa
    | (.ok pa e, t) =>
      match t.readyScrub (t.partNo g) e with
      | none => .wait
      | some u => if u.lineLive (pa / 64) then u.jobMayWrite g comp (va + n) n k else .bad pa

/-- Writes of k pieces of n bytes of a number at their home slices: no owner; the acknowledgement passes back through the die's far copy,
and those of the other dies are invalidated (R256, R257). -/
def State.jobWrites (s : State) (g comp va n v : Nat) (writer : Option (Nat × Nat)) : Nat → State
  | 0 => s
  | k + 1 =>
    match s.translate g comp va { w := true } with
    | (.ok pa _, t) =>
      (t.perform (t.partNo g) pa n (v % 256 ^ n) none (some g) (some (dieOf g)) writer).jobWrites g comp (va + n) n (v / 256 ^ n) writer k
    | _ => s

/-- The identifier after another: modulo 2^16, skipping 0 (R330, R354). -/
def nextId (id : Nat) : Nat := if id ≥ 65535 then 1 else id + 1

/-- A status put before the statuses kept: the 16 jobs that completed most recently (R330, R354). -/
def keepStat (l : List JobStat) (j : JobStat) : List JobStat := (j :: l).take 16

/-- Context x of core g has a copy or matrix job queued or running (R273). -/
def State.hasJobs (s : State) (g x : Nat) : Bool :=
  (s.copyJobs g).any (fun j => j.ctx == x && !j.gone) || (s.mxJobs g).any fun j => j.ctx == x && !j.gone

/-- The context that a job counts for: the one that issued it, until it has ended (R293). [log 87, DEDUCED] -/
def State.countJob (s : State) (g x e : Nat) (gone : Bool) : State := if gone then s else s.modCtx g (ctxNo x) fun c => c.bump e 1

/-- The partition of core g has made progress: an engine job of it has completed (R393). -/
def State.advanced (s : State) (g : Nat) : State := s.modPart (s.partNo g) fun p => { p with progress := s.cycle }

/-- The request is that of a blocking job. -/
def Req.isJob : Req → Bool
  | .copyJob .. | .mxJob .. => true
  | _ => false

/-- The status of a job is written to the context that waits on it with the blocking form; a fault in it is then raised, unless the
context has stopped past the instruction, or its request is set aside, or its core is stopped for a pre-emption: the status is then the result,
as a pending token (R329, R335, R353, R359, R458). [log 88, DEDUCED] -/
def State.endBlocking (s : State) (g : Nat) (x : Fin 16) (d : Reg) (status : W) (fault : Option (FaultCode × Nat × Nat)) : State :=
  match fault, (s.ctxAt g x).st with
  | some (c, sub, addr), .parked _ =>
    if (s.coreAt g).frozen || (s.ctxAt g x).later then (s.reply g x d status).getD s
    else (s.modCtx g x fun k => k.setG d status).failReq g x c sub addr
  | _, _ => (s.reply g x d status).getD s

/-- A block operation of a context of core g has issued and its write is still to come: a job that reads the scratchpad waits for it (R186,
R357). -/
def State.blockComing (s : State) (g : Nat) : Bool :=
  (s.coreAt g).ctxs.any fun c => match c.st, c.req with | .parked _, some (.block ..) => true | _, _ => false

end Sys2Proof.Machine
end

