-- ==== Sys2Proof/Machine/Contexts.lean ====
section
/-! DEFINITION. Contexts: SPAWN, REAP, WAKE, YIELD, SLEEP, preparing a core for a launch, HOP (14 R265 to R274; 22 R375). -/

namespace Sys2Proof.Machine

/-! ### The lead's instructions (R267 to R271) -/

/-- The context that a number names: 1 to 15, and not one that translates (R267, R27). -/
def State.namedCtx (s : State) (v : W) : Act (Fin 16) := do
  faultIf (v = 0 ∨ v.toNat ≥ 16) .ectx
  let x := ctxNo v.toNat
  faultIf (match (s.ctxAt s.core x).role with | .translator _ => true | _ => false) .ectx
  return x

/-- Context x of core g is context 15 of its partition's first core, which a translation has reserved (01 R21, 22 R376). -/
def State.reserved15 (s : State) (g : Nat) (x : Fin 16) : Bool :=
  x == 15 && g == 8 * (s.partOf g).base && (s.partOf g).xlat.isSome

/-- Context x of core g has been granted to an image that is on its way (R273, R274). [log 83, DEDUCED] -/
def State.granted (s : State) (g : Nat) (x : Fin 16) : Bool := s.hops.any fun h => h.core == g && h.ctx == x

/-- Context x of core g is FREE, and neither reserved for a translation nor granted to an arriving image (R267, R273, R376). -/
def State.spare (s : State) (g : Nat) (x : Fin 16) : Bool := (s.ctxAt g x).st == .free && !s.reserved15 g x && !s.granted g x

/-- A helper as SPAWN starts it (R268, R430). -/
def State.helper (s : State) (pc seed : W) : Ctx :=
  { st := .run, notBefore := s.cycle + 8, pc := pc, g := (Vector.replicate 16 0).set 0 seed, sgb := s.cur.sgb, sgl := s.cur.sgl,
    fpc := s.cur.fpc, role := .helper }

/-- SPAWN (R268). -/
def execSpawn (d : Reg) (a b : Src) (s : State) : Host.Outcome State Fault Refusal :=
  finish s do
    s.leadOnly
    let t ← s.readRegs [a, b, plain d] none
    let x ← t.namedCtx (t.g a.r)
    faultIf (!t.spare t.core x) .ectx
    faultIf ((t.g b.r).getLsbD 0) .ealign 0 (t.g b.r).toNat
    return (t.setCtxAt t.core x (t.helper (t.g b.r) (t.g d))).advance 4

/-- REAP: x leaves rotation, and the lead waits for its stores and for a request that has left the core (R269, R236). -/
def execReap (a : Src) (s : State) : Host.Outcome State Fault Refusal :=
  finish s do
    s.leadOnly
    let t ← s.readRegs [a] none
    let x ← t.namedCtx (t.g a.r)
    let c := t.ctxAt t.core x
    if c.st = .free then return t.advance 4
    else
      let t := if c.reaping then t else t.startReap t.core x
      if t.reapWaits t.core x then .error (.held (t.hold .ctx (.reap x.val) 4))
      else
        let (t, w) := t.finishReap t.core x
        return (t.wakeRecouple 1024 w).advance 4

/-- A wake of context x of core g: a SLEEP completes with 1, or with 0 when its limit has passed and the wake is then pending; any
other context that is not FREE keeps the wake pending (R270, R272). -/
def State.wake (s : State) (g : Nat) (x : Fin 16) : State :=
  let c := s.ctxAt g x
  let pend := fun (s : State) => s.modCtx g x fun c => { c with pendWake := true }
  match c.st, c.req with
  | .free, _ => s
  | .parked _, some (.sleep d) =>
    if c.late s.cycle then pend (s.endWait g x d 0) else s.endWait g x d 1
  | _, _ => pend s

/-- WAKE (R270). -/
def execWake (a : Src) (s : State) : Host.Outcome State Fault Refusal :=
  finish s do
    s.leadOnly
    let t ← s.readRegs [a] none
    let x ← t.namedCtx (t.g a.r)
    return (t.wake t.core x).advance 4

/-- A value put into a register of a context from outside: what an abandoned instruction would give back to the register becomes the
value too (R122, R270). -/
def Ctx.wakeValue (c : Ctx) (n : Reg) (v : W) : Ctx :=
  let ports := c.undo.ports.map fun e => if 8 + e.1 = n.val then (e.1, e.2.1, v) else e
  { c with undo := { c.undo with ports := ports } }.setG n v

/-- WAKE.V with register n and a value: it never sets the pending wake; a SLEEP that names n completes with 1 over the value, and one whose
limit has passed has completed with 0 before (R270, R272). -/
def State.wakeV (s : State) (g : Nat) (x : Fin 16) (n : Reg) (v : W) : State :=
  let c := s.ctxAt g x
  let put := fun (s : State) => s.modCtx g x fun c => c.wakeValue n v
  match c.st, c.req with
  | .free, _ => s
  | .parked _, some (.sleep d) =>
    if c.late s.cycle then put (s.endWait g x d 0) else if d = n then (put s).endWait g x d 1 else put s
  | _, _ => put s

/-- WAKE.V (R270). -/
def execWakeV (n : Reg) (a b : Src) (s : State) : Host.Outcome State Fault Refusal :=
  finish s do
    s.leadOnly
    let t ← s.readRegs [a, b] none
    let x ← t.namedCtx (t.g a.r)
    return (t.wakeV t.core x n (t.g b.r)).advance 4

/-- YIELD: the context waits for one issue of every other context that is READY or WAITING now (R271). -/
def execYield (s : State) : Host.Outcome State Fault Refusal :=
  finish s
    (let others := (List.finRange 16).filter fun y => y != s.ctx && s.active s.core y
     .ok ((s.modCur fun c => { c with yields := others.map (·.val) }).advance 4))

/-! ### SLEEP (R272) -/

/-- SLEEP: a pending wake ends it at once; a reissued one keeps its deadline (R272, R458). -/
def execSleep (d : Reg) (a : Src) (s : State) : Host.Outcome State Fault Refusal :=
  finish s do
    let t ← s.readRegs [a] (some d)
    let lim := (t.g a.r).toNat
    let dl := match s.cur.deadline with
      | some v => some v
      | none => if lim = 0 then none else some (t.cycle + lim)
    if t.cur.pendWake then
      let u ← (t.modCur fun c => { c with pendWake := false, deadline := none }).writeReg d 1
      return u.advance 4
    else if (match dl with | some v => decide (v ≤ t.cycle) | none => false) then
      let u ← (t.modCur fun c => { c with deadline := none }).writeReg d 0
      return u.advance 4
    else .error (.held ((t.hold .sleep (.sleep d) 4).modCur fun c => { c with deadline := dl }))

/-- The SLEEP of context x of core g ends when its limit has passed (R272). -/
def State.sleepOver (s : State) (g : Nat) (x : Fin 16) : Option State :=
  let c := s.ctxAt g x
  match c.st, c.req, c.deadline with
  | .parked _, some (.sleep d), some v => if v ≤ s.cycle then some (s.endWait g x d 0) else none
  | _, _, _ => none

/-- SLEEP_LIMIT: the limit of the SLEEP of context x of core g passes (R272). -/
def execSleepLimit (s : State) : Host.Outcome State Fault Refusal :=
  if (s.coreAt s.ev.g).frozen then event s none else event s (s.sleepOver s.ev.g (ctxNo s.ev.x))

/-! ### Preparing a core for a launch (R88, R375, R397) -/

/-- The launch of a context's block. -/
def Ctx.launchOf (c : Ctx) : Option Nat := match c.role with | .block l _ => some l | _ => none

/-- Launch x of partition p. -/
def State.launchAt (s : State) (p x : Nat) : Option Launch := aget? (s.part p).launches x

/-- The doubles of a list as little-endian bytes. -/
def doubles (l : List W) : List Byte := (l.map fun v => toBytes 8 v.toNat).flatten

/-- Every dirty word of the core's stash tiles is written back (R276 step 3, R210). -/
def State.backAll (s : State) (g : Nat) : State :=
  (List.finRange 24).foldl (fun s t =>
    (List.range 128).foldl (fun s i =>
      match ((s.coreAt g).tiles[t]).stash with
      | some m => if m.dirty.getLsbD i then s.writeBack g t m i else s
      | none => s) s) s

/-- Core g has been prepared for launch x and for its current wave (R375, R397). -/
def State.preparedFor (s : State) (x : Nat) (l : Launch) (g : Nat) : Bool :=
  let c := s.coreAt g
  l.prepared.contains g && c.launch == some x && c.lwave == l.wave

/-- The actions before the first block of a launch or of a wave issues on core g (R375, R397): constants, windows, channels, stash tiles,
accumulators, the acquire at PART; a launch new to the core also leaves the tiles READY, restarts job identifiers and empties the cluster's
read-only cache (R254, R322, R330, R354). [log 43, DEDUCED] [log 125, DESIGN CHOICE] -/
def State.prepCore (s : State) (x : Nat) (l : Launch) (g : Nat) : State :=
  let fresh := (s.coreAt g).launch != some x
  let window := doubles ((idWords s g l.blocks).map (.ofNat 64)) ++ l.konst ++ List.replicate (1920 - l.konst.length) 0
  let s := s.backAll g
  let s := s.modCore g fun c => (List.finRange 24).foldl (fun c t => c.unstash t) c
  let s := s.modCore g fun c =>
    { c.acquire with pad := Memory.putAll c.pad 0 window, win := .replicate 4 0, chans := .replicate 4 [], acc := [], launch := some x
                     lwave := l.wave }
  if fresh then (s.emptyRo (g / 8)).modCore g fun c => { c with tiles := .replicate 24 {}, copyId := 1, mxId := 1, mxEnded := [] }
  else s

/-- The acquire's sweep before the first block on a core finds no invalidation on its way to the core's die, where PART takes the cross-die
actions (R260, R375). [log 57, DEDUCED] -/
def State.sweptFor (s : State) (p g : Nat) : Bool := !(s.part p).multiDie || !s.invals.any fun v => v.die == dieOf g

/-- Core g is prepared before the first block of launch x of partition p there issues, whether it is seeded or arrives by HOP; none: its
queues are not empty, or an invalidation of the acquire's sweep is still on its way (R375, R342). [log 43, DEDUCED] [log 57, DEDUCED] [log 53, DEDUCED] -/
def State.readyCore (s : State) (p x : Nat) (l : Launch) (g : Nat) : Option State :=
  let s := if l.gw then s.modPart p fun r => { r with gwCores := if r.gwCores.contains g then r.gwCores else g :: r.gwCores } else s
  if s.preparedFor x l g then some s
  else if !s.sweptFor p g || !(s.copyJobs g).isEmpty || !(s.mxJobs g).isEmpty then none
  else some ((s.prepCore x l g).modPart p fun t => { t with launches := t.launches.map fun e =>
    if e.1 = x then (x, { e.2 with prepared := if e.2.prepared.contains g then e.2.prepared else g :: e.2.prepared }) else e })

/-! ### HOP (R273, R274) -/

/-- HOP: the checks of step 1; the wait of DRAIN; then the context parks (R273, R82). A member of a gang takes ECTX with all the others, also
when the gang has parted since its leader fetched the HOP (R141). -/
def execHop (d : Reg) (a : Src) (s : State) : Host.Outcome State Fault Refusal :=
  finish s do
    let t ← s.readRegs [a] (some d)
    let i := (t.g a.r).toNat
    faultIf (i ≥ t.coreCount t.core) .eseg
    if t.cur.gang.isSome || t.cur.gword.isSome then .error (.fault .ectx 0 0 true)
    faultIf (t.ctx = 0 || t.cur.trm.any (fun v => v.getLsbD 63) || t.hasJobs t.core t.ctx.val) .ectx
    if t.here.storesOf t.ctx.val then .error (.park .drain .drained)
    else .error (.held (t.hold .hop (.hop d i) 4))

/-- Core t holds, or is about to receive, a block of a launch other than the one of context c of core g; a helper counts for the launch of
its core. -/
def State.otherLaunch (s : State) (g : Nat) (c : Ctx) (t : Nat) : Bool :=
  let mine := match c.launchOf with | some l => some l | none => (s.coreAt g).launch
  let other := fun (k : Ctx) => match k.launchOf with | some l => mine != some l | none => false
  (s.coreAt t).ctxs.any other || s.hops.any fun h => h.core == t && other h.image

/-- The FREE context of core t that is granted: the wished one, or the lowest (R273). -/
def State.freeCtx (s : State) (t : Nat) (wish : Fin 16) : Option (Fin 16) :=
  let free := fun (y : Fin 16) => y != 0 && s.spare t y
  if free wish then some wish else (List.finRange 16).find? free

/-- The image of context x of core g leaves for context y of core t: the source becomes FREE, and the block runs there once the image
has arrived; meanwhile it is nowhere to be seen (R273 step 5, R274). -/
def State.sendImage (s : State) (g : Nat) (x : Fin 16) (t : Nat) (y : Fin 16) (d : Reg) : State :=
  let c := s.ctxAt g x
  let image : Ctx := { c.dropAhead with
    req := some (.hopIn d none), undo := { clamp := c.undo.clamp }, prog := none, yields := []
    cores := if dieOf g = dieOf t then g :: c.cores.filter (· != g) else [] }
  let s := (s.withdraw g x.val).setCtxAt g x {}
  let s : State := { s with hops := s.hops ++ [{ core := t, ctx := y, src := g, image := image }] }
  match c.role with
  | .block l i => s.modPart (s.partNo g) fun p => { p with launches := p.launches.map fun e =>
      if e.1 = l then (e.1, { e.2 with live := e.2.live.map fun b => if b = (i, g, x.val) then (i, t, y.val) else b }) else e }
  | _ => s

/-- The HOP of context x of core g asks its target, once the store wait and the release are over (R273 steps 2 to 5). [log 83, DEDUCED] -/
def State.hopAsks (s : State) (g : Nat) (x : Fin 16) (d : Reg) (i : Nat) : Option State :=
  let t := s.coreNo g i
  if (s.coreAt g).storesOf x.val || (s.coreAt g).frozen then none
  else
    let p := (s.ctxAt g x).prog.getD (s.newProg g)
    let far := dieOf g != dieOf t && (g :: (s.ctxAt g x).cores).any s.farPending
    if !s.released g p.seq .die || far then some (s.modCtx g x fun c => { c with prog := some p })
    else if (s.coreAt t).away.isSome then none
    else
      match s.freeCtx t (ctxNo s.ev.n), s.otherLaunch g (s.ctxAt g x) t with
      | some y, false => some (s.sendImage g x t y d)
      | _, _ => s.reply g x d 0

/-- HOP_TARGET_REQUEST: the target of the HOP of context x of core g grants its FREE context n, another FREE one, or refuses (R273). [log 83, DEDUCED] -/
def execHopTargetRequest (s : State) : Host.Outcome State Fault Refusal :=
  let g := s.ev.g
  let x := ctxNo s.ev.x
  match (s.ctxAt g x).st, (s.ctxAt g x).req with
  | .parked _, some (.hop d i) => event s (s.hopAsks g x d i)
  | _, _ => event s none

/-- The core at which an image arrives is made ready for its block's launch (R88, R375). -/
def State.readyHop (s : State) (g : Nat) (c : Ctx) : Option State :=
  match c.launchOf with
  | some l => (match s.launchAt (s.partNo g) l with | some q => s.readyCore (s.partNo g) l q g | none => some s)
  | none => some s

/-- A HOP image acts at core g, once its sweep of arrival is over: it is installed as context x, with the acquire of arrival and gD ← 1
(R273 step 6). -/
def State.hopArrives (s : State) (g : Nat) (x : Fin 16) : Option State :=
  match s.hops.find? fun h => h.core == g && h.ctx == x with
  | some h =>
    match h.image.req with
    | some (.hopIn d none) =>
      let sweep := if dieOf g = dieOf h.src then [] else s.markers
      some { s with hops := s.hops.map fun k =>
        if k.core = g ∧ k.ctx = x then { k with image := { k.image with req := some (.hopIn d (some sweep)) } } else k }
    | some (.hopIn d (some [])) =>
      match s.readyHop g h.image with
      | some t =>
        let t : State := { t with hops := t.hops.filter fun k => !(k.core == g && k.ctx == x) }
        ((t.setCtxAt g x (h.image.parkOn .hop .agent t.cycle)).acquire g x .die).reply g x d 1
      | none => none
    | _ => none
  | none => none

/-- HOP_IMAGE_ARRIVAL: the image granted to context x of core g arrives; a saved core's inbox takes it (R273, R274). -/
def execHopImageArrival (s : State) : Host.Outcome State Fault Refusal :=
  let g := s.ev.g
  let x := ctxNo s.ev.x
  if !s.granted g x then event s none
  else if (s.coreAt g).away.isSome then event s (some (s.toInbox g (.hop g x.val)))
  else if (s.coreAt g).frozen then event s none
  else event s (s.hopArrives g x)

/-! ### Words that describe a context (R81, R135) -/

/-- CTXSTAT of context x of core g (R81). -/
def State.ctxstat (s : State) (g : Nat) (x : Fin 16) : W :=
  let c := s.ctxAt g x
  let bit := fun (b : Bool) (i : Nat) => if b then 2 ^ i else 0
  .ofNat 64 (c.park.code * 2 ^ 48 + bit c.clamped 15 + bit c.gydonMode 12 + bit (x == 0) 11 + bit c.gang.isSome 10 + bit c.trace 9
    + bit (s.partOf g).guest 8 + x.val)

/-- RSTK (R135). -/
def Ctx.rstkWord (c : Ctx) : Nat := c.sc % 2 ^ 32 * 256 + c.rstk.length

/-- The writable bits of GEOM (R350). -/
def geomMask : W := 0xFFFFFFFFFF00FFFF

end Sys2Proof.Machine
end

