-- ==== Sys2Proof/Machine/Trusses.lean ====
section
/-! DEFINITION. Truss instructions (17 R303 to R314). -/

namespace Sys2Proof.Machine

/-- The address check of a truss object (R303). -/
def State.trussGate (s : State) (v : W) : Act Nat := do
  let a := v.toNat
  faultIf (a < 0x0800 ∨ a + 32 > 0x6000) .eseg 0 a
  faultIf (a % 32 ≠ 0) .ealign 0 a
  s.tileGate a
  return a

/-- m(x): a valid membership of the executing context names the truss (R308). -/
def Ctx.isMember (c : Ctx) (a : Nat) : Bool := c.trm.any fun v => v.getLsbD 63 && bitsOf v 0 15 == a

/-- The truss is live, or ETRUSS 1; the executing context is a member, or ETRUSS 5 (R308). -/
def State.liveMember (s : State) (t : Truss) (a : Nat) : Act Unit := do
  faultIf (!t.live) .etruss 1 a
  faultIf (!s.cur.isMember a) .etruss 5 a

/-- The executing context has arrived in the current phase. -/
def State.arrived (s : State) (t : Truss) : Bool := natBit t.arr s.ctx.val

/-- The truss with the arrival or membership bits of the executing context set or cleared. -/
def bitSet (n x : Nat) (b : Bool) : Nat := if b then n ||| 2 ^ x else n &&& (0xFFFF ^^^ 2 ^ x)

/-- The object is written and Complete runs, in one bank action (R305, R309). -/
def State.endTruss (s : State) (a : Nat) (t : Truss) : State := s.modHere fun c => (c.setTruss a t).complete a s.cycle

/-- Every waiter of the object wakes with 2 (R308). -/
def CoreSt.trussReset (c : CoreSt) (a : Nat) (cycle : Nat) : CoreSt :=
  { c with ctxs := c.ctxs.map fun x =>
      match x.req with
      | some (.trwait d b _) => if b = a then c.endWaiter x d 2 cycle else x
      | _ => x }

/-- TRINIT (R308). -/
def execTrinit (a : Src) (s : State) : Host.Outcome State Fault Refusal :=
  finish s do
    let t ← s.readOps [a] [] 6
    let p ← t.trussGate (t.g a.r)
    let o := t.here.truss p
    faultIf (o.live && o.mem != 0) .etruss 2 p
    let t := t.modHere fun c => c.trussReset p t.cycle
    return (t.endTruss p { phase := false, live := true, bytes := 0, arr := 0, mem := 0 }).advance 4

/-- The first free membership slot. -/
def Ctx.freeTrm (c : Ctx) : Option (Fin 4) := (List.finRange 4).find? fun i => !(c.trm[i]).getLsbD 63

/-- TRJOIN (R306, R308). -/
def execTrjoin (a : Src) (s : State) : Host.Outcome State Fault Refusal :=
  finish s do
    let t ← s.readOps [a] [] 6
    let p ← t.trussGate (t.g a.r)
    let o := t.here.truss p
    faultIf (!o.live) .etruss 1 p
    faultIf (t.cur.isMember p) .etruss 3 p
    match t.cur.freeTrm with
    | none => raiseSub .etruss 4 p
    | some i =>
      let x := t.ctx.val
      let t := t.modCur fun c => { c with trm := c.trm.set i (.ofNat 64 (2 ^ 63 + p)) }
      return (t.endTruss p { o with mem := bitSet o.mem x true, arr := bitSet o.arr x false }).advance 4

/-- TRARRIVE (R308). -/
def execTrarrive (d : Reg) (a : Src) (s : State) : Host.Outcome State Fault Refusal :=
  finish s do
    let t ← s.readOps [a] [d] 6
    let p ← t.trussGate (t.g a.r)
    let o := t.here.truss p
    t.liveMember o p
    faultIf (t.arrived o) .etruss 6 p
    let t := t.modCur fun c => c.setG d (W.ofBool o.phase)
    return (t.endTruss p { o with arr := bitSet o.arr t.ctx.val true }).advance 4

/-- TREXPECT (R308). -/
def execTrexpect (a b : Src) (s : State) : Host.Outcome State Fault Refusal :=
  finish s do
    let t ← s.readOps [a, b] [] 6
    let p ← t.trussGate (t.g a.r)
    let o := t.here.truss p
    t.liveMember o p
    faultIf (t.arrived o) .etruss 6 p
    let n := (t.g b.r).toNat
    faultIf (signedOf 32 o.bytes + n > 2 ^ 31 - 1) .etruss 7 p
    return (t.endTruss p { o with bytes := (o.bytes + n) % 2 ^ 32 }).advance 4

/-- TRWAIT: a phase that has ended completes at once; a reissued wait keeps its deadline (R308, R309). -/
def execTrwait (d : Reg) (a b : Src) (s : State) : Host.Outcome State Fault Refusal :=
  finish s do
    let t ← s.readOps [a, b, plain d] [d] 6
    let p ← t.trussGate (t.g a.r)
    let o := t.here.truss p
    faultIf (!o.live) .etruss 1 p
    let k := (t.g b.r).getLsbD 0
    let lim := (t.g d).toNat
    faultIf (t.cur.isMember p && !t.arrived o && k == o.phase) .etruss 8 p
    let dl := match s.cur.deadline with
      | some v => some v
      | none => if lim = 0 then none else some (t.cycle + lim)
    if o.phase ≠ k then
      return ((t.modCur fun c => { (c.setG d 1).bump 15 1 with deadline := none }).endTruss p o).advance 4
    else if t.cur.late t.cycle then
      return ((t.modCur fun c => { (c.setG d 0).bump 15 1 with deadline := none }).endTruss p o).advance 4
    else
      let t := (t.hold .truss (.trwait d p k) 4).modCur fun c => { c with deadline := dl }
      .error (.held (t.endTruss p o))

/-- The result of TRTEST (R308). -/
def Truss.test (t : Truss) : W :=
  let n := ((List.range 16).filter (natBit t.missing)).length
  .ofNat 64 (t.bytes * 2 ^ 32 + n * 256 + (if t.live then 2 else 0) + (if t.phase then 1 else 0))

/-- TRTEST (R308). -/
def execTrtest (d : Reg) (a : Src) (s : State) : Host.Outcome State Fault Refusal :=
  finish s do
    let t ← s.readOps [a] [d] 6
    let p ← t.trussGate (t.g a.r)
    let o := t.here.truss p
    return ((t.modCur fun c => c.setG d o.test).endTruss p o).advance 4

/-- TRDROP (R308). -/
def execTrdrop (a : Src) (s : State) : Host.Outcome State Fault Refusal :=
  finish s do
    let t ← s.readOps [a] [] 6
    let p ← t.trussGate (t.g a.r)
    let o := t.here.truss p
    t.liveMember o p
    let x := t.ctx.val
    let t := t.modCur fun c => { c with trm := c.trm.map fun v => if v.getLsbD 63 && bitsOf v 0 15 == p then 0 else v }
    return (t.endTruss p { o with mem := bitSet o.mem x false, arr := bitSet o.arr x false }).advance 4

/-- TRWAIT_DEADLINE: the cycle of the deadline of the TRWAIT of context x of core g is over, with every action of that cycle, and the
wait ends in that cycle (R308, R309, R313). -/
def execTrwaitDeadline (s : State) : Host.Outcome State Fault Refusal :=
  let g := s.ev.g
  let x := ctxNo s.ev.x
  let c := s.ctxAt g x
  match c.st, c.req, c.deadline with
  | .parked _, some (.trwait d _ _), some v =>
    if v < s.cycle ∧ (s.coreAt g).away.isNone then .next (s.modCtx g x fun c => c.endTrwait d 0 v) else .next s
  | _, _, _ => .next s

end Sys2Proof.Machine
end

