-- ==== Sys2Proof/Machine/Copy.lean ====
section
/-! DEFINITION. The copy unit: copy records, job instructions, tiles, the steps of a running job (18 R322 to R338). -/

namespace Sys2Proof.Machine

/-! ### The copy record (R324 to R327) -/

/-- CNT0, CNT1, LOFF, IDX, ESZ, PW, SG of a record. -/
def recCnt0 (r : Nat) : Nat := natBits r 64 16
def recCnt1 (r : Nat) : Nat := natBits r 80 16
def recLoff (r : Nat) : Nat := natBits r 160 16
def recIdx (r : Nat) : Nat := natBits r 176 16
def recEsz (r : Nat) : Nat := natBits r 192 3
def recPlanes (r : Nat) : Bool := natBit r 195
def recSg (r : Nat) : Fin 8 := Fin.ofNat 8 (natBits r 196 3)
def recRel (r : Nat) : Bool := natBit r 199
def recPw (r : Nat) : Nat := natBits r 200 8
/-- The strides of a record. -/
def recStr0 (r : Nat) : Int := signedOf 32 (natBits r 96 32)
def recStr1 (r : Nat) : Int := signedOf 32 (natBits r 128 32)

/-- The alignment a of a record (R325). -/
def recAlign (r : Nat) : Nat := Nat.min (2 ^ recEsz r) 8

/-- A box record's requirements besides IDX (R325). -/
def recBox (r : Nat) : Bool :=
  recEsz r ≤ 6 && recPw r == 0 && recCnt0 r * recCnt1 r * 2 ^ recEsz r + recLoff r ≤ 1024 && recLoff r % recAlign r == 0

/-- A PLANES record's requirements (R325). -/
def recPlanesOk (r : Nat) : Bool :=
  recEsz r == 0 && [1, 2, 4, 8].contains (recPw r) && recCnt0 r ≤ 64 && recCnt1 r ≤ 16 && recStr0 r == 0 && recIdx r == 0
    && recLoff r % 128 == 0 && recLoff r / 128 + recPw r ≤ 8 && !recRel r

/-- A record valid for a kind of job (R325). -/
def recValid (k : CopyKind) (r : Nat) : Bool :=
  let common := natBits r 208 48 == 0 && 1 ≤ recCnt0 r && recCnt0 r ≤ 1024 && 1 ≤ recCnt1 r && recCnt1 r ≤ 1024
  let list := recBox r && recCnt1 r == 1 && recStr0 r == 0 && recStr1 r == 0 && recIdx r % 4 == 0 && recIdx r + 4 * recCnt0 r ≤ 0x6000
  common && (match k with
    | .fill => !recRel r && (if recPlanes r then recPlanesOk r else recBox r && recIdx r == 0)
    | .drain => !recPlanes r && recBox r && recIdx r == 0
    | .gath => !recRel r && !recPlanes r && list
    | .scat => !recPlanes r && list)

/-- Elements, or rows of planes, of a job (R330). -/
def recTotal (r : Nat) : Nat := if recPlanes r then recCnt1 r else recCnt0 r * recCnt1 r

/-- Bytes of an element, or of a row of planes (R326, R327). -/
def recBytes (r : Nat) : Nat := if recPlanes r then (recCnt0 r * recPw r + 7) / 8 else 2 ^ recEsz r

/-- Bytes of the tile that a job covers, from LOFF. -/
def recSpan (r : Nat) : Nat := if recPlanes r then 128 * recPw r else recCnt0 r * recCnt1 r * 2 ^ recEsz r

/-- Displacement of element n from GOFF in a box or of row n of planes (R326, R327). -/
def recDisp (r n : Nat) : Int :=
  if recPlanes r then n * recStr1 r else (n % recCnt0 r : Nat) * recStr0 r + (n / recCnt0 r : Nat) * recStr1 r

/-- The lowest displacement of a box, and the end of the highest element. -/
def recLow (r : Nat) : Int :=
  let a := if recPlanes r then 0 else ((recCnt0 r : Int) - 1) * recStr0 r
  let b := ((recCnt1 r : Int) - 1) * recStr1 r
  min 0 a + min 0 b
def recHigh (r : Nat) : Int :=
  let a := if recPlanes r then 0 else ((recCnt0 r : Int) - 1) * recStr0 r
  let b := ((recCnt1 r : Int) - 1) * recStr1 r
  max 0 a + max 0 b + recBytes r

/-! ### Issue (R328, R329) -/

/-- The kind moves data into the tile. -/
def CopyKind.fills : CopyKind → Bool
  | .fill | .gath => true
  | _ => false

/-- The virtual address of an exact segment offset (R78). -/
def segAddr (sgb : W) (off : Int) : Nat := (((sgb.toNat : Int) + off) % (2 : Int) ^ 64).toNat

/-- The segment check of a job at issue; ADDR is the virtual address of the lowest element of a box, or that of GOFF (R329, R281). -/
def State.copySegment (s : State) (k : CopyKind) (r : Nat) : Act Unit := do
  let sgl := s.cur.sgl[recSg r]
  let goff := natBits r 0 64
  let base := s.cur.sgb[recSg r]
  let right : Right := if k.fills then .r else .w
  match k with
  | .fill | .drain =>
    let low := (goff : Int) + recLow r
    let high := (goff : Int) + recHigh r
    let ad := segAddr base low
    faultIf (segKind sgl ≠ 0) .eseg 0 ad
    faultIf (low < 0 ∨ high > bitsOf sgl 0 48) .eseg 0 ad
    faultIf (!sgl.getLsbD right.bit) .eseg 0 ad
    let a := recAlign r
    faultIf (goff % a ≠ 0 ∨ recStr0 r % a ≠ 0 ∨ recStr1 r % a ≠ 0 ∨ base.toNat % a ≠ 0) .ealign 0 ad
    faultIf (ad + (high - low).toNat > 2 ^ 48) .eprot 0 ad
  | _ => faultIf (segKind sgl ≠ 0 ∨ !sgl.getLsbD right.bit) .eseg 0 (segAddr base goff)

/-- The check of an element of a running job: the offset, exact, against LIMIT; the alignment of the offset and of the address; the end
of the address space (R78, R333). -/
def elemCheck (sgb sgl : W) (off : Int) (n align : Nat) : Except (FaultCode × Nat) Nat :=
  let va := segAddr sgb off
  if off < 0 ∨ off + n > bitsOf sgl 0 48 then .error (.eseg, va)
  else if off % align ≠ 0 ∨ va % align ≠ 0 then .error (.ealign, va)
  else if va + n > 2 ^ 48 then .error (.eprot, va)
  else .ok va

/-- Two ranges of the scratchpad overlap. -/
def overlap (a n b m : Nat) : Bool := decide (a < b + m ∧ b < a + n)

/-- The tile of a job is in a state that admits it, or the instruction parks (R323, R329). -/
def State.tileAdmits (s : State) (l : Tile) (fill : Bool) : Act Unit :=
  if l.val < 2 || s.waitOver s.core s.ctx (.tileFor l.val fill) then .ok ()
  else .error (.park .tile (.tileFor l.val fill))

/-- The tile-table entry after a job has entered the queue (R323). -/
def TileEnt.enter (t : TileEnt) (fill : Bool) (id : Nat) : TileEnt :=
  { t with st := if fill then .filling else .draining, jobs := t.jobs + 1, last := id }

/-- A job instruction (R329): its checks in order, then the queue. -/
def State.copyOp (s : State) (k : CopyKind) (q : Bool) (l : Tile) (d : Reg) (a b : Src) : Act State := do
  let named := b != ⟨15, true⟩
  let t ← s.readOps (a :: (if named then [b] else [])) [d] 6
  let p := (t.g a.r).toNat
  faultIf (p > 0x5FE0) .eseg 0 p
  faultIf (p % 32 ≠ 0) .ealign 0 p
  t.tileGate p
  faultIf (k.fills && l.val < 2) .eseg 0 (1024 * l.val)
  faultIf (t.here.tiles[l]).stash.isSome .etile 2 (1024 * l.val)
  let r := Memory.load t.here.pad p 32
  faultIf (!recValid k r) .etile 3 p
  let lo := 1024 * l.val + recLoff r
  let truss ← if named then do
      let v ← t.trussGate (t.g b.r)
      faultIf (overlap v 32 lo (recSpan r)) .etile 4 v
      pure (some v)
    else pure none
  match k with
  | .gath | .scat => faultIf (overlap (recIdx r) (4 * recCnt0 r) lo (recSpan r)) .etile 4 (recIdx r)
  | _ => .ok ()
  t.copySegment k r
  t.tileAdmits l k.fills
  if (t.copyJobs t.core).length ≥ 8 then .error (.park .copy .copyRoom)
  else
    let id := t.here.copyId
    let j : CopyJob := { id := id, kind := k, tile := l.val, record := r, sgb := t.cur.sgb[recSg r], sgl := t.cur.sgl[recSg r], truss := truss,
                         ctx := t.ctx.val, pc := t.cur.pc, comp := t.cur.comp, writer := t.cur.writer }
    let t := (t.modHere fun c => { c with
      copyQ := c.copyQ ++ [j], copyId := nextId id
      tiles := if l.val < 2 then c.tiles else c.tiles.set l ((c.tiles[l]).enter k.fills id) }).modCluster (t.core / 8) fun h =>
        { h with copyIssued := h.copyIssued + 1 }
    if q then return (t.modCur fun c => c.setG d (.ofNat 64 id)).advance 4
    else .error (.held (t.hold .copy (.copyJob d id) 4))

/-- CPFILL (R328, R329). -/
def execCpfill (q : Bool) (l : Tile) (d : Reg) (a b : Src) (s : State) : Host.Outcome State Fault Refusal := finish s (s.copyOp .fill q l d a b)
/-- CPDRAIN (R328, R329). -/
def execCpdrain (q : Bool) (l : Tile) (d : Reg) (a b : Src) (s : State) : Host.Outcome State Fault Refusal := finish s (s.copyOp .drain q l d a b)
/-- CPGATH (R328, R329). -/
def execCpgath (q : Bool) (l : Tile) (d : Reg) (a b : Src) (s : State) : Host.Outcome State Fault Refusal := finish s (s.copyOp .gath q l d a b)
/-- CPSCAT (R328, R329). -/
def execCpscat (q : Bool) (l : Tile) (d : Reg) (a b : Src) (s : State) : Host.Outcome State Fault Refusal := finish s (s.copyOp .scat q l d a b)

/-! ### Statuses and tiles (R322, R330, R331) -/

/-- A status word (R330). -/
def copyStatus (id code sub done state : Nat) : W :=
  .ofNat 64 (id * 2 ^ 48 + code * 2 ^ 40 + sub * 2 ^ 32 + done % 65536 * 2 ^ 16 + state)

/-- The status of an identifier on core g (R330). -/
def State.copyStatusOf (s : State) (g id : Nat) : W :=
  match (s.coreAt g).copyQ.find? fun j => j.id == id with
  | some _ => copyStatus id 0 0 0 0
  | none =>
    match (s.copyJobs g).find? fun j => j.id == id with
    | some j => copyStatus id 0 0 j.done 1
    | none =>
      match (s.coreAt g).copyStat.find? fun j => j.id == id with
      | some j => copyStatus id j.code j.sub j.done 2
      | none => 3

/-- The executing context has observed the completion of a job (R255). -/
def State.observe (s : State) (copy : Bool) (id : Nat) : State :=
  s.modCur fun c => { c with observed := if c.observed.contains (copy, id) then c.observed else (copy, id) :: c.observed }

/-- CPWAIT (R331). -/
def execCpwait (d : Reg) (a : Src) (s : State) : Host.Outcome State Fault Refusal :=
  finish s do
    let t ← s.readOps [a] [d] 6
    let id := (t.g a.r).toNat
    if (t.copyJobs t.core).any fun j => j.id == id then .error (.park .copy (.copyDone id))
    else return ((t.observe true id).modCur fun c => c.setG d (t.copyStatusOf t.core id)).advance 4

/-- CPPOLL (R331). -/
def execCppoll (d : Reg) (a : Src) (s : State) : Host.Outcome State Fault Refusal :=
  finish s do
    let t ← s.readOps [a] [d] 6
    let id := (t.g a.r).toNat
    let v := t.copyStatusOf t.core id
    let u := if bitsOf v 0 2 = 2 then t.observe true id else t
    return (u.modCur fun c => c.setG d v).advance 4

/-- The number of a tile state (R322). -/
def TileSt.code : TileSt → Nat
  | .empty => 0 | .filling => 1 | .ready => 2 | .draining => 3

/-- A tile-table entry as TLSTAT reads it (R322). -/
def TileEnt.entry (t : TileEnt) : W :=
  .ofNat 64 (t.last * 2 ^ 48 + t.jobs * 2 ^ 32 + (if t.stash.isSome then 4 else 0) + t.st.code)

/-- TLSTAT (R322, R331). -/
def execTlstat (l : Tile) (d : Reg) (s : State) : Host.Outcome State Fault Refusal :=
  finish s do
    let t ← s.readOps [] [d] 6
    return (t.modCur fun c => c.setG d (if l.val < 2 then 2 else (t.here.tiles[l]).entry)).advance 4

/-- TLSET (R331). -/
def execTlset (l : Tile) (a : Src) (s : State) : Host.Outcome State Fault Refusal :=
  finish s do
    let t ← s.readOps [a] [] 6
    let v := t.g a.r
    faultIf (v ≠ 0 ∧ v ≠ 2) .etile 5
    faultIf (l.val < 2) .etile 1
    faultIf (t.here.tiles[l]).stash.isSome .etile 2
    if !t.waitOver t.core t.ctx (.tileIdle l.val) then .error (.park .tile (.tileIdle l.val))
    else return (t.modHere fun c => { c with tiles := c.tiles.set l { (c.tiles[l]) with st := if v = 0 then .empty else .ready } }).advance 4

/-! ### A running job (R332 to R334) -/

/-- COPY_JOB_START: the copy unit of cluster g takes the oldest queued job of the next core after the one it served last (R332). -/
def execCopyJobStart (s : State) : Host.Outcome State Fault Refusal :=
  let h := s.ev.g
  let c := s.clusterAt h
  if c.copyRun.isSome then event s none
  else
    match ((List.range 8).map fun i => (c.copyLast + 1 + i) % 8).find? fun n =>
        !(s.coreAt (8 * h + n)).copyQ.isEmpty && !(s.coreAt (8 * h + n)).frozen with
    | some n =>
      match (s.coreAt (8 * h + n)).copyQ with
      | j :: r =>
        let s := s.modCore (8 * h + n) fun k => { k with copyQ := r }
        event s (some (s.setCluster h { c with copyRun := some (n, j), copyLast := n }))
      | [] => event s none
    | none => event s none

/-- What the next piece of a running copy job does. -/
inductive CopyNext where
  /-- every element is done -/
  | done
  /-- the element faults -/
  | fault (c : FaultCode) (addr : Nat)
  /-- the element is moved -/
  | moved (s : State)
  /-- the page is not present: a record is sent and the job waits -/
  | page (s : State)
  /-- nothing can happen yet -/
  | wait
deriving DecidableEq, Repr

/-- The running job of a cluster changed. -/
def State.modCopy (s : State) (h : Nat) (f : CopyJob → CopyJob) : State :=
  s.modCluster h fun c => { c with copyRun := c.copyRun.map fun (n, j) => (n, f j) }

/-- The index word of the element that is next: the one read before, or the bank's (R326, R335). -/
def State.copyIdx (s : State) (g : Nat) (j : CopyJob) : Nat := j.idx.getD (Memory.load (s.coreAt g).pad (recIdx j.record + 4 * j.done) 4)

/-- A job's access meets a page that is not present: a ring record with ACCESS 7, and the job waits (R333, R290). -/
def State.copyPage (s : State) (h g : Nat) (j : CopyJob) (va : Nat) : CopyNext :=
  if s.migrates (s.partNo g) va then .wait
  else
    let (tok, t) := s.pageFault g 7 j.ctx va j.pc.toNat
    match tok with
    | some k => .page (t.modCopy h fun j => { j with page := some k, idx := some (t.copyIdx g j) })
    | none => .wait

/-- Bytes of a job arrive on its truss (R310, R334). -/
def State.arrive (s : State) (g : Nat) (truss : Option Nat) (n : Nat) : State :=
  match truss with
  | some a => s.modCore g fun c => c.copyArrive a n s.cycle
  | none => s

/-- Bank j of planes: bit k of row r is bit j of element k of the row (R327). -/
def planeRow (pw cnt j row : Nat) : Nat := (List.range cnt).foldl (fun a k => if natBit row (k * pw + j) then a + 2 ^ k else a) 0

/-- Row i of every bank of a PLANES fill written from a source row (R327). -/
def State.planesRow (s : State) (g : Nat) (r tile i v : Nat) : State :=
  (List.range (recPw r)).foldl (fun (s : State) j =>
    s.padStore g (1024 * tile + recLoff r + 128 * j + 8 * i) 8 (planeRow (recPw r) (recCnt0 r) j v)) s

/-- The element read by a fill or gather is written into the bank and counted on the truss; the rows of planes behind the last of the record
are zero, and their banks are counted with it (R327, R333, R334). [log 29, DEDUCED] -/
def State.putElement (s : State) (h g : Nat) (j : CopyJob) (v : Nat) : State :=
  let r := j.record
  if recPlanes r then
    let s := (s.planesRow g r j.tile j.done v).modCopy h fun j => { j with done := j.done + 1 }
    if j.done + 1 = recTotal r then
      ((List.range (16 - recTotal r)).foldl (fun (s : State) i => s.planesRow g r j.tile (recTotal r + i) 0) s).arrive g j.truss (128 * recPw r)
    else s
  else
    let e := 2 ^ recEsz r
    ((s.padStore g (1024 * j.tile + recLoff r + j.done * e) e v).modCopy h fun j => { j with done := j.done + 1 }).arrive g j.truss e

/-- The exact segment offset of the element, or row of planes, that is next (R326, R327). -/
def State.copyOffset (s : State) (g : Nat) (j : CopyJob) : Int :=
  (natBits j.record 0 64 : Int) + (match j.kind with
    | .fill | .drain => recDisp j.record j.done
    | _ => (s.copyIdx g j : Int))

/-- The next piece of the running copy job of cluster h (R326, R327, R333). [log 29, DEDUCED] [log 126, DESIGN CHOICE] -/
def State.copyNext (s : State) (h : Nat) : CopyNext :=
  match (s.clusterAt h).copyRun with
  | none => .wait
  | some (n, j) =>
    let g := 8 * h + n
    let r := j.record
    if j.done = recTotal r then .done
    else
      let size := recBytes r
      let piece := if recPlanes r then 1 else Nat.min size 8
      match elemCheck j.sgb j.sgl (s.copyOffset g j) size (recAlign r) with
      | .error (c, a) => .fault c a
      | .ok va =>
        if j.gaveUp then .fault .epnp va
        else if (match j.page with | some k => s.tokenOut k | none => false) || (j.kind != .fill && s.blockComing g) then .wait
        else if j.kind.fills then
          match s.jobReads g j.comp va piece (size / piece) with
          | .val v t => .moved (((t.noteJobRead g j.ctx j.writer va size).modCopy h fun j => { j with page := none, idx := none }).putElement h g j v)
          | .wait => .wait
          | .absent a => s.copyPage h g j a
          | .prot a => .fault .eprot a
          | .bad pa => .moved (s.uncorrectable (s.partNo g) pa g)
        else
          match s.jobMayWrite g j.comp va piece (size / piece) with
          | .val _ t =>
            let v := Memory.load (t.coreAt g).pad (1024 * j.tile + recLoff r + j.done * size) size
            let t := t.jobWrites g j.comp va piece v j.writer (size / piece)
            .moved ((t.modCopy h fun j => { j with done := j.done + 1, page := none, idx := none }).arrive g j.truss size)
          | .wait => .wait
          | .absent a => s.copyPage h g j a
          | .prot a => .fault .eprot a
          | .bad pa => .moved (s.uncorrectable (s.partNo g) pa g)

/-- The running job of a cluster moves data into a tile. -/
def State.copyFills (s : State) (h : Nat) : Bool := match (s.clusterAt h).copyRun with | some (_, j) => j.kind.fills | none => false

/-- COPY_BANK_WRITE: the running fill or gather of cluster g writes its next element into the tile bank (R334). -/
def execCopyBankWrite (s : State) : Host.Outcome State Fault Refusal :=
  if s.copyFills s.ev.g then
    match s.copyNext s.ev.g with
    | .moved t | .page t => event s (some t)
    | _ => event s none
  else event s none

/-- COPY_GLOBAL_WRITE_ACCEPT: the next global write of the running drain or scatter of cluster g is accepted at its slice (R334). -/
def execCopyGlobalWriteAccept (s : State) : Host.Outcome State Fault Refusal :=
  if s.copyFills s.ev.g then event s none
  else match s.copyNext s.ev.g with
    | .moved t | .page t => event s (some t)
    | _ => event s none

/-- The tile-table entry after a job has ended (R323). -/
def TileEnt.leave (t : TileEnt) (k : CopyKind) (rel fault : Bool) : TileEnt :=
  let n := t.jobs - 1
  let st : TileSt := if n ≠ 0 then t.st else if k.fills then (if fault then .empty else .ready) else (if rel && !fault then .empty else .ready)
  { t with jobs := n, st := st }

/-- The running copy job of cluster h ends, with its status and perhaps a fault (R323, R329, R330, R333). -/
def State.endCopy (s : State) (h : Nat) (fault : Option (FaultCode × Nat)) : State :=
  match (s.clusterAt h).copyRun with
  | none => s
  | some (n, j) =>
    let g := 8 * h + n
    let code := match fault with | some (c, _) => c.code | none => 0
    let addr := match fault with | some (_, a) => a | none => 0
    let s := (s.modCluster h fun c => { c with copyRun := none, copyDone := c.copyDone + 1 }).advanced g
    let s := s.modCore g fun c => { c with
      copyStat := keepStat c.copyStat { id := j.id, code := code, sub := 0, done := j.done, ovf := false, addr := addr }
      tiles := if j.tile < 2 then c.tiles
        else c.tiles.set (Fin.ofNat 24 j.tile) ((c.tiles[Fin.ofNat 24 j.tile]).leave j.kind (recRel j.record) fault.isSome) }
    let x := ctxNo j.ctx
    let s := s.countJob g j.ctx 8 j.gone
    match (s.ctxAt g x).served Req.isJob with
    | some (.copyJob d id) =>
      if id = j.id then
        (s.serve g x Req.isJob fun s => some ((s.modCtx g x fun c => { c with observed := (true, id) :: c.observed }).endBlocking g x d
          (copyStatus id code 0 j.done 2) (fault.map fun (c, a) => (c, 0, a)))).getD s
      else s
    | _ => s

/-- COPY_JOB_FAULT: the running job of cluster g ends at a failing element (R333). -/
def execCopyJobFault (s : State) : Host.Outcome State Fault Refusal :=
  match s.copyNext s.ev.g with
  | .fault c a => event s (some (s.endCopy s.ev.g (some (c, a))))
  | _ => event s none

/-- COPY_JOB_COMPLETE: the running job of cluster g completes (R332). -/
def execCopyJobComplete (s : State) : Host.Outcome State Fault Refusal :=
  match s.copyNext s.ev.g with
  | .done => event s (some (s.endCopy s.ev.g none))
  | _ => event s none

end Sys2Proof.Machine
end

