-- ==== Sys2Proof/Machine/Traps.lean ====
section
/-! DEFINITION. TRAP and the returns, system registers, fault slots, store-fault records, the lead's handler (15 R279 to R287;
03 R79 to R83). -/

namespace Sys2Proof.Machine

/-! ### TRAP, ERET -/

/-- TRAP (R286). -/
def execTrap (n : Fin 64) (s : State) : Host.Outcome State Fault Refusal := finish s (.error (.trap n.val))

/-- ERET (R286). -/
def execEret (s : State) : Host.Outcome State Fault Refusal :=
  finish s do
    s.leadOnly
    faultIf (!s.here.tact) .ectx
    .error (.held ((s.leaveHandler s.core).modCur fun c => c.done.takeAside s.cycle))

/-- A stopped context moved on at its resume pc: it returns to rotation, or parks until the result of a request that has left the core
is written; a deadline is that of the instruction at which it stopped (R286, R458). -/
def Ctx.resumeAt (c : Ctx) (pc : W) (cycle : Nat) : Ctx :=
  let dl := if c.pc = pc then c.deadline else none
  match c.req with
  | some r => { c.parkOn r.park .agent cycle with pc := pc, deadline := dl }
  | none => { c with st := .run, pc := pc, deadline := dl }

/-- ERET.CTX (R286). -/
def execEretCtx (a : Src) (s : State) : Host.Outcome State Fault Refusal :=
  finish s do
    s.leadOnly
    let t ← s.readRegs [a] none
    let v := t.g a.r
    faultIf (v = 0 ∨ v.toNat ≥ 16) .ectx
    let x := ctxNo v.toNat
    let c := t.ctxAt t.core x
    faultIf (c.st ≠ .stopped ∨ c.reaping) .ectx
    let u := t.modHere fun k =>
      { k with tpend := k.tpend &&& ~~~(1#16 <<< x.val), slots := k.slots.set x { (k.slots[x]) with valid := false } }
    return (u.modCtx u.core x fun c => c.resumeAt (t.here.tpc[x]) t.cycle).advance 4

/-! ### System registers -/

/-- A fault register (R280). -/
def faultReg : SysReg → Bool
  | .tvec | .tepc | .tstat | .tsel | .tpc | .sfcnt | .tscr _ => true
  | _ => false

/-- STRMn of a port (R158). [log 121, DEDUCED] -/
def Port.strm (p : Port) : W :=
  let bit := fun (b : Bool) (i : Nat) => if b then 2 ^ i else 0
  .ofNat 64 (bit p.bound 63 + bit p.cfg 62 + bit p.writes 61 + p.sz * 2 ^ 58 + p.sg.val * 2 ^ 55 + p.ahead.length % 16 * 2 ^ 48
    + p.remain % 2 ^ 32)

/-- TSTAT (R280). -/
def CoreSt.tstat (c : CoreSt) : W := .ofNat 64 ((if c.tact then 2 ^ 31 else 0) + c.tpend.toNat)

/-- The value of a system register as the executing context reads it (R80, R81, R135, R158, R280). -/
def State.sysRead (s : State) (r : SysReg) : W :=
  let c := s.cur
  match r with
  | .ctxstat => s.ctxstat s.core s.ctx
  | .fpc => c.fpc
  | .geom => c.geom
  | .fullb => .ofNat 64 c.full.toNat
  | .sgb n => c.sgb[n]
  | .sgl n => c.sgl[n]
  | .rstk => .ofNat 64 c.rstkWord
  | .strm n => (c.ports[n]).strm
  | .trm n => c.trm[n]
  | .gth n => c.gth[n]
  | .tvec => s.here.tvec
  | .tepc => s.here.tepc
  | .tstat => s.here.tstat
  | .tsel => .ofNat 64 s.here.tsel
  | .tpc => s.here.tpc[Fin.ofNat 16 s.here.tsel]
  | .sfcnt => .ofNat 64 s.here.sfq.length
  | .tscr n => s.here.tscr[n]

/-- MFS (R286, R80). -/
def execMfs (r : SysReg) (d : Reg) (s : State) : Host.Outcome State Fault Refusal :=
  finish s do
    faultIf (faultReg r && s.ctx ≠ 0) .epriv
    s.compute [] d 4 fun t => t.sysRead r


/-- A write of SGBn that narrows: base and limit (R79). -/
def narrowBase (sgb sgl v : W) : Option (W × W) :=
  let lim := bitsOf sgl 0 48
  if sgb.toNat ≤ v.toNat ∧ v.toNat ≤ sgb.toNat + lim then some (v, sgl - (v - sgb)) else none

/-- A write of SGLn that narrows (R79). -/
def narrowLimit (sgl v : W) : Option W :=
  if segKind v = segKind sgl ∧ bitsOf v 0 48 ≤ bitsOf sgl 0 48 ∧ bitsOf v 48 5 &&& (31 ^^^ bitsOf sgl 48 5) = 0
  then some (v &&& 0x031FFFFFFFFFFFFF) else none

/-- The write of a system register by the executing context (R79 to R83, R280). [log 58, DEDUCED] -/
def State.sysWrite (s : State) (r : SysReg) (v : W) : Act State :=
  match r with
  | .ctxstat => .ok (s.modCur fun c => { c with clamped := c.clamped && !v.getLsbD 15 })
  | .fpc => .ok (s.modCur fun c => { c with fpc := fpcWrite c.fpc v })
  | .geom => .ok (s.modCur fun c => { c with geom := v &&& geomMask })
  | .sgb n =>
    match narrowBase s.cur.sgb[n] s.cur.sgl[n] v with
    | some (b, l) => .ok (s.modCur fun c => { c with sgb := c.sgb.set n b, sgl := c.sgl.set n l })
    | none => raise .epriv
  | .sgl n =>
    match narrowLimit s.cur.sgl[n] v with
    | some l => .ok (s.modCur fun c => { c with sgl := c.sgl.set n l })
    | none => raise .epriv
  | .tvec => .ok (s.modHere fun c => { c with tvec := v })
  | .tepc => .ok (s.modHere fun c => { c with tepc := v })
  | .tsel => .ok (s.modHere fun c => { c with tsel := bitsOf v 0 4 })
  | .tpc =>
    let x := Fin.ofNat 16 s.here.tsel
    if (s.ctxAt s.core x).st ≠ .stopped ∨ (s.ctxAt s.core x).reaping then raise .ectx
    else if v.getLsbD 0 then raise .ealign v.toNat
    else .ok (s.modHere fun c => { c with tpc := c.tpc.set x v })
  | .tscr n => .ok (s.modHere fun c => { c with tscr := c.tscr.set n v })
  | .fullb | .rstk | .strm _ | .trm _ | .gth _ | .tstat | .sfcnt => raise .epriv

/-- MTS (R286, R79, R80). -/
def execMts (r : SysReg) (a : Src) (s : State) : Host.Outcome State Fault Refusal :=
  finish s do
    faultIf (faultReg r && s.ctx ≠ 0) .epriv
    let t ← s.readRegs [a] none
    let u ← t.sysWrite r (t.g a.r)
    return u.advance 4

/-! ### Records and slots -/

/-- The 32 bytes of a store-fault record, as a number (R204). -/
def recordBytes (r : SfRec) : Nat := ofBytes (doubles r.toList)

/-- SFREC: the oldest record goes to the scratchpad, and a store that waited for room is recorded (R286, R204). -/
def execSfrec (d : Reg) (a : Src) (s : State) : Host.Outcome State Fault Refusal :=
  finish s do
    s.leadOnly
    let t ← s.readRegs [a] (some d)
    match t.here.sfq with
    | [] =>
      let u ← t.writeReg d 0
      return u.advance 4
    | r :: rest =>
      let p := (t.g a.r).toNat
      faultIf (p % 32 ≠ 0) .ealign 0 p
      faultIf (p < 0x0800 ∨ p + 32 > 0x6000) .eseg 0 p
      t.tileGate p
      let u ← t.writeReg d (.ofNat 64 t.here.sfq.length)
      let u := (u.padStore u.core p 32 (recordBytes r)).modHere fun c => { c with sfq := rest }
      return ((u.advance 4).recordHeld u.core).refocus u

/-- Double i of a fault slot (R281). -/
def Slot.double (v : Slot) (i : Fin 4) : W :=
  match i with
  | 0 => .ofNat 64 (v.priv % 2 ^ 32 * 2 ^ 32 + v.code % 256 * 2 ^ 24 + v.sub % 256 * 2 ^ 16 + v.kind % 4 * 16 + (if v.valid then 1 else 0))
  | 1 => v.pc
  | 2 => v.word
  | 3 => v.addr

/-- FLTINFO (R286, R281). -/
def execFltinfo (i : Fin 4) (d : Reg) (a : Src) (s : State) : Host.Outcome State Fault Refusal :=
  finish s do
    s.leadOnly
    let t ← s.readRegs [a] (some d)
    faultIf ((t.g a.r).toNat > 15) .ectx
    let u ← t.writeReg d (Slot.double (t.here.slots[ctxNo (t.g a.r).toNat]) i)
    return u.advance 4

/-! ### Steps of the leaf controller -/

/-- HANDLER_ENTRY: the lead of core g enters its handler at its next boundary (R283). -/
def execHandlerEntry (s : State) : Host.Outcome State Fault Refusal := event s (some (s.enterHandler s.ev.g))

/-- The segments that 128 bytes give: SGB0, SGL0 to SGL7. [log 33, DESIGN CHOICE] -/
def Ctx.segments (c : Ctx) (m : Nat) : Ctx :=
  { c with
    sgb := .ofFn fun i => .ofNat 64 (natBytes m (16 * i.val) 8)
    sgl := .ofFn fun i => .ofNat 64 (natBytes m (16 * i.val + 8) 8) &&& 0x031FFFFFFFFFFFFF }

/-- LEAD_RESTART: system software restarts the fallen lead of core g at pc v (R284); the lead that has not been started yet starts there with
the segments that the event's bytes give (log 33, DESIGN CHOICE). [log 91, DESIGN CHOICE] -/
def execLeadRestart (s : State) : Host.Outcome State Fault Refusal :=
  let g := s.ev.g
  let c := s.coreAt g
  let pc := evenPc (.ofNat 64 s.ev.v)
  if c.frozen || c.halted || (s.partOfCluster (g / 8)).isNone then event s none
  else if c.fallen then
    event s (some ((s.modCore g fun c => { c with fallen := false }).modCtx g 0 fun c =>
      ({ c with st := .run, pc := pc, deadline := none } : Ctx).takeAside s.cycle))
  else if (s.ctxAt g 0).st = .free then
    event s (some (s.modCtx g 0 fun c => { (c.segments (ofBytes s.ev.bytes)) with st := .run, pc := pc, role := .lead }))
  else event s none

end Sys2Proof.Machine
end

