-- ==== Sys2Proof/Machine/Counters.lean ====
section
/-! DEFINITION. Performance counters (15 R292 to R296). -/

namespace Sys2Proof.Machine

/-- The number of a counter. -/
def cntNo (n : Reg) : Fin 8 := Fin.ofNat 8 n.val

/-- CNTRD: the whole counter (R294). -/
def execCntrd (d n : Reg) (s : State) : Host.Outcome State Fault Refusal :=
  finish s (s.compute [] d 4 fun t => t.cur.cnt[cntNo n])

/-- A counter as CNTCFG sets it: EVENT, COUNT 0, RUN (R294). [log 35, DEDUCED] -/
def counterSet (e : Nat) : W := .ofNat 64 (e % 64 * 2 ^ 58 + (if e = 0 then 0 else 2 ^ 57))

/-- CNTCFG (R294). [log 35, DEDUCED] -/
def execCntcfg (e : Fin 16) (n : Reg) (s : State) : Host.Outcome State Fault Refusal :=
  finish s (.ok ((s.modCur fun c => { c with cnt := c.cnt.set (cntNo n) (counterSet e.val) }).advance 4))

/-- CNTSTOP (R294). -/
def execCntstop (n : Reg) (s : State) : Host.Outcome State Fault Refusal :=
  finish s (.ok ((s.modCur fun c => { c with cnt := c.cnt.set (cntNo n) (c.cnt[cntNo n] &&& ~~~(1#64 <<< 57)) }).advance 4))

/-- Unit count u of 0 to 5 for the executing context (R296). -/
def State.unitCount (s : State) (u : Fin 8) : Nat :=
  let q := s.quadAt (quadOf s.core)
  let c := s.clusterAt (s.core / 8)
  match u with
  | 0 => q.issued | 1 => q.done | 2 => c.mxIssued | 3 => c.mxDone | 4 => c.copyIssued | _ => c.copyDone

/-- A unit count, 48 bits wide (R296). -/
def count48 (n : Nat) : W := .ofNat 64 (n % 2 ^ 48)

/-- CNTRD.UNIT: the slice sums are gathered while the context is parked (R294, R296). -/
def execCntrdUnit (u : Fin 8) (d : Reg) (s : State) : Host.Outcome State Fault Refusal :=
  finish s
    (if u.val < 6 then s.compute [] d 4 fun t => count48 (t.unitCount u)
     else do
      let t ← s.readRegs [] (some d)
      .error (.held (t.hold .mem (.sliceSum d (u == 7)) 4)))

/-- SLICE_SUM_COMPLETE: the sum over the slices of the die for the context's partition is written (R296). -/
def execSliceSumComplete (s : State) : Host.Outcome State Fault Refusal :=
  let g := s.ev.g
  let x := ctxNo s.ev.x
  match (s.ctxAt g x).st, (s.ctxAt g x).req with
  | .parked _, some (.sliceSum d misses) =>
    let k := 16 * dieOf g + s.partNo g
    event s (s.reply g x d (count48 (aget (if misses then s.l2Miss else s.l2Acc) k 0)))
  | _, _ => event s none

end Sys2Proof.Machine
end

