-- ==== Sys2Proof/Machine/Keccak.lean ====
section
/-! DEFINITION. The permutation of FIPS 202 and the functions over it: SHAKE256, the digest of translation keys, parameter digests,
evidence and installed keys, KMAC256, and the SHA-3 functions that ML-KEM uses (02 R55; 22 R380; 26 R438, R440). -/

namespace Sys2Proof.Machine

/-! ### The permutation -/

/-- A plane of the state: the five lanes with one y. -/
abbrev Plane := Vector W 5

/-- The state: five planes, each of five lanes of 64 bits. -/
abbrev Sponge := Vector Plane 5

/-- Two planes added. -/
def planeXor (p q : Plane) : Plane := .ofFn fun x => p[x] ^^^ q[x]

/-- The amounts by which lanes are rotated: the triangular numbers, along the walk (x, y) → (y, 2x + 3y) from (1, 0). -/
def rhoAmounts : Vector (Vector Nat 5) 5 :=
  ((List.range 24).foldl (fun (st : Vector (Vector Nat 5) 5 × Nat × Nat) t =>
    let (m, x, y) := st
    let row := (m[Fin.ofNat 5 y]).set (Fin.ofNat 5 x) ((t + 1) * (t + 2) / 2 % 64)
    (m.set (Fin.ofNat 5 y) row, y, (2 * x + 3 * y) % 5)) (.replicate 5 (.replicate 5 0), 1, 0)).1

/-- Theta: every lane takes the parities of two columns beside it. -/
def theta (a : Sponge) : Sponge :=
  let par := a.toList.foldl planeXor (.replicate 5 0)
  let add : Plane := .ofFn fun x => par[x - 1] ^^^ (par[x + 1]).rotateLeft 1
  a.map (planeXor add)

/-- Rho and pi: lanes are rotated, and lane x of plane y comes from lane x + 3y of plane x. -/
def rhoPi (a : Sponge) : Sponge :=
  .ofFn fun y => .ofFn fun x => ((a[x])[x + 3 * y]).rotateLeft ((rhoAmounts[x])[x + 3 * y])

/-- Chi: within a plane, each lane takes the lanes after it. -/
def chi (p : Plane) : Plane := .ofFn fun x => p[x] ^^^ (p[x + 2] &&& ~~~p[x + 1])

/-- The generator of the round constants, eight bits wide, one step on. -/
def rcStep (r : Nat) : Nat := if r < 128 then 2 * r else (2 * r) ^^^ 0x171

/-- A round constant from the generator: seven of its output bits, at places 0, 1, 3, 7, 15, 31, 63; and the generator after it. -/
def rcNext (r : Nat) : W × Nat :=
  (List.range 7).foldl (fun (st : W × Nat) j => (if st.2 % 2 = 1 then st.1 ||| BitVec.twoPow 64 (2 ^ j - 1) else st.1, rcStep st.2)) (0, r)

/-- The permutation: rounds of theta, rho, pi, chi and the round constant, from a generator state on. -/
def rounds : Nat → Nat → Sponge → Sponge
  | 0, _, a => a
  | n + 1, r, a =>
    let (c, r) := rcNext r
    let a := (rhoPi (theta a)).map chi
    rounds n r (a.set 0 ((a[(0 : Fin 5)]).set 0 ((a[(0 : Fin 5)])[(0 : Fin 5)] ^^^ c)))

/-- The permutation of 24 rounds. -/
def permute (a : Sponge) : Sponge := rounds 24 1 a

/-! ### The sponge -/

/-- A number added to the state, lane after lane. -/
def mixIn (a : Sponge) (n : Nat) : Sponge := .ofFn fun y => .ofFn fun x => (a[y])[x] ^^^ .ofNat 64 (n / 2 ^ (64 * (x.val + 5 * y.val)))

/-- A message taken in, `rate` bytes at a time, with the padding of a domain byte; the last number is that of the whole blocks. -/
def takeIn (rate dom : Nat) (a : Sponge) (m : List Byte) : Nat → Sponge
  | 0 => permute (mixIn a (ofBytes m + dom * 256 ^ m.length + 0x80 * 256 ^ (rate - 1)))
  | k + 1 => takeIn rate dom (permute (mixIn a (ofBytes (m.take rate)))) (m.drop rate) k

/-- The bytes of a state, in the order of its lanes. -/
def spongeBytes (a : Sponge) : List Byte := (a.toList.map fun p => (p.toList.map fun w => toBytes 8 w.toNat).flatten).flatten

/-- k blocks of output. -/
def giveOut (rate : Nat) (a : Sponge) : Nat → List Byte
  | 0 => []
  | k + 1 => (spongeBytes a).take rate ++ giveOut rate (permute a) k

/-- n bytes of the sponge function with a rate and a domain byte. -/
def keccak (rate dom : Nat) (m : List Byte) (n : Nat) : List Byte :=
  (giveOut rate (takeIn rate dom (.replicate 5 (.replicate 5 0)) m (m.length / rate)) ((n + rate - 1) / rate)).take n

/-- SHAKE256 of a message, n bytes long. -/
def shake256 (m : List Byte) (n : Nat) : List Byte := keccak 136 0x1F m n

/-- SHAKE128 of a message, n bytes long. -/
def shake128 (m : List Byte) (n : Nat) : List Byte := keccak 168 0x1F m n

/-- SHA3-256 of a message. -/
def sha3x256 (m : List Byte) : List Byte := keccak 136 0x06 m 32

/-- SHA3-512 of a message. -/
def sha3x512 (m : List Byte) : List Byte := keccak 72 0x06 m 64

/-! ### KMAC256 (NIST SP 800-185) -/

/-- The big-endian bytes of a number, at least one; the first number is fuel. -/
def bigEndian : Nat → Nat → List Byte
  | 0, _ => []
  | k + 1, v => if v < 256 then [.ofNat 8 v] else bigEndian k (v / 256) ++ [.ofNat 8 v]

/-- left_encode of NIST SP 800-185. -/
def leftEncode (v : Nat) : List Byte := let b := bigEndian 16 v; .ofNat 8 b.length :: b

/-- right_encode of NIST SP 800-185. -/
def rightEncode (v : Nat) : List Byte := let b := bigEndian 16 v; b ++ [.ofNat 8 b.length]

/-- encode_string of NIST SP 800-185. -/
def encodeString (s : List Byte) : List Byte := leftEncode (8 * s.length) ++ s

/-- bytepad of NIST SP 800-185 to a multiple of 136 bytes. -/
def bytepad (s : List Byte) : List Byte :=
  let l := leftEncode 136 ++ s
  l ++ List.replicate ((136 - l.length % 136) % 136) 0

/-- The bytes of a text. -/
def textBytes (t : String) : List Byte := t.toList.map fun c => .ofNat 8 c.toNat

/-- KMAC256 with a key, a message, a length in bytes and a customisation text (NIST SP 800-185). -/
def kmac256 (key m : List Byte) (n : Nat) (custom : String) : List Byte :=
  keccak 136 0x04 (bytepad (encodeString (textBytes "KMAC") ++ encodeString (textBytes custom)) ++ bytepad (encodeString key) ++ m
    ++ rightEncode (8 * n)) n

end Sys2Proof.Machine
end

