-- ==== Sys2Proof/Machine/ChipTable.lean ====
section
/-! DEFINITION. The chip table: its records, its image and its digest (02 R31 to R36, R456; 03 R66, R68). A record exists for
every combination of fixed bits whose instruction decodes; a field is present where some value of it other than zero decodes
(log 40). -/

namespace Sys2Proof.Machine

/-- A native word, or halfword, is an instruction of this chip (R66). -/
def legalCode (half : Bool) (w : Nat) : Bool :=
  match (if half then decode16 w else decode32 w) with
  | some i => i.wf
  | none => false

/-- The formats of R61. -/
inductive WordFmt where
  | r | k | m | b | x | j | l
deriving DecidableEq, Repr

/-- The format of a major opcode (R65). -/
def fmtOfMajor (n : Nat) : Option WordFmt :=
  match n with
  | 0x01 | 0x02 | 0x05 | 0x0B | 0x10 | 0x11 | 0x12 | 0x14 | 0x15 | 0x16 | 0x17 | 0x18 => some .r
  | 0x03 => some .k
  | 0x04 | 0x06 => some .l
  | 0x07 | 0x1C | 0x1D | 0x1E => some .m
  | 0x08 => some .b
  | 0x09 | 0x0D => some .j
  | 0x0A | 0x0C | 0x13 | 0x1F | 0x20 | 0x21 | 0x22 | 0x23 | 0x24 | 0x26 | 0x28 | 0x29 | 0x2A | 0x2C | 0x2D | 0x2E => some .x
  | _ => none

/-- The word with every variable field zero that stands for a variant, a major and a function code, in a format (R68). -/
def variantWord (f : WordFmt) (v major low : Nat) : Option Nat :=
  let base := 1 + 2 * major + 2 ^ 15 * (v % 2)
  match f with
  | .r | .x => some (base + 2 ^ 20 * (v / 2 % 2) + 2 ^ 21 * low + 2 ^ 26 * (v / 4))
  | .k => if v < 64 ∧ low < 8 then some (base + 2 ^ 24 * low + 2 ^ 27 * (v / 2)) else none
  | .m => if v < 128 ∧ low = 0 then some (base + 2 ^ 16 * (v / 2 % 8) + 2 ^ 29 * (v / 16)) else none
  | .b => if v < 4 ∧ low < 16 then some (base + 2 ^ 20 * (v / 2) + 2 ^ 7 * low) else none
  | .j | .l => if v = 0 ∧ low = 0 then some base else none

/-- A record of the operation section (R31). -/
structure Rec where
  key : Nat
  tmpl : Nat
  fdesc : Nat
  attr : Nat
deriving DecidableEq, Repr, Inhabited

/-- The key of a 32-bit instruction: the variant V at 31:17, bit 16, the major at 10:5, the function code at 4:0 (R68). -/
def wordKey (v major low : Nat) : Nat := v * 2 ^ 17 + 2 ^ 16 + major * 2 ^ 5 + low

/-- The key of a 16-bit form: bits 16 and 15, and OP4 at 4:0 (R68). -/
def halfKey (op : Nat) : Nat := 2 ^ 16 + 2 ^ 15 + op

/-- The variant V of a word in a format (R68). -/
def variantOf (f : WordFmt) (w : Nat) : Nat :=
  match f with
  | .r | .x => natBits w 15 1 + 2 * natBits w 20 1 + 4 * natBits w 26 6
  | .k => natBits w 15 1 + 2 * natBits w 27 5
  | .m => natBits w 15 1 + 2 * natBits w 16 3 + 16 * natBits w 29 3
  | .b => natBits w 15 1 + 2 * natBits w 20 1
  | .j | .l => 0

/-- F5, CLS11[4:0], F3 or the condition code of a word in a format; 0 for formats M, J and L (R68). -/
def functionOf (f : WordFmt) (w : Nat) : Nat :=
  match f with
  | .r | .x => natBits w 21 5
  | .k => natBits w 24 3
  | .b => natBits w 7 4
  | .m | .j | .l => 0

/-- The key of the 32-bit instruction of a word, built from its encoding (R68). -/
def keyOf (f : WordFmt) (w : Nat) : Nat := wordKey (variantOf f w) (natBits w 1 6) (functionOf f w)

/-- A byte of FDESC: the field at a position is present when a value of it other than zero decodes (R33). -/
def fieldByte (half : Bool) (w lsb width : Nat) : Nat :=
  if (List.range (2 ^ width)).any fun v => v != 0 && legalCode half (w + 2 ^ lsb * v) then 0x80 + lsb else 0

/-- The free span of a 32-bit format: lowest bit, width, branch (R34). -/
def fmtSpan : WordFmt → Nat × Nat × Bool
  | .m => (19, 10, false)
  | .b => (21, 11, true)
  | .j => (7, 25, true)
  | .l => (11, 21, false)
  | _ => (0, 0, false)

/-- The free span of a 16-bit form (R90). -/
def halfSpan (op : Nat) : Nat × Nat × Bool :=
  if op = 7 then (9, 7, false) else if op = 12 ∨ op = 13 then (9, 7, true) else if 8 ≤ op ∧ op ≤ 11 then (13, 3, false) else (0, 0, false)

/-- An instruction of a unit's major that the core performs by itself. -/
def inCore : Instr → Bool
  | .ldxW .. | .stxW .. | .stashOff .. | .wback .. | .wbackTile .. | .drain | .fence .. | .xfence .. | .tlstat .. | .tlset .. | .wake ..
  | .wakeV .. | .yield | .sleep .. | .dtmark .. | .dtwave .. | .dtforget | .gtclose .. | .cmpsw .. => true
  | _ => false

/-- UNIT of an instruction (R34, log 40). -/
def unitOf (major : Nat) (i : Instr) : Nat :=
  if inCore i then 0
  else if major = 0x05 ∨ major = 0x18 then 1
  else if 0x1C ≤ major ∧ major ≤ 0x20 then 2
  else if major = 0x26 then 3
  else if major = 0x24 then 4
  else if major = 0x28 ∨ major = 0x29 then 5
  else if major = 0x2A then 6
  else if major = 0x2E then 7
  else 0

/-- LAT of an instruction: 2 for an engine job, 1 for one that parks for a result, else 0 (R34, log 40). -/
def latOf : Instr → Nat
  | .cpfill .. | .cpdrain .. | .cpgath .. | .cpscat .. | .mxmul .. | .mxmulg .. | .mxzero .. | .mxread .. => 2
  | .div .. | .divn .. | .rem .. | .remn .. | .srcp .. | .srsq .. | .ssqrt .. | .sexp2 .. | .slog2 .. | .ssin .. | .scos ..
  | .stanh .. | .sfdiv .. | .call .. | .callr .. | .ret | .exit | .exit16 | .ret16 | .couple .. | .recouple .. | .scfg ..
  | .baddq .. | .bquant .. | .ld .. | .ldI6416 .. | .ldN3216 .. | .ldro .. | .ldx .. | .stash .. | .stashOff .. | .wback ..
  | .wbackTile .. | .discard .. | .drain | .fence .. | .xfence .. | .trwait .. | .chsend .. | .chrecv .. | .chrecvFrom ..
  | .cpwait .. | .mxwait .. | .reap .. | .sleep .. | .hop .. | .lnch .. | .relnch .. | .gtopen .. | .gtsig .. | .gtwait ..
  | .gtpoll .. | .gtxfer .. | .evreq .. | .kinst .. => 1
  | .cntrdUnit u _ => if u.val < 6 then 0 else 1
  | .aaddN32 .. | .aaddI32 .. | .aadd64 .. | .aandN32 .. | .aandI32 .. | .aand64 .. | .aorN32 .. | .aorI32 .. | .aor64 ..
  | .axorN32 .. | .axorI32 .. | .axor64 .. | .aswapN32 .. | .aswapI32 .. | .aswap64 .. | .acasN32 .. | .acasI32 .. | .acas64 ..
  | .amin .. | .amax .. | .aminn .. | .amaxn .. | .afadd .. => 1
  | _ => 0

/-- ATTR (R34); TEN is 1 in every record (R66). -/
def attrOf (unit lat : Nat) (half : Bool) (span : Nat × Nat × Bool) : Nat :=
  unit * 2 ^ 24 + lat * 2 ^ 20 + 2 ^ 19 + (if span.2.2 then 2 ^ 18 else 0) + (if half then 2 ^ 17 else 0) + span.1 * 2 ^ 11 + span.2.1 * 2 ^ 6

/-- The record of a variant, if its instruction exists (R68). CHRECV does not decode with both its fields zero, so that a word with
B = 2 is tried as well. [log 40, DEDUCED] -/
def wordRec (v major low : Nat) : Option Rec := do
  let f ← fmtOfMajor major
  let w ← variantWord f v major low
  let u := if legalCode false w then w else w + 2 ^ 17
  let i ← decode32 u
  if !i.wf then none
  else
    let d := match f with | .b | .j => 0 | _ => fieldByte false u 7 4
    let a := match f with | .j | .l => 0 | _ => fieldByte false u 11 4
    let b := match f with | .r | .b | .x => fieldByte false w 16 4 | _ => 0
    let c := match f with | .k => fieldByte false w 16 8 | _ => 0
    some { key := keyOf f w, tmpl := w, fdesc := d + 256 * a + 65536 * b + 2 ^ 24 * c,
           attr := attrOf (unitOf major i) (latOf i) false (fmtSpan f) }

/-- The record of a 16-bit form (R90). [log 40, DEDUCED] -/
def halfRec (op : Nat) : Option Rec := do
  let i ← decode16 (2 * op)
  if !i.wf then none
  else
    let d := fieldByte true (2 * op) 5 4
    let a := if op = 7 ∨ op = 12 ∨ op = 13 then 0 else fieldByte true (2 * op) 9 4
    let unit := if 8 ≤ op ∧ op ≤ 11 then 2 else 0
    some { key := halfKey op, tmpl := 2 * op, fdesc := d + 256 * a, attr := attrOf unit (latOf i) true (halfSpan op) }

/-- The records of a variant, in ascending order of key (R31). -/
def variantRecs (v : Nat) : List Rec :=
  ((List.range 64).map fun major => (List.range 32).filterMap fun low => wordRec v major low).flatten
    ++ if v = 0 then (List.range 16).filterMap halfRec else []

/-- The operation section of this package's first firmware (R31). -/
def chipRecs : List Rec := ((List.range 256).map variantRecs).flatten

/-- The operation section of the chip table of a firmware image: it is fixed from boot (R36). A record follows from the encoding of its
operation on this chip (R68), so that another image's table can only leave records out. [log 109, DESIGN CHOICE] -/
def recsOf (image : Nat) : List Rec :=
  if image = 0 then chipRecs else chipRecs.filter fun r => Config.tableHas image r.key

/-- The chip table's records: those of the firmware that was booted (R31, R36). [log 109, DESIGN CHOICE] -/
def State.recs (s : State) : List Rec := recsOf s.bootImage

/-- The index of the record with a key (R45). -/
def State.recIndex (s : State) (key : Nat) : Option Nat := s.recs.findIdx? fun r => r.key == key

/-- The 16 bytes of a record (R31). -/
def Rec.bytes (r : Rec) : List Byte := toBytes 4 r.key ++ toBytes 4 r.tmpl ++ toBytes 4 r.fdesc ++ toBytes 4 r.attr

/-- The grid entry of a cluster position (R456). -/
def gridEntry (h : Nat) : Nat :=
  let (row, col) := gridOf h
  (if isGateway h then 2 ^ 24 else 0) + dieOfCluster h * 2 ^ 16 + col * 256 + row

/-- The chip-table image with a package identifier, of the firmware that was booted (R36, R456). -/
def State.chipImage (s : State) (pkgid : Nat) : List Byte :=
  let n := s.recs.length
  let goff := 64 + 16 * n
  toBytes 4 0x4254434B ++ toBytes 4 1 ++ toBytes 4 n ++ toBytes 4 64 ++ toBytes 4 goff ++ toBytes 4 (goff + 327680) ++ toBytes 16 pkgid
    ++ toBytes 24 0 ++ (s.recs.map Rec.bytes).flatten ++ ((List.range 81920).map fun h => toBytes 4 (gridEntry h)).flatten
    ++ toBytes 4 1 ++ toBytes 12 0

/-- The chip-table digest H (R456). -/
def State.chipDigest (s : State) : List Byte := shake256 (s.chipImage 0) 32

/-- A byte of the chip-table image of this package (R456). -/
def State.chipByte (s : State) (i : Nat) : Byte := ((s.chipImage Config.pkgid.toNat)[i]?).getD 0

end Sys2Proof.Machine
end

