-- ==== Sys2Proof/Machine/CmdProc.lean ====
section
/-! DEFINITION. The command processor of a partition: its reads and writes of the partition's memory, queue descriptors, the choice
of a queue, packets, launch and trace descriptors, binaries (03 R104, R105; 22 R365 to R369, R372, R379, R380). -/

namespace Sys2Proof.Machine

/-! ### Reads and writes -/

/-- Why the command processor cannot go on. -/
inductive CpStop where
  /-- a page is not present (R372) -/
  | absent (va : Nat)
  /-- a page lacks a right, or was given up -/
  | refused
  /-- a page is being pulled, or the scrub records of a frame's controller are taken -/
  | wait (frame : Nat)
  /-- an uncleared page without a scrub record: the tagged request makes one first (R421) -/
  | tag (e : TlbEnt)
  /-- an uncorrectable error at a physical address -/
  | bad (pa : Nat)
  /-- the packet is invalid, with its SUB -/
  | invalid (sub : Nat)
deriving DecidableEq, Repr

/-- What the command processor computes. -/
abbrev Cp (α : Type) := Except CpStop α

/-- The leaf of a page of partition p for the command processor, which acts in the partition's world and compartment 0, or for the security
processor, which acts in a requester's. -/
def State.cpLeaf (s : State) (p va : Nat) (write : Bool) (comp : Nat := 0) : Cp TlbEnt :=
  match s.walk p va with
  | .absent =>
    if (s.part p).cpGone.contains (va / 65536) then .error .refused
    else if s.migrates p va then .error (.wait 0)
    else .error (.absent va)
  | .bad pa => .error (.bad pa)
  | .leaf e =>
    if !(if write then e.w else e.r) || !s.tagAdmits (s.part p).world comp (e.phys va) write then .error .refused else .ok e

/-- A line read under a leaf; the tagged request for an uncleared page has made its scrub record before (R421). [log 37, DESIGN CHOICE] -/
def State.cpLine (s : State) (pa : Nat) (e : TlbEnt) : Cp (Vector W 8) :=
  if e.unscr && (s.scrubOf pa).isNone then .error (.tag e)
  else match s.findLine (homeDie pa) (pa / 64) with
  | some l => .ok l.words
  | none => if e.unscr || s.lineReadable (pa / 64) then .ok (s.memLine (pa / 64)) else .error (.bad pa)

/-- The bytes of a line. -/
def lineBytes (w : Vector W 8) : List Byte := (w.toList.map fun v => toBytes 8 v.toNat).flatten

/-- n bytes read from virtual memory, line by line; the first number is fuel, one unit a line. -/
def State.cpLines (s : State) (p : Nat) : Nat → Nat → Nat → Cp (List Byte)
  | 0, _, _ => .ok []
  | k + 1, va, n =>
    if n = 0 then .ok []
    else do
      let e ← s.cpLeaf p va false
      let w ← s.cpLine (e.phys va) e
      let m := Nat.min n (64 - va % 64)
      let rest ← s.cpLines p k (va + m) (n - m)
      return (((lineBytes w).drop (va % 64)).take m) ++ rest

/-- n bytes read from virtual memory by the command processor. -/
def State.cpBytes (s : State) (p va n : Nat) : Cp (List Byte) := s.cpLines p ((n + va % 64 + 63) / 64) va n

/-- n bytes as a number. -/
def State.cpRead (s : State) (p va n : Nat) : Cp Nat := do return ofBytes (← s.cpBytes p va n)

/-- Every page of a span is mapped with the rights; the first number is fuel, one unit a page. -/
def State.cpPages (s : State) (p : Nat) (write : Bool) : Nat → Nat → Nat → Cp Unit
  | 0, _, _ => .ok ()
  | k + 1, va, n =>
    if n = 0 then .ok ()
    else do
      let _ ← s.cpLeaf p va write
      let m := Nat.min n (65536 - va % 65536)
      s.cpPages p write k (va + m) (n - m)

/-- Every page of a span is mapped with R, or with W. -/
def State.cpMapped (s : State) (p va n : Nat) (write : Bool) : Cp Unit := s.cpPages p write (n / 65536 + 2) va n

/-- The lines of spans of a partition's memory have been read (R423). -/
def State.cpTouch (s : State) (p : Nat) (l : List (Nat × Nat)) : State :=
  l.foldl (fun s b => (List.range (b.2 / 65536 + 2)).foldl (fun (s : State) i =>
    let a := Nat.max b.1 ((b.1 / 65536 + i) * 65536)
    match s.walk p a with
    | .leaf e => s.touchLines (e.phys a) (Nat.min ((b.1 / 65536 + i + 1) * 65536) (b.1 + b.2) - a)
    | _ => s) s) s

/-- Bytes within a line written in a partition's memory, at their home, and entered into the dirty tables; the writer is a block, or
none. -/
def State.cpStore (s : State) (p va n v : Nat) (w : Option (Nat × Nat) := none) (comp : Nat := 0) : Cp State := do
  let e ← s.cpLeaf p va true comp
  match s.readyScrub p e with
  | some t =>
    if t.lineLive (e.phys va / 64) || (va % 64 = 0 && n = 64) then return t.perform p (e.phys va) n v none none none w
    else .error (.bad (e.phys va))
  | none => .error (.wait e.pa)

/-- A list of bytes written in pieces that stay within a line; the first number is fuel, one unit a piece. -/
def State.cpPieces (s : State) (p : Nat) (w : Option (Nat × Nat)) (comp : Nat) : Nat → Nat → List Byte → Cp State
  | 0, _, _ => .ok s
  | _, _, [] => .ok s
  | k + 1, va, l => do
    let m := 64 - va % 64
    (← s.cpStore p va (Nat.min m l.length) (ofBytes (l.take m)) w comp).cpPieces p w comp k (va + m) (l.drop m)

/-- A list of bytes written in partition memory. -/
def State.cpStores (s : State) (p va : Nat) (w : Option (Nat × Nat) := none) (l : List Byte) (comp : Nat := 0) : Cp State :=
  s.cpPieces p w comp (l.length / 64 + 2) va l

/-- A write that is left out where it cannot be made; one for which no scrub record is free waits (R421). [log 39, DEDUCED] -/
def State.cpTry (s : State) (p va n v : Nat) : State :=
  match s.cpStore p va n v, s.cpLeaf p va true with
  | .ok t, _ => t
  | .error (.wait _), .ok e => (s.deviceWrite p e (e.phys va) n v).trackWrite (e.phys va) n none
  | .error _, _ => s

/-! ### Queues -/

/-- A queue descriptor (R365). -/
structure QDesc where
  base : Nat
  size : Nat
  head : Nat
  tail : Nat
  replay : Nat
  prio : Nat
  en : Bool
  dev : Bool
  report : Nat
deriving DecidableEq, Repr

/-- A power of two within a range. -/
def powerIn (n lo hi : Nat) : Bool := (List.range 64).any (fun k => n == 2 ^ k) && decide (lo ≤ n ∧ n ≤ hi)

/-- The fields of the descriptor that 64 bytes hold (R365). -/
def queueFields (m : Nat) : QDesc :=
  let f := natBytes m
  { base := f 0 8, size := f 8 4, head := f 12 4, tail := f 16 4, replay := f 20 4, prio := f 24 1, en := natBit (f 25 1) 0,
    dev := natBit (f 25 1) 1, report := f 32 8 }

/-- The descriptor; none where it counts as EN = 0 (R365). [log 84, DEDUCED] -/
def queueOf (m : Nat) : Option QDesc :=
  let f := natBytes m
  if powerIn (f 8 4) 4 65536 && f 0 8 % 4096 == 0 && f 27 5 == 0 && f 40 24 == 0 && f 24 1 < 4 && f 25 1 < 4 then some (queueFields m)
  else none

/-- Address of the descriptor of queue q of partition p. -/
def State.queueAt (s : State) (p q : Nat) : Nat := (s.part p).qtab + 64 * q

/-- The enabled queue q of partition p. -/
def State.queue (s : State) (p q : Nat) : Cp (Option QDesc) := do
  let m ← s.cpRead p (s.queueAt p q) 64
  return match queueOf m with | some d => if d.en then some d else none | none => none

/-- Address of the slot of an index. -/
def QDesc.slot (d : QDesc) (i : Nat) : Nat := d.base + 64 * (i % d.size)

/-- The next index, modulo 2^32 (R365). -/
def nextIdx (i : Nat) : Nat := (i + 1) % 2 ^ 32

/-- A launch of the queue is being taken: it is not yet admitted (R367). -/
def Launch.taking (l : Launch) : Bool := match l.stage with | .key | .xlat | .admission => true | _ => false

/-- The fields of a MARK or WAITVAL packet are valid (R371, R372). -/
def markOk (m : Nat) : Bool :=
  let f := natBytes m
  f 1 1 == 0 && decide (6 ≤ f 2 1 ∧ f 2 1 ≤ 10) && (if f 0 1 = 3 then f 3 1 == 0 else decide (f 3 1 ≤ 1)) && f 4 4 == 0
    && f 8 8 % 8 == 0 && f 24 40 == 0

/-- The packet may be taken (R366, R367): TYPE 0 holds the queue, SERIAL waits for the launches of its queue, a traced packet for its set;
an invalid MARK, WAITVAL or TYPE holds the queue. -/
def State.mayTake (s : State) (p q m : Nat) : Bool :=
  let r := s.part p
  let f := natBytes m 1 1
  match natBytes m 0 1 with
  | 0 => false
  | 1 | 2 => !(natBit f 0 && r.launches.any fun e => e.2.q == q) && !(natBit f 2 && ((r.tsets[Fin.ofNat 4 (natBits f 3 2)]).launch).isSome)
  | 3 | 4 => markOk m
  | _ => false

/-- The queue has a packet at its head, and no earlier one holds it (R366, R367). A page that is not present is met when the packet is
taken. -/
def State.queueHas (s : State) (p q : Nat) (d : QDesc) : Bool :=
  let r := s.part p
  (r.qwait[Fin.ofNat 8 q] == .none) && !(r.launches.any fun e => e.2.q == q && e.2.taking) && d.head != d.tail

/-- The queue has a packet that can be taken, with its priority (R366, R367). -/
def State.takePrio (s : State) (p q : Nat) : Option Nat :=
  match s.queue p q with
  | .ok (some d) =>
    if s.queueHas p q d then
      match s.cpRead p (d.slot d.head) 64 with
      | .ok m => if s.mayTake p q m then some d.prio else none
      | .error (.absent _) | .error (.tag _) => some d.prio
      | .error _ => none
    else none
  | _ => none

/-- The queue that the command processor serves next: the highest PRIO, and among equals the next after the one served last
(R367). -/
def State.nextQueue (s : State) (p : Nat) : Option Nat :=
  let order := (List.range 8).map fun i => ((s.part p).lastQ + 1 + i) % 8
  (order.foldl (fun (b : Option (Nat × Nat)) q =>
    match s.takePrio p q, b with
    | some n, none => some (n, q)
    | some n, some (m, k) => if n > m then some (n, q) else some (m, k)
    | none, b => b) none).map (·.2)

/-- HEAD moved on past a packet. -/
def State.passHead (s : State) (p q : Nat) (i : Nat) : State := s.cpTry p (s.queueAt p q + 12) 4 (nextIdx i)

/-- STATE of a queue written (R365). -/
def State.queueState (s : State) (p q v : Nat) : State := s.cpTry p (s.queueAt p q + 26) 1 v

/-- REPLAY moved on to an index: every slot passed gets TYPE 0 (R366); the number bounds the slots. -/
def State.passReplay (s : State) (p q : Nat) (d : QDesc) (goal : Nat) : Nat → Nat → State
  | 0, _ => s.cpTry p (s.queueAt p q + 20) 4 goal
  | k + 1, i =>
    if i = goal then s.cpTry p (s.queueAt p q + 20) 4 goal
    else (s.cpTry p (d.slot i) 1 0).passReplay p q d goal k (nextIdx i)

/-! ### Page faults of the command processor (R372, R289) -/

/-- A page is not present: a record with ACCESS 11 goes to the ring, and the command processor waits. [log 38, DEDUCED] -/
def State.cpFault (s : State) (p va : Nat) : State :=
  let (tok, s) := s.takeTok
  let s := s.modPart p fun t => { t with cpToken := some tok, cpPage := va / 65536 }
  s.sendRecord p (ringRecord 5 11 p 0 tok va 0 (s.part p).asid 0)

/-- A step of the command processor: its result, or the wait, the page fault, the scrub record or the error that it meets (R372, R421). -/
def State.cpStep (s : State) (p : Nat) (r : Cp State) : Option State :=
  match r with
  | .ok t => some t
  | .error (.absent va) => some (s.cpFault p va)
  | .error (.bad pa) => some (s.uncorrectable p pa 0 false)
  | .error (.tag e) => s.readyScrub p e
  | .error _ => none

/-! ### Packets, descriptors and binaries -/

/-- A condition without which the packet is invalid, with its SUB. -/
def cpNeed (b : Bool) (sub : Nat) : Cp Unit := if b then .ok () else .error (.invalid sub)

/-- A read whose refusal makes the packet invalid. -/
def cpOr {α : Type} (sub : Nat) (r : Cp α) : Cp α := match r with | .error .refused => .error (.invalid sub) | x => x

/-- The checks of the packet's own fields (R368, R372). -/
def State.packetOk (s : State) (p : Nat) (m : Nat) : Bool :=
  let f := natBytes m
  let re := f 0 1 == 2
  let flags := f 1 1
  let first := f 44 4
  let count := f 48 4
  natBits flags 5 3 == 0 && 1 ≤ f 2 1 % 16 && natBits (f 2 1) 6 2 == 0 && (re || f 3 1 == 0) && (1 ≤ f 40 3 && f 40 3 ≤ 16777214)
    && f 43 1 == 0 && f 52 4 == 0 && decide (first < (s.part p).len ∧ first + count ≤ (s.part p).len) && (!re || natBit flags 2)

/-- The checks of the launch descriptor (R369, R372); `trace` is the packet's TRACE. -/
def descOk (d : Nat) (trace : Bool) : Bool :=
  let f := natBytes d
  f 0 16 == 0 && f 136 4 ≤ 4096 && f 160 96 == 0 && (trace || f 152 8 == 0)

/-- The used ranges of a trace descriptor (R379). -/
def traceRanges (d : Nat) : List (Nat × Nat) :=
  ((List.range 8).map fun j => (natBytes d (16 + 16 * j) 8, natBytes d (24 + 16 * j) 4)).filter fun r => r.2 != 0

/-- Two ranges of tiles overlap. -/
def rangesMeet (a b : Nat × Nat) : Bool := decide (a.1 < b.1 + 4096 * b.2 ∧ b.1 < a.1 + 4096 * a.2)

/-- No two ranges of a list overlap. -/
def rangesApart : List (Nat × Nat) → Bool
  | [] => true
  | r :: l => l.all (fun q => !rangesMeet r q) && rangesApart l

/-- The checks of a trace descriptor (R379). -/
def traceOk (d : Nat) : Bool :=
  let f := natBytes d
  let l := traceRanges d
  let nt := l.foldl (fun n r => n + r.2) 0
  f 0 8 % 4096 == 0 && f 8 8 % 4096 == 0 && f 152 104 == 0
    && (List.range 8).all (fun j => f (28 + 16 * j) 4 == 0)
    && l.all (fun r => r.1 % 4096 == 0 && decide (f 0 8 ≤ r.1 ∧ r.1 + 4096 * r.2 ≤ f 0 8 + f 8 8))
    && rangesApart l && (1 ≤ nt && nt ≤ 2 ^ 31)

/-- Length of the trace area (R372, R380). -/
def areaLen (nt blocks : Nat) : Nat := roundUp (64 + 8 * nt) 256 + 512 * blocks

/-- The regions of a binary: offset and length of the translator image, the private code, the data image and the constant image
(R104). [log 89, DESIGN CHOICE] -/
def binRegions (h : Nat) : List (Nat × Nat) := [8, 16, 32, 40].map fun o => (natBytes h o 4, natBytes h (o + 4) 4)

/-- Two regions overlap. -/
def regionsMeet (a b : Nat × Nat) : Bool := decide (a.1 < b.1 + b.2 ∧ b.1 < a.1 + a.2 ∧ a.2 ≠ 0 ∧ b.2 ≠ 0)

/-- No two regions of a list overlap. -/
def regionsApart : List (Nat × Nat) → Bool
  | [] => true
  | r :: l => l.all (fun q => !regionsMeet r q) && regionsApart l

/-- The header of a binary is well formed (R105). [log 89, DESIGN CHOICE] -/
def binOk (h : Nat) : Bool :=
  let f := natBytes h
  let l := binRegions h
  f 0 4 == 0x424E524B && f 4 4 == 1 && f 56 8 == 0 && (f 12 4 != 0 && f 12 4 % 2 == 0 && f 12 4 ≤ 65536) && f 20 4 ≤ 2 ^ 28
    && (f 24 4 != 0 && f 24 4 ≤ 8388608) && (f 44 4 % 8 == 0 && f 44 4 ≤ 1920)
    && l.all (fun r => r.1 % 64 == 0 && (r.1 ≥ 64 || r.2 == 0)) && regionsApart l

/-- The translation key of an image, private code and arguments (R55). -/
def State.translationKey (s : State) (t priv arg : List Byte) : Nat :=
  ofBytes (shake256 (toBytes 8 t.length ++ t ++ toBytes 8 priv.length ++ priv ++ toBytes 8 arg.length ++ arg ++ s.chipDigest) 32)

/-- The parameter digest of a launch (R380). -/
def paramDigest (key : Nat) (seed1 seed2 seed3 : W) (blocks : Nat) (konst : List Byte) : Nat :=
  ofBytes (shake256 (toBytes 32 key ++ doubles [seed1, seed2, seed3] ++ toBytes 4 blocks ++ toBytes 4 konst.length ++ konst) 8)

/-- The spans of memory that are read for a LAUNCH or RELAUNCH packet m in queue q: queue descriptors, slot, launch and trace descriptors,
arguments, binary (R105, R369, R423). -/
def State.launchSpans (s : State) (p q i m : Nat) : List (Nat × Nat) :=
  let desc := natBytes m 56 8
  let bin := natBytes m 8 8
  let slot := match s.cpRead p (s.queueAt p q) 64 with | .ok w => (queueFields w).slot i | .error _ => 0
  [((s.part p).qtab, 512), (slot, 64)]
    ++ (match s.cpRead p desc 256 with
        | .ok d => [(desc, 256), (natBytes d 128 8, natBytes d 136 4)] ++ (if natBit m 10 then [(natBytes d 152 8, 256)] else [])
        | .error _ => [])
    ++ (match s.cpRead p bin 64 with
        | .ok h => (bin, 64) :: (binRegions h).map fun r => (bin + r.1, r.2)
        | .error _ => [])

/-- Everything that the command processor reads and checks of a LAUNCH or RELAUNCH packet, taken from index i of queue q (R105, R368,
R369, R372). [log 37, DESIGN CHOICE] [log 58, DEDUCED] [log 100, DESIGN CHOICE] -/
def State.readLaunch (s : State) (p q i m : Nat) : Cp Launch := do
  let f := natBytes m
  let re := f 0 1 == 2
  let flags := f 1 1
  let trace := natBit flags 2
  cpNeed (s.packetOk p m) 1
  let desc := f 56 8
  cpNeed (desc % 256 == 0) 2
  let d ← cpOr 2 (s.cpRead p desc 256)
  cpNeed (descOk d trace) 2
  let g := natBytes d
  let arg ← cpOr 2 (s.cpBytes p (g 128 8) (g 136 4))
  let blocks := f 40 3
  let td ← if trace then do
      cpNeed (g 152 8 % 256 == 0) 3
      let t ← cpOr 3 (s.cpRead p (g 152 8) 256)
      cpNeed (traceOk t) 3
      let nt := (traceRanges t).foldl (fun n r => n + r.2) 0
      let area := natBytes t 144 8
      cpOr 3 (s.cpMapped p area (areaLen nt blocks) false)
      cpOr 3 (s.cpMapped p area (areaLen nt blocks) true)
      pure t
    else pure 0
  let bin := f 8 8
  let h ← cpOr 4 (s.cpRead p bin 64)
  cpNeed (binOk h) 4
  let b := natBytes h
  let image ← cpOr 4 (s.cpBytes p (bin + b 8 4) (b 12 4))
  let priv ← cpOr 4 (s.cpBytes p (bin + b 16 4) (b 20 4))
  let data ← cpOr 4 (s.cpBytes p (bin + b 32 4) (b 36 4))
  let konst ← cpOr 4 (s.cpBytes p (bin + b 40 4) (b 44 4))
  let dst := if re then 0 else g 144 8
  if dst ≠ 0 then cpOr 2 (s.cpMapped p dst data.length true)
  let key := s.translationKey image priv arg
  let seed := fun (o : Nat) => BitVec.ofNat 64 (f o 8)
  let trc : Option TBind := if trace then
      some { gbase := natBytes td 0 8, glen := natBytes td 8 8, ranges := traceRanges td, area := natBytes td 144 8,
             nt := (traceRanges td).foldl (fun n r => n + r.2) 0, pdig := paramDigest key (seed 16) (seed 24) (seed 32) blocks konst }
    else none
  let count := f 48 4
  return {
    q := q, i := i, re := re, serial := natBit flags 0, gw := natBit flags 1, trace := trace, tset := natBits flags 3 2,
    quota := f 2 1 % 16, eclass := natBits (f 2 1) 4 2, wlim := f 3 1, lid := f 4 4, seed1 := seed 16, seed2 := seed 24, seed3 := seed 32,
    blocks := blocks, first := (s.part p).base + f 44 4, count := if count = 0 then (s.part p).len - f 44 4 else count,
    sgb := .ofFn fun k => .ofNat 64 (g (16 * k.val) 8), sgl := .ofFn fun k => .ofNat 64 (g (16 * k.val + 8) 8) &&& 0x031FFFFFFFFFFFFF,
    key := key, image := image, priv := priv, arg := arg, cap := b 24 4, budget := if g 140 4 = 0 then b 28 4 else g 140 4,
    konst := konst, data := data, dataTo := dst, trc := trc, stage := .key }

end Sys2Proof.Machine
end

