-- ==== Sys2Proof/Machine/Launch.lean ====
section
/-! DEFINITION. Packets taken from the queues, translations started and ended, admission, trace sets, seeding, waves, completion
(01 R21, R22, R88; 02 R55 to R57; 22 R365 to R386; 18 R336; 23 R395 to R398). -/

namespace Sys2Proof.Machine

/-- Launch x of partition p changed. -/
def State.modLaunch (s : State) (p x : Nat) (f : Launch → Launch) : State :=
  s.modPart p fun t => { t with launches := t.launches.map fun e => if e.1 = x then (x, f e.2) else e }


/-- The command processor of partition p can act: the partition is enabled and no page fault of it is outstanding (R372, R419). -/
def State.cpFree (s : State) (p : Nat) : Bool := (s.part p).en && !(s.part p).rst && (s.part p).cpToken.isNone

/-! ### Reports and the end of a launch (R370, R372) -/

/-- The 32 bytes of a launch's report (R372). [log 52, DEDUCED] [log 54, DESIGN CHOICE] -/
def Launch.report (l : Launch) : List Byte :=
  let bit := fun (b : Bool) (i : Nat) => if b then 2 ^ i else 0
  toBytes 1 l.rcode ++ toBytes 1 l.rsub ++ toBytes 2 l.reason ++ toBytes 4 l.lid ++ toBytes 4 l.units ++ toBytes 4 l.gpc
    ++ toBytes 4 l.outLen ++ toBytes 4 l.runs ++ toBytes 2 l.wave ++ toBytes 1 (bit l.full 0 + bit l.final 1 + bit l.hit 2) ++ toBytes 1 0
    ++ toBytes 4 l.unset

/-- A report written at its place in the report area of its queue; a page that is not present is waited for, and a place without W, or given
up, leaves the report out (R365, R372). [log 39, DEDUCED] -/
def State.putReport (s : State) (p q i : Nat) (bytes : List Byte) : Cp State :=
  let put : Cp State := do
    let d := queueFields (← s.cpRead p (s.queueAt p q) 64)
    s.cpStores p (d.report + 32 * (i % d.size)) none bytes
  match put with
  | .error .refused => .ok s
  | r => r

/-- The active entries of a set with EXT = 0 set to zero (R383). -/
def State.zeroOwn (s : State) (p : Nat) (t : TSet) : State :=
  (List.range t.nt).foldl (fun (s : State) n =>
    match s.deviceRead p (t.dirtyAt n) 4 with
    | (some e, s) => if e ≠ 0 ∧ !natBit e 30 then (s.deviceStore p (t.dirtyAt n) 4 0).getD s else s
    | (none, s) => s) s

/-- The trace set of a launch that ends is free: its own entries are zeroed, BUSY ← 0 (R383, R384). -/
def State.freeSet (s : State) (p x : Nat) : State :=
  (List.finRange 4).foldl (fun (s : State) k =>
    let t := (s.part p).tsets[k]
    if t.launch = some x then
      let s := if t.valid then s.zeroOwn p t else s
      s.putSet p k { t with busy := false, launch := none }
    else s) s

/-- A launch completes: its report is written, its set is free, its charge is released (R370, R372). -/
def State.endLaunch (s : State) (p x : Nat) (l : Launch) : Cp State := do
  let s ← s.putReport p l.q l.i l.report
  return (s.freeSet p x).modPart p fun t => { t with launches := adel t.launches x }

/-- A launch fails before any block ran, and has only its report left to write (R372): code, SUB, REASON. -/
def State.failLaunch (s : State) (p x : Nat) (code sub reason : Nat) : State :=
  match s.launchAt p x with
  | some l =>
    let s := s.modLaunch p x fun l =>
      { l with stage := .done, step4 := none, rcode := code, rsub := sub, reason := reason, wave := 0, full := false }
    if l.taking then s.queueState p l.q 0 else s
  | none => s

/-! ### Translation keys (R21, R22) -/

/-- The launch waits for the translation of its key, or is being translated. -/
def Launch.keyed (l : Launch) : Bool := match l.stage with | .key | .xlat => true | _ => false

/-- The launch uses a cache entry and asks for admission (R21 steps 3 and 7). [log 52, DEDUCED] -/
def State.useEntry (s : State) (p x : Nat) (e : XEntry) (hit : Bool) : State :=
  let s := s.modPart p fun t =>
    { t with xuse := t.xuse + 1, xcache := t.xcache.map fun k => if k.key = e.key then { k with used := t.xuse + 1 } else k }
  let n := s.arrivals
  ({ s with arrivals := n + 1 } : State).modLaunch p x fun l =>
    { l with stage := .admission, hit := hit, code := e.va, outLen := e.outLen, arrival := n, step4 := none }

/-- The launch reaches step 4 of R21. -/
def State.toStep4 (s : State) (p x : Nat) : State :=
  let n := (s.part p).xorder
  (s.modPart p fun t => { t with xorder := n + 1 }).modLaunch p x fun l => { l with step4 := some n }

/-- The launch waits at step 2, goes on to step 4, or proceeds as a hit (R21, R22). -/
def State.lookup (s : State) (p x : Nat) : State :=
  match s.launchAt p x with
  | some l =>
    match (s.part p).xcache.find? fun e => e.key == l.key with
    | some e => s.useEntry p x e true
    | none => if (s.part p).launches.any fun e => e.1 != x && e.2.key == l.key && e.2.keyed then s else s.toStep4 p x
  | none => s

/-- The launches that wait behind a translation of a key go on once it has ended: all as hits when it was cached, else the oldest to step
4 (R22). -/
def State.keyEnded (s : State) (p key : Nat) : State :=
  let waits := (s.part p).launches.filter fun e => e.2.key == key && e.2.keyed && e.2.step4.isNone
  match (s.part p).xcache.find? fun e => e.key == key with
  | some e => waits.foldl (fun s w => s.useEntry p w.1 e true) s
  | none => match waits with | w :: _ => s.toStep4 p w.1 | [] => s

/-! ### Taking packets (R366, R367) -/

/-- The packet at index i of queue q is taken: HEAD moves on, and the queue is the one served last (R365, R367). [log 73, DEDUCED] -/
def State.took (s : State) (p q i : Nat) : State :=
  (s.passHead p q i).modPart p fun t => { t with lastQ := q, cpGone := [] }

/-- An invalid LAUNCH or RELAUNCH of launch identifier lid: it reports 0xF1 with its SUB and runs no block (R372). -/
def Launch.invalid (q i lid sub : Nat) : Launch :=
  { q := q, i := i, re := false, serial := false, gw := false, trace := false, tset := 0, quota := 0, eclass := 0, wlim := 0, lid := lid,
    seed1 := 0, seed2 := 0, seed3 := 0, blocks := 0, first := 0, count := 0, sgb := .replicate 8 0, sgl := .replicate 8 0, key := 2 ^ 256,
    image := [], priv := [], arg := [], cap := 0, budget := 0, konst := [], data := [], dataTo := 0, stage := .done, wave := 0,
    rcode := 0xF1, rsub := sub }

/-- An invalid packet is taken; only its report is left to write (R372). -/
def State.badPacket (s : State) (p q i m sub : Nat) : State :=
  ((s.took p q i).queueState p q 0).modPart p fun t =>
    { t with nextL := t.nextL + 1, launches := aset t.launches t.nextL (.invalid q i (natBytes m 4 4) sub) }

/-- A launch that has been read enters the partition; a gateway launch needs a gateway cluster in its sub-range (R336, R372); a traced one
makes its set BUSY (R384). [log 42, DEDUCED] [log 73, DEDUCED] -/
def State.enterLaunch (s : State) (p : Nat) (l : Launch) (prio : Nat) : State :=
  let x := (s.part p).nextL
  let s := (s.took p l.q l.i).queueState p l.q 1
  let s := s.modPart p fun t => { t with nextL := x + 1, launches := aset t.launches x { l with prio := prio } }
  if l.gw && !((List.range l.count).any fun i => isGateway (l.first + i)) then s.failLaunch p x 0xF3 0 0
  else
    let s := if l.trace then
        let k : Fin 4 := Fin.ofNat 4 l.tset
        s.putSet p k { (s.part p).tsets[k] with busy := true, launch := some x }
      else s
    s.lookup p x

/-- The packet at the head of queue q, of TYPE t, is a launch: it is taken, held, or invalid (R366 to R372). [log 42, DEDUCED] -/
def State.takeLaunch (s : State) (p q t : Nat) : Option State :=
  if !s.cpFree p then none
  else s.cpStep p do
    match ← s.queue p q with
    | none => .error (.wait 0)
    | some d =>
      if !s.queueHas p q d then .error (.wait 0)
      let m ← s.cpRead p (d.slot d.head) 64
      if natBytes m 0 1 ≠ t then .error (.wait 0)
      else if !s.mayTake p q m then return s.queueState p q 3
      else if s.nextQueue p ≠ some q then .error (.wait 0)
      else
        let u := s.cpTouch p (s.launchSpans p q d.head m)
        match s.readLaunch p q d.head m with
        | .error (.invalid sub) => return u.badPacket p q d.head m sub
        | .error e => .error e
        | .ok l => return u.enterLaunch p l d.prio

/-- LAUNCH: the command processor of partition p takes a LAUNCH from queue x (R21 steps 1 and 2). -/
def execLaunch (s : State) : Host.Outcome State Fault Refusal := event s (s.takeLaunch (s.ev.p % 16) (s.ev.x % 8) 1)

/-- RELAUNCH: the command processor of partition p takes a RELAUNCH from queue x. -/
def execRelaunch (s : State) : Host.Outcome State Fault Refusal := event s (s.takeLaunch (s.ev.p % 16) (s.ev.x % 8) 2)

/-- The packet at the head of queue q is a MARK or a WAITVAL, which is taken and holds the queue (R371); `w` makes its wait. -/
def State.takeHold (s : State) (p q t state : Nat) (w : Nat → Nat → QWait) : Option State :=
  if !s.cpFree p then none
  else s.cpStep p do
    match ← s.queue p q with
    | none => .error (.wait 0)
    | some d =>
      if !s.queueHas p q d then .error (.wait 0)
      let m ← s.cpRead p (d.slot d.head) 64
      if natBytes m 0 1 ≠ t ∨ s.nextQueue p ≠ some q then .error (.wait 0)
      else
        let s := ((s.cpTouch p [((s.part p).qtab, 512), (d.slot d.head, 64)]).took p q d.head).queueState p q state
        return s.modPart p fun r => { r with qwait := r.qwait.set (Fin.ofNat 8 q) (w d.head m) }

/-- MARK: the command processor of partition p takes a MARK from queue x (R371). -/
def execMark (s : State) : Host.Outcome State Fault Refusal :=
  event s (s.takeHold (s.ev.p % 16) (s.ev.x % 8) 3 3 fun i m => .mark i (natBytes m 2 1) (natBytes m 8 8) (natBytes m 16 8) none)

/-- WAITVAL: the command processor of partition p takes a WAITVAL from queue x (R371). -/
def execWaitval (s : State) : Host.Outcome State Fault Refusal :=
  event s (s.takeHold (s.ev.p % 16) (s.ev.x % 8) 4 2 fun i m =>
    .waitval i (natBytes m 2 1) (natBytes m 3 1) (natBytes m 8 8) (natBytes m 16 8) none)

/-- The scope of a packet after the clamp (R371). -/
def State.packetScope (s : State) (p n : Nat) : Scope := if (s.part p).guest && 6 < n then .part else scopeOf n

/-- The scope of a packet takes the cross-die actions in partition p (R260). -/
def State.packetCross (s : State) (p : Nat) (sc : Scope) : Bool :=
  match sc with | .part => (s.part p).multiDie | _ => true

/-- No launch of queue q is left (R371). -/
def State.queueQuiet (s : State) (p q : Nat) : Bool := !(s.part p).launches.any fun e => e.2.q == q

/-- The queue's wait changed. -/
def State.setWait (s : State) (p q : Nat) (w : QWait) : State := s.modPart p fun t => { t with qwait := t.qwait.set (Fin.ofNat 8 q) w }

/-- The release of a MARK of partition p is over: HIO writes that reached the package before it, and, across dies, the invalidations that
writes of the partition or of the host caused (R260, R262, R371). -/
def State.markReleased (s : State) (p hio : Nat) (sc : Scope) : Bool :=
  let r := s.part p
  s.hioDone hio && !(s.packetCross p sc && s.invals.any fun v => match v.src with
    | some g => decide (r.base ≤ g / 8 ∧ g / 8 < r.base + r.len)
    | none => true)

/-- The MARK of queue q writes its value once the earlier packets have completed and its release is over; REPLAY moves on behind it
(R371, R366). [log 56, DEDUCED] -/
def State.markStore (s : State) (p q : Nat) : Option State :=
  match (s.part p).qwait[Fin.ofNat 8 q] with
  | .mark i sc addr v hio =>
    if !s.cpFree p || !s.queueQuiet p q then none
    else
      let n := hio.getD s.hioSeq
      if !s.markReleased p n (s.packetScope p sc) then some (s.setWait p q (.mark i sc addr v (some n)))
      else
        match s.cpStore p addr 8 v with
        | .error .refused => some (s.modPart p fun t => { t with cpGone := [] })
        | r => s.cpStep p do
          let s ← r
          let s := (s.setWait p q .none).queueState p q 0
          match s.cpRead p (s.queueAt p q) 64 with
          | .ok m =>
            let d := queueFields m
            return s.passReplay p q d (nextIdx i) (Nat.min d.size 65536) d.replay
          | .error _ => return s.cpTry p (s.queueAt p q + 20) 4 (nextIdx i)
  | _ => none

/-- MARK_STORE: the MARK that holds queue x of partition p writes its value (R371). -/
def execMarkStore (s : State) : Host.Outcome State Fault Refusal := event s (s.markStore (s.ev.p % 16) (s.ev.x % 8))

/-- The condition of a WAITVAL (R371). -/
def condHolds (cond got want : Nat) : Bool := if cond = 0 then got == want else decide (want ≤ got)

/-- The acquire of a WAITVAL of partition p, behind the invalidations and the HIO writes below two numbers, is over (R260). -/
def State.waitAcquired (s : State) (p : Nat) (sc : Scope) (swept : Nat × Nat) : Bool :=
  !(s.packetCross p sc && s.invals.any fun v => decide (v.seq < swept.1)) && (!scopeHio sc || s.hioDone swept.2)

/-- The WAITVAL of queue q reads its address; once the condition holds it acquires, and the queue proceeds (R371). [log 56, DEDUCED] -/
def State.waitSatisfied (s : State) (p q : Nat) : Option State :=
  match (s.part p).qwait[Fin.ofNat 8 q] with
  | .waitval i sc cond addr v swept =>
    if !s.cpFree p then none
    else
      let go := fun (s : State) (w : Nat × Nat) =>
        if s.waitAcquired p (s.packetScope p sc) w then (s.setWait p q .none).queueState p q 0
        else s.setWait p q (.waitval i sc cond addr v (some w))
      match swept with
      | some w => some (go s w)
      | none =>
        match s.cpRead p addr 8 with
        | .ok got =>
          let t := s.cpTouch p [(addr, 8)]
          some (if condHolds cond got v then go t (s.invSeq, s.hioSeq) else t)
        | .error .refused => some (s.modPart p fun t => { t with cpGone := [] })
        | .error e => s.cpStep p (.error e)
  | _ => none

/-- WAITVAL_SATISFIED: the WAITVAL that holds queue x of partition p is satisfied (R371). -/
def execWaitvalSatisfied (s : State) : Host.Outcome State Fault Refusal := event s (s.waitSatisfied (s.ev.p % 16) (s.ev.x % 8))

/-- The packet at the head of queue q is no launch and invalid: it holds the queue with STATE 3 until the slot is rewritten (R367, R372). -/
def State.holdInvalid (s : State) (p q : Nat) : Option State :=
  if !s.cpFree p then none
  else s.cpStep p do
    match ← s.queue p q with
    | none => .error (.wait 0)
    | some d =>
      if !s.queueHas p q d then .error (.wait 0)
      let m ← s.cpRead p (d.slot d.head) 64
      if 3 ≤ natBytes m 0 1 ∧ !s.mayTake p q m then return s.queueState p q 3 else .error (.wait 0)

/-- INVALID_PACKET: an invalid MARK, WAITVAL or TYPE holds queue x of partition p (R367, R372). -/
def execInvalidPacket (s : State) : Host.Outcome State Fault Refusal := event s (s.holdInvalid (s.ev.p % 16) (s.ev.x % 8))

/-! ### LNCH and RELNCH (R388, R389, R391) -/

/-- The packet's TYPE is one that the instruction may enqueue (R389). -/
def lnchType (re : Bool) (t : Nat) : Bool := if re then t == 2 else t == 1 || t == 3 || t == 4

/-- LNCH meets a wait, a page without a scrub record or an error, or has no queue to use (R389, R421, R291). -/
def State.queueStop {α : Type} (s : State) (e : CpStop) : Act α :=
  match e with
  | .wait f => .error (.park .mem (.scrub f))
  | .tag e => .error (.held (((s.readyScrub (s.partNo s.core) e).getD s).parkCur .mem (.scrub e.pa)))
  | .bad pa => s.lineBad pa
  | _ => raiseSub .etrace 2

/-- The descriptor of a queue that device code may use; a page that is not present is met as for any access (R389, R365). -/
def State.devQueue (s : State) (q : Nat) : Act QDesc :=
  match s.cpRead (s.partNo s.core) (s.queueAt (s.partNo s.core) q) 64 with
  | .ok m =>
    match queueOf m with
    | some d => if d.en && d.dev then .ok d else raiseSub .etrace 2
    | none => raiseSub .etrace 2
  | .error (.absent va) => s.notPresent 0 va
  | .error e => s.queueStop e

/-- The reservation of a slot and the packet written into it; the index (R366, R389). [log 51, DEDUCED] -/
def State.enqueue (s : State) (d : Reg) (q : Nat) (packet : List Byte) : Act State := do
  let k ← s.devQueue q
  let p := s.partNo s.core
  let s := s.cpTouch p [(s.queueAt p q, 64)]
  if (k.tail + 2 ^ 32 - k.replay) % 2 ^ 32 = k.size then
    let u ← s.writeReg d 0xFFFFFFFFFFFFFFFF
    return u.advance 4
  else
    let w := s.cur.writer
    let put := do
      let s ← s.cpStore p (s.queueAt p q + 16) 4 (nextIdx k.tail) w
      let s ← s.cpStores p (k.slot k.tail + 1) w (packet.drop 1)
      s.cpStores p (k.slot k.tail) w (packet.take 1)
    match put with
    | .ok t =>
      let u ← t.writeReg d (.ofNat 64 k.tail)
      return u.advance 4
    | .error (.absent va) => s.notPresent 1 va
    | .error e => s.queueStop e

/-- LNCH and RELNCH: the packet is read and checked at issue, and the context parks; after the release it is enqueued (R389).
[log 51, DEDUCED] -/
def State.lnch (s : State) (re : Bool) (d : Reg) (a b : Src) : Host.Outcome State Fault Refusal :=
  match s.cur.req with
  | some (.enqueue d q packet) =>
    match s.enqueue d q packet with
    | .ok t => finish s (.ok (t.modCur fun c => { c with req := none, step := 0 }))
    | .error (.park k w) => .next (s.parkCur k w)
    | r => finish (s.modCur Ctx.abandon) r
  | _ => finish s do
    let t ← s.readOps [a, b] [d] 7
    let v := (t.g a.r).toNat
    let q := (t.g b.r).toNat
    faultIf (v % 64 ≠ 0) .ealign 0 v
    faultIf (v + 64 > 0x6000) .eseg 0 v
    t.tileGate v
    let packet := Memory.bytes t.here.pad v 64
    faultIf (!lnchType re (Memory.byte t.here.pad v).toNat) .etrace 1
    faultIf (q ≥ 8) .etrace 2
    let _ ← t.devQueue q
    .error (.held ((t.hold .launch (.enqueue d q packet) 4 (.fence .part false)).modCur fun c => { c with prog := some (t.newProg t.core) }))

/-- LNCH (R389). -/
def execLnch (d : Reg) (a b : Src) (s : State) : Host.Outcome State Fault Refusal := s.lnch false d a b

/-- RELNCH (R389). -/
def execRelnch (d : Reg) (a b : Src) (s : State) : Host.Outcome State Fault Refusal := s.lnch true d a b

/-! ### DTMARK, DTWAVE, DTFORGET (R390) -/

/-- The launch of the executing context, when its block is traced. -/
def State.tracedBy (s : State) : Option Launch :=
  match s.cur.role with
  | .block l _ => (match aget? s.curPart.launches l with | some q => if q.trace then some q else none | none => none)
  | _ => none

/-- Every tile that meets a span is recorded as a read (R382, R390). -/
def State.noteSpan (s : State) (va n : Nat) : State :=
  ((List.range (n / 4096)).foldl (fun (s : State) i => s.noteRead s.core s.ctx (va + 4096 * i) 4096) s).noteRead s.core s.ctx va n

/-- DTMARK (R390). -/
def execDtmark (d : Reg) (a : Src) (g : Reg) (s : State) : Host.Outcome State Fault Refusal :=
  finish s do
    let t ← s.readOps [a] [d] 7
    let n := (t.g d).toNat
    if t.tracedBy.isNone || n = 0 then return t.advance 4
    else
      let (loc, va) ← t.seg (segNo g) (t.g a.r) n 1 [.r]
      return (if loc then t else t.noteSpan va n).advance 4

/-- DTWAVE (R390). -/
def execDtwave (d : Reg) (s : State) : Host.Outcome State Fault Refusal :=
  finish s do
    let t ← s.readOps [] [d] 7
    let v := match t.tracedBy with | some l => if l.re then l.wave else 0 | none => 0
    let u ← t.writeReg d (.ofNat 64 v)
    return u.advance 4

/-- DTFORGET (R390). -/
def execDtforget (s : State) : Host.Outcome State Fault Refusal :=
  finish s (.ok (match s.cur.role with
    | .block l i =>
      match s.traceSet s.core l with
      | some t => (s.stageReads s.core s.ctx t i { s.cur.reads with forget := true }).advance 4
      | none => s.advance 4
    | _ => s.advance 4))

/-! ### Translations (R21, R22, R24, R25, R55 to R57) -/

/-- A run of addresses meets none of the taken ones. -/
def runFree (a n : Nat) (busy : List (Nat × Nat)) : Bool := busy.all fun b => decide (a + n ≤ b.1 ∨ b.1 + b.2 ≤ a)

/-- The lowest 64-byte boundary of an area at which a run fits between the taken ones. [log 48, DESIGN CHOICE] -/
def placeRun (base len n : Nat) (busy : List (Nat × Nat)) : Option Nat :=
  ((base :: busy.map fun b => roundUp (b.1 + b.2) 64).filter fun a => decide (base ≤ a ∧ a + n ≤ base + len) && runFree a n busy).foldl
    (fun (b : Option Nat) a => match b with | some c => some (Nat.min a c) | none => some a) none

/-- Runs for items of given sizes, each rounded up to 64 bytes (R57). [log 48, DESIGN CHOICE] -/
def placeRuns (base len : Nat) : List Nat → List (Nat × Nat) → Option (List (Nat × Nat))
  | [], _ => some []
  | n :: r, busy => do
    let m := roundUp n 64
    let a ← placeRun base len m busy
    let rest ← placeRuns base len r ((a, m) :: busy)
    return (a, m) :: rest

/-- A cache entry is used by a launch that has not completed (R57). -/
def Part.inUse (p : Part) (e : XEntry) : Bool := p.launches.any fun l => l.2.key == e.key && !l.2.keyed

/-- The cache without the least recently used entry that no launch uses; none when there is no such entry (R57). -/
def Part.evict (p : Part) : Option Part :=
  let free := p.xcache.filter fun e => !p.inUse e
  match free with
  | [] => none
  | e :: r =>
    let old := r.foldl (fun m k => Nat.min m k.used) e.used
    some { p with xcache := p.xcache.filter fun k => p.inUse k || k.used != old }

/-- Runs for a working set, evicting as few entries as it takes; the number bounds the evictions (R57). -/
def Part.makeRoom (p : Part) (sizes : List Nat) : Nat → Option (Part × List (Nat × Nat))
  | 0 => none
  | n + 1 =>
    match placeRuns p.xarea (65536 * p.xcap) sizes (p.xcache.map (·.spans)).flatten with
    | some l => some (p, l)
    | none => match p.evict with | some q => q.makeRoom sizes n | none => none

/-- The sizes of a translation's working set: control block, image, IN, ARG, SCR, OUT, origin map (R57). -/
def Launch.workSizes (l : Launch) : List Nat :=
  [64, l.image.length, l.priv.length, l.arg.length, 8192, 2 * l.cap, 8 * 65536]

/-- The launch that reached step 4 first and is not translated yet (R22). -/
def Part.nextStep4 (p : Part) : Option (Nat × Launch) :=
  p.launches.foldl (fun (b : Option (Nat × Launch)) e =>
    match e.2.stage, e.2.step4, b with
    | .key, some n, some (_, m) => if n < m.step4.getD 0 then some e else b
    | .key, some _, none => some e
    | _, _, _ => b) none

/-- The first core of partition p. -/
def State.firstCore (s : State) (p : Nat) : Nat := 8 * (s.part p).base

/-- The translation of partition p starts in context 15 of the first core once it is FREE there, and once no copy of the translation area
that is older than its working copies is left on the core's die (R21 step 4, R24 to R26, R30). -/
def State.startXlat (s : State) (p : Nat) (t : Xlat) : State :=
  let g := s.firstCore p
  if (s.ctxAt g 15).st = .free && !(s.coreAt g).frozen && !(s.coreAt g).halted
      && s.invals.all (fun v => v.die != dieOf g || decide (t.inval ≤ v.seq)) then
    let b := (((Vector.replicate 8 (0 : BitVec 32)).set 0 (.ofNat 32 t.plen)).set 1 (.ofNat 32 t.argl)).set 2
      (.ofNat 32 s.recs.length)
    let c : Ctx := { st := .run, notBefore := s.cycle, gydonMode := true, role := .translator t.l
                     gyd := { b := b.set 3 (.ofNat 32 t.cap), pc := 0, meter := t.budget, outLen := 0 } }
    (s.setCtxAt g 15 c).modPart p fun r => { r with xlat := some { t with started := true } }
  else s.modPart p fun r => { r with xlat := some t }

/-- The translation of launch x with its working set placed. [log 79, DEDUCED] -/
def Launch.xlatAt (l : Launch) (x : Nat) (spans : List (Nat × Nat)) : Xlat :=
  let at' := fun (i : Nat) => ((spans[i]?).getD (0, 0)).1
  { l := x, key := l.key, xlen := l.image.length, plen := l.priv.length, argl := l.arg.length, cap := l.cap, budget := l.budget,
    vImage := at' 1, vIn := at' 2, vArg := at' 3, vScr := at' 4, vOut := at' 5, vMap := at' 6, spans := spans }

/-- The working copies of the translator image, IN and ARG, and the zero bytes of SCR, written into the translation area (R25, R30, R57).
[log 79, DEDUCED] -/
def State.putCopies (s : State) (p : Nat) (l : Launch) (t : Xlat) : Cp State := do
  let s ← s.cpStores p t.vImage none l.image
  let s ← s.cpStores p t.vIn none l.priv
  let s ← s.cpStores p t.vArg none l.arg
  s.cpStores p t.vScr none (List.replicate 8192 0)

/-- The next translation of partition p reserves context 15 once its working copies are written, or is refused because its working set does
not fit, or its area cannot be written (R21 step 4, R57). [log 45, DEDUCED] -/
def State.reserveXlat (s : State) (p : Nat) : Option State :=
  let r := s.part p
  if !s.cpFree p then none
  else match r.xlat with
    | some t => if t.started then none else some (s.startXlat p t)
    | none =>
      match r.nextStep4 with
      | none => none
      | some (x, l) =>
        match r.makeRoom l.workSizes (r.xcache.length + 1) with
        | some (r, spans) =>
          let t := l.xlatAt x spans
          match (s.setPart p r).putCopies p l t with
          | .ok u => some ((u.modLaunch p x fun l => { l with stage := .xlat }).startXlat p { t with inval := u.invSeq })
          | .error .refused => some ((s.failLaunch p x FaultCode.eprot.code 0 0).keyEnded p l.key)
          | .error e => s.cpStep p (.error e)
        | none => some ((s.failLaunch p x 0xF4 0 0).keyEnded p l.key)

/-- TRANSLATION_START: the leaf controller of partition p's first cluster reserves context 15 for the next translation, and starts it when
the context is FREE (R21 step 4). -/
def execTranslationStart (s : State) : Host.Outcome State Fault Refusal := event s (s.reserveXlat (s.ev.p % 16))

/-- Context 15 returns to the leaf controller (R21 step 6). -/
def State.freeXlat (s : State) (p : Nat) : State :=
  (s.setCtxAt (s.firstCore p) 15 {}).modPart p fun r => { r with xlat := none }

/-- The translation of partition p is refused (R22, R53): code, SUB, REASON, with the counts that the report gives. -/
def State.refuseXlat (s : State) (p : Nat) (t : Xlat) (code sub reason units gpc outLen : Nat) : State :=
  let s := (s.freeXlat p).modLaunch p t.l fun l => { l with units := units, gpc := gpc, outLen := outLen }
  (s.failLaunch p t.l code sub reason).keyEnded p t.key

/-- The translation of partition p is cached, and its launch asks for admission; the launches that wait for its key hit (R22, R55, R57). -/
def State.cacheXlat (s : State) (p : Nat) (t : Xlat) (units gpc : Nat) : State :=
  let n := t.out.length
  let spanAt := fun (i : Nat) (n : Nat) => (((t.spans[i]?).getD (0, 0)).1, n)
  let e : XEntry := { key := t.key, va := t.vOut, outLen := n, omap := t.omap.reverse, units := units, used := 0
                      spans := [spanAt 0 64, spanAt 5 (roundUp (2 * n) 64), spanAt 6 (roundUp (8 * t.omap.length) 64)] }
  let s := (s.freeXlat p).modPart p fun r => { r with xcache := r.xcache ++ [e] }
  let s := (s.modLaunch p t.l fun l => { l with units := units, gpc := gpc }).useEntry p t.l e false
  s.keyEnded p t.key

/-! ### Admission (R373, R374) -/

/-- The weight of an energy class (R373). -/
def classWeight (e : Nat) : Nat := 2 ^ e

/-- The cost of a launch: sector, units (R373). -/
def Launch.cost (l : Launch) : List (Nat × Nat) :=
  let lo := sectorOf l.first
  let hi := sectorOf (l.first + l.count - 1)
  (List.range (hi + 1 - lo)).map fun i =>
    let k := lo + i
    (k, (Nat.min (l.first + l.count) (256 * (k + 1)) - Nat.max l.first (256 * k)) * classWeight l.eclass)

/-- ESB of a sector (R373). -/
def State.sectorBudget (s : State) (k : Nat) : Nat := aget s.esb k 1024

/-- What a sector admits against: half of ESB while its temperature exceeds the threshold (R373, R454). -/
def State.sectorLimit (s : State) (k : Nat) : Nat :=
  if s.hot.contains k then s.sectorBudget k / 2 else s.sectorBudget k

/-- The charges that a sector bears (R373). -/
def State.sectorCharge (s : State) (k : Nat) : Nat :=
  (s.parts.toList.map fun p => (p.launches.map fun l => ((l.2.charge.filter fun c => c.1 == k).map (·.2)).sum).sum).sum

/-- The launch waits for admission. -/
def Launch.waits (l : Launch) : Bool := match l.stage with | .admission => true | _ => false

/-- Launch a is considered before launch b (R374). -/
def Launch.before (a b : Launch) : Bool := decide (b.prio < a.prio ∨ (a.prio = b.prio ∧ a.arrival < b.arrival))

/-- Two launches share a sector. -/
def Launch.shares (a b : Launch) : Bool := a.cost.any fun c => b.cost.any fun d => c.1 == d.1

/-- A waiting launch that is considered earlier shares a sector with launch l (R374). -/
def State.overtakes (s : State) (l : Launch) : Bool :=
  s.parts.any fun p => p.launches.any fun e => e.2.waits && e.2.before l && e.2.shares l

/-- Physical 4 KiB frames of n bytes from a virtual address, each with the bytes of the frame that they take, first and end; a page that is
not mapped gives none. -/
def State.framesOf (s : State) (p va n : Nat) : List (Nat × Nat × Nat) :=
  (List.range ((va + n + 4095) / 4096 - va / 4096)).filterMap fun i =>
    let a := (va / 4096 + i) * 4096
    match s.walk p a with
    | .leaf e => some (e.phys a / 4096, va - a, Nat.min 4096 (va + n - a))
    | _ => none

/-- The frame map of a set: physical frame to tile (R383). -/
def State.frameMap (s : State) (p : Nat) (ranges : List (Nat × Nat)) : Assoc Nat :=
  (ranges.foldl (fun (acc : Nat × Assoc Nat) r =>
    (acc.1 + r.2, (List.range r.2).foldl (fun (m : Assoc Nat) i =>
      match s.walk p (r.1 + 4096 * i) with
      | .leaf e => aset m (e.phys (r.1 + 4096 * i) / 4096) (acc.1 + i)
      | _ => m) acc.2)) (0, [])).2

/-- n zero bytes written by the device. -/
def State.zeroArea (s : State) (p va n : Nat) : State := s.deviceBytes p va (List.replicate n 0)

/-- Set k of partition p is bound for launch x: frame map, header, zero tables; VALID ← 1, ACT ← 0 (R379, R380, R384). -/
def State.bindSet (s : State) (p x : Nat) (k : Fin 4) (l : Launch) (b : TBind) : State :=
  let t : TSet := { bound := true, valid := true, lid := l.lid, blocks := l.blocks, pdig := b.pdig, nt := b.nt, gbase := b.gbase
                    glen := b.glen, ranges := b.ranges, area := b.area, act := false, busy := true, frames := s.frameMap p b.ranges
                    areaFrames := s.framesOf p b.area (areaLen b.nt l.blocks), launch := some x }
  let s := s.modPart p fun r => { r with tsets := r.tsets.set k t }
  let head := toBytes 4 l.lid ++ toBytes 4 l.blocks ++ toBytes 8 b.pdig ++ toBytes 4 b.nt ++ toBytes 1 t.flags ++ toBytes 43 0
  (s.deviceBytes p b.area head).zeroArea p (b.area + 64) (8 * b.nt)

/-- A RELAUNCH of set t runs in full (R384); a page remapped since the binding has made the set invalid (R383). -/
def State.runsFull (s : State) (p : Nat) (t : TSet) (l : Launch) (b : TBind) : Bool :=
  !t.valid || t.lid != l.lid || t.blocks != l.blocks || t.pdig != b.pdig || t.frames != s.frameMap p t.ranges

/-- The committed record of a block: RFL and the runs; none where it cannot be read (R381). -/
def State.committed (s : State) (p : Nat) (t : TSet) (b : Nat) : Option (Nat × List (Nat × Nat)) := do
  let m ← s.deviceLoad p (t.recordAt b) 256
  return (natBytes m 9 1, (List.range (natBytes m 8 1)).map fun j => (natBytes m (16 + 8 * j) 4, natBytes m (20 + 8 * j) 4))

/-- A tile of some run meets a condition. -/
def runsMeet (runs : List (Nat × Nat)) (f : Nat → Bool) : Bool := runs.any fun r => (List.range r.2).any fun i => f (r.1 + i)

/-- Block b is selected for wave 1 by the snapshot, the table at an address (R385). -/
def State.selectFirst (s : State) (p : Nat) (t : TSet) (snap b : Nat) : Bool :=
  match s.committed p t b with
  | some (f, runs) => natBit f 0 || runsMeet runs fun n =>
      match s.deviceLoad p (snap + 4 * n) 4 with
      | some e => natBit e 31 && (natBits e 0 24 != b || natBit e 30)
      | none => true
  | none => true

/-- Block b is selected by a wave set (R385). -/
def State.selectNext (s : State) (p : Nat) (t : TSet) (w : Assoc Nat) (b : Nat) : Bool :=
  match s.committed p t b with
  | some (f, runs) => !natBit f 0 && runsMeet runs fun n => match aget? w n with | some o => o != b | none => false
  | none => false

/-- A RELAUNCH of a valid set swaps the tables and selects the blocks of wave 1 (R384, R385). -/
def State.swapSet (s : State) (p x : Nat) (k : Fin 4) (l : Launch) : State :=
  let t := (s.part p).tsets[k]
  let snap := t.dirtyAt 0
  let u := { t with act := !t.act, busy := true, launch := some x }
  let s := (s.zeroArea p (u.dirtyAt 0) (4 * t.nt)).putSet p k u
  let sel := (List.range l.blocks).filter (s.selectFirst p u snap)
  s.modLaunch p x fun l => if sel.isEmpty then { l with stage := .done, wave := 0, select := some [] } else { l with select := some sel }

/-- The trace set of an admitted launch is bound, or swapped (R379, R384). [log 41, DEDUCED] -/
def State.traceStart (s : State) (p x : Nat) (l : Launch) : State :=
  match l.trc with
  | none => s
  | some b =>
    let k : Fin 4 := Fin.ofNat 4 l.tset
    if l.re && !s.runsFull p (s.part p).tsets[k] l b then s.swapSet p x k l else s.bindSet p x k l b

/-- The data image of a LAUNCH copied before its set is bound (R369, R395). [log 55, DEDUCED] -/
def State.copyData (s : State) (p : Nat) (l : Launch) : Cp State :=
  if l.dataTo = 0 then .ok s
  else match s.cpStores p l.dataTo none l.data with
    | .error .refused => .ok s
    | r => r

/-- A launch of the partition has been admitted and its blocks have not all been reported. -/
def Part.running (r : Part) : Bool :=
  r.launches.any fun e => match e.2.stage with | .run => true | .done => e.2.wave != 0 | _ => false

/-- Launch x of partition p is admitted, or can never be; the watchdog's interval begins with it unless another launch is running
(R373, R374, R393). [log 41, DEDUCED] [log 54, DESIGN CHOICE] [log 55, DEDUCED] -/
def State.admitLaunch (s : State) (p x : Nat) : Option State :=
  match s.launchAt p x with
  | some l =>
    if !l.waits || !s.cpFree p then none
    else if s.gated || s.overtakes l then some (s.queueState p l.q 3)
    else if l.cost.any fun c => decide (s.sectorBudget c.1 < c.2) && s.sectorCharge c.1 == 0 then some (s.failLaunch p x 0xF2 0 0)
    else if l.cost.any fun c => decide (s.sectorLimit c.1 < s.sectorCharge c.1 + c.2) then some (s.queueState p l.q 3)
    else s.cpStep p do
      let s ← s.copyData p l
      let s := (s.queueState p l.q 0).modPart p fun t => { t with progress := if t.running then t.progress else s.cycle }
      let s := s.modLaunch p x fun l => { l with stage := .run, charge := l.cost, full := true, wave := 1 }
      let s := s.traceStart p x l
      return s.modLaunch p x fun l => { l with full := l.select.isNone }
  | none => none

/-- LAUNCH_ADMIT: the global scheduler admits launch x of partition p, or finds that it can never be admitted (R373, R374). -/
def execLaunchAdmit (s : State) : Host.Outcome State Fault Refusal := event s (s.admitLaunch (s.ev.p % 16) s.ev.x)

/-! ### Seeding (R375 to R378, R88, R397) -/

/-- Blocks of the current placement or wave. -/
def Launch.total (l : Launch) : Nat := match l.select with | some k => k.length | none => l.blocks

/-- The block at a place of the current placement or wave (R376). -/
def Launch.blockAt (l : Launch) (n : Nat) : Nat := match l.select with | some k => (k[n]?).getD 0 | none => n

/-- The launch has blocks to assign. -/
def Launch.assigning (l : Launch) : Bool := (match l.stage with | .run => true | _ => false) && decide (l.next < l.total)

/-- Blocks of launch x that core g holds, with those that are on their way to it (R376). -/
def State.blocksOn (s : State) (x g : Nat) : Nat :=
  (s.coreAt g).ctxs.toList.countP (fun k => k.launchOf == some x) + s.hops.countP fun h => h.core == g && h.image.launchOf == some x

/-- Core g is held by a launch other than x: it holds a block of it, or is about to receive one, or a launch that it is prepared for has
blocks to assign (R88). -/
def State.heldByOther (s : State) (p x g : Nat) : Bool :=
  let other := fun (k : Ctx) => match k.launchOf with | some l => l != x | none => false
  (s.coreAt g).ctxs.any other || (s.hops.any fun h => h.core == g && other h.image)
    || (s.part p).launches.any fun e => e.1 != x && e.2.assigning && e.2.prepared.contains g

/-- A core that a migration moves: the partition of this package that it comes from, or none where another package has handed it over; its
index there, its save area, its partition's record (R425). -/
structure Origin where
  part : Option Nat
  core : Nat
  area : Nat
  regs : Part
deriving DecidableEq, Repr

/-- The saved core of a migration's source whose image core g of the destination takes: the one with the same index, while core g holds
nothing (R425). [log 111, DEDUCED] -/
def State.sourceCore (s : State) (g : Nat) : Option Origin :=
  let t := s.partOf g
  let q := bitsOf t.pmsrc 0 4
  let i := s.coreIndex g
  if !t.mig || !(s.coreAt g).ctxs.all (fun c => c.st == .free) then none
  else if bitsOf t.pmsrc 8 8 == s.pkgnum then
    let a := s.part q
    let k := 8 * a.base + i
    if q != s.partNo g && a.en && decide (i < 8 * a.len) then (s.coreAt k).away.map fun v => { part := some q, core := k, area := v, regs := a }
    else none
  else
    match aget? s.peers (s.partNo g) with
    | some r =>
      let k := 8 * r.part.base + i
      if i < 8 * r.part.len then (aget r.cores k {}).away.map fun v => { part := none, core := k, area := v, regs := r.part } else none
    | none => none

/-- Core g is eligible for launch x (R375): the queues need be empty only before the launch's first block there (R342). [log 53, DEDUCED] -/
def State.eligible (s : State) (p x : Nat) (l : Launch) (g : Nat) : Bool :=
  let c := s.coreAt g
  !s.heldByOther p x g && !c.ctxs.any (fun k => k.role == .helper) && !c.down && !c.halted && !c.frozen && (s.sourceCore g).isNone
    && (s.preparedFor x l g || ((s.copyJobs g).isEmpty && (s.mxJobs g).isEmpty))

/-- The lowest FREE context from 1 to 15 of core g that may be seeded (R376). -/
def State.seedCtx (s : State) (g : Nat) : Option (Fin 16) :=
  (List.finRange 16).find? fun x => x != 0 && s.spare g x

/-- A context as a block of launch x is seeded into it (R377, R378). -/
def Launch.seed (l : Launch) (x b cycle : Nat) : Ctx :=
  { st := .run, notBefore := cycle, trace := l.trace, role := .block x b
    g := (((((Vector.replicate 16 0).set 0 (.ofNat 64 b)).set 1 l.seed1).set 2 l.seed2).set 3 l.seed3)
    sgb := l.sgb.set 0 (.ofNat 64 l.code), sgl := l.sgl.set 0 (.ofNat 64 (5 * 2 ^ 48 + 2 * l.outLen)) }

/-- The next block of launch x is seeded into context y of core g, which is made ready for it (R375, R376). [log 57, DEDUCED] -/
def State.seedAt (s : State) (p x : Nat) (l : Launch) (g : Nat) (y : Fin 16) : Option State := do
  let s ← s.readyCore p x l g
  let b := l.blockAt l.next
  return (s.setCtxAt g y (l.seed x b s.cycle)).modLaunch p x fun l => { l with next := l.next + 1, live := (b, g, y.val) :: l.live }

/-- The places of a launch: its cores that are eligible and have a FREE context, with their blocks of the launch (R376). -/
def State.places (s : State) (p x : Nat) (l : Launch) : List (Nat × Nat × Fin 16) :=
  (List.range (8 * l.count)).filterMap fun i =>
    let g := 8 * l.first + i
    match s.seedCtx g with
    | some y => if s.eligible p x l g then some (s.blocksOn x g, g, y) else none
    | none => none

/-- The place taken first: the core with the fewest blocks, then the lower core (R376). -/
def bestPlace (l : List (Nat × Nat × Fin 16)) : Option (Nat × Nat × Fin 16) :=
  l.foldl (fun (b : Option (Nat × Nat × Fin 16)) e => match b with
    | some f => if e.1 < f.1 then some e else some f
    | none => some e) none

/-- Nothing waits on the command links of a cluster, so that a placement is asked for and answered at once (R444). [log 72, DESIGN CHOICE] -/
def State.linksFree (s : State) (h : Nat) : Bool := (s.clusterAt h).up.idle && (s.clusterAt h).down.idle

/-- SEED_BLOCK: the next block of launch x of partition p is seeded (R376); the placement waits behind the messages of its cluster (R444). -/
def execSeedBlock (s : State) : Host.Outcome State Fault Refusal :=
  let p := s.ev.p % 16
  match s.launchAt p s.ev.x with
  | some l =>
    if !l.assigning || l.gw || (s.part p).rst then event s none
    else match bestPlace ((s.places p s.ev.x l).filter fun e => decide (e.1 < l.quota)) with
      | some (_, g, y) => event s (if s.linksFree (g / 8) then s.seedAt p s.ev.x l g y else none)
      | none => event s none
  | none => event s none

/-- GATEWAY_SEED: the gateway block queue seeds the next block of gateway launch x of partition p: by core, then context (R336). -/
def execGatewaySeed (s : State) : Host.Outcome State Fault Refusal :=
  let p := s.ev.p % 16
  match s.launchAt p s.ev.x with
  | some l =>
    if !l.assigning || !l.gw || (s.part p).rst then event s none
    else match (s.places p s.ev.x l).find? fun e => isGateway (e.2.1 / 8) with
      | some (_, g, y) => event s (s.seedAt p s.ev.x l g y)
      | none => event s none
  | none => event s none

/-! ### Waves and completion (R370, R385, R386) -/

/-- Every block of the current placement or wave has been assigned and has ended, every job of the launch has completed and every write of it
has been performed (R370, R385). [log 43, DEDUCED] -/
def State.launchQuiet (s : State) (p x : Nat) (l : Launch) : Bool :=
  let r := s.part p
  let mine := fun (w : Option (Nat × Nat)) => match w with | some (k, _) => k == x | none => false
  decide (l.total ≤ l.next) && l.live.isEmpty && s.cores.all fun (g, c) =>
    !(decide (r.base ≤ g / 8 ∧ g / 8 < r.base + r.len)) ||
      (!(c.sb.any fun e => mine e.writer) && !((s.copyJobs g).any fun j => mine j.writer) && !((s.mxJobs g).any fun j => mine j.writer)
        && !(c.tiles.any fun t => match t.stash with | some m => m.wrote.any (fun w => m.dirty.getLsbD w.1 && mine w.2) | none => false))

/-- ALWAYS and FORGET set in the committed record of a block (R386). -/
def State.forgetBlock (s : State) (p : Nat) (t : TSet) (b : Nat) : State :=
  match s.deviceRead p (t.recordAt b + 9) 1 with
  | (some v, s) => (s.deviceStore p (t.recordAt b + 9) 1 (v ||| 9)).getD s
  | (none, s) => s

/-- The test after a wave of launch x: the next wave, the final one, or the end (R385, R386). -/
def State.waveTest (s : State) (p x : Nat) (l : Launch) : State :=
  let t := (s.part p).tsets[Fin.ofNat 4 l.tset]
  let sel := (List.range l.blocks).filter (s.selectNext p t l.wset)
  let wave := fun (sel : List Nat) (final : Bool) => s.modLaunch p x fun l =>
    { l with select := some sel, next := 0, wave := l.wave + 1, wset := [], prepared := [], final := final }
  if l.final then
    (sel.foldl (fun (s : State) b => s.forgetBlock p t b) s).modLaunch p x fun l => { l with stage := .done, unset := sel.length }
  else if sel.isEmpty then s.modLaunch p x fun l => { l with stage := .done }
  else if l.wlim ≠ 0 ∧ l.wave = l.wlim then wave ((List.range l.blocks).filter fun b => sel.contains b || !l.ran.contains b) true
  else wave sel false

/-- The launch is a RELAUNCH that runs in waves. A RELAUNCH that runs in full runs its blocks in wave 1 and no test follows, as a
LAUNCH does (R384, R385; the row of R399 on a partition reset gives WAVES 1). [log 46, DEDUCED] -/
def Launch.inWaves (l : Launch) : Bool := l.re && l.select.isSome

/-- WAVE_END: a wave of relaunch x of partition p has ended, and the next is selected (R385, R386). [log 46, DEDUCED] -/
def execWaveEnd (s : State) : Host.Outcome State Fault Refusal :=
  let p := s.ev.p % 16
  match s.launchAt p s.ev.x with
  | some l =>
    match l.stage with
    | .run => event s (if l.inWaves && !(s.part p).rst && s.launchQuiet p s.ev.x l then some (s.waveTest p s.ev.x l) else none)
    | _ => event s none
  | none => event s none

/-- LAUNCH_COMPLETE: launch x of partition p completes: report, zeroing of its entries, release of its charge (R370, R372, R383). -/
def execLaunchComplete (s : State) : Host.Outcome State Fault Refusal :=
  let p := s.ev.p % 16
  match s.launchAt p s.ev.x with
  | some l =>
    let ended := match l.stage with | .run => !l.inWaves && s.launchQuiet p s.ev.x l | .done => true | _ => false
    event s (if ended && s.cpFree p then s.cpStep p (s.endLaunch p s.ev.x l) else none)
  | none => event s none

end Sys2Proof.Machine
end

