-- ==== Sys2Proof/Machine/Links.lean ====
section
/-! DEFINITION. Herlek links to other packages, the traffic that waits for them, the command ring (27 R445, R451, R452). -/

namespace Sys2Proof.Machine

/-! ### The command ring (R445) -/

/-- The entry of 128 bytes that is performed next (R445). -/
def State.ringEntry (s : State) : Nat := Memory.load s.cmdRing (128 * s.ringPos) 128

/-- The answer stands in the entry's place, and the next entry's turn comes (R445). [log 65, DESIGN CHOICE] -/
def State.answer (s : State) (ok : Bool) (v : Nat) : State :=
  { s with
    cmdRing := Memory.store s.cmdRing (128 * s.ringPos) 128 ((if ok then 0x80 else 0x81) + v % 2 ^ 960 * 2 ^ 64)
    ringPos := (s.ringPos + 1) % 512 }

/-- A command of the ring: performed only in its turn, when the next entry is one of its kind; it is done, or refused, and answered with a value
(R445). [log 65, DESIGN CHOICE] -/
def command (s : State) (code : Nat) (r : Option State) (v : Nat) : Host.Outcome State Fault Refusal :=
  event s (if natBytes s.ringEntry 0 1 = code then some (match r with | some t => t.answer true v | none => s.answer false v) else none)

/-! ### Links (R451, R452) -/

/-- Herlek link p. -/
def State.link (s : State) (p : Nat) : Link := s.links[Fin.ofNat 16 p]

/-- Herlek link p changed. -/
def State.setLink (s : State) (p : Nat) (l : Link) : State := { s with links := s.links.set (Fin.ofNat 16 p) l }

/-- The link carries traffic (R451). -/
def Link.active (l : Link) : Bool := match l.st with | .active _ => true | _ => false

/-- The partner of the link is a package. -/
def Link.leadsTo (l : Link) (pkg : Nat) : Bool := match l.partner with | some (_, n) => n == pkg | none => false

/-- The link over which traffic for another package goes: one whose partner it is, else any that is ACTIVE, which leads on through the fabric,
else link 0 (R452). [log 116, DESIGN CHOICE] -/
def State.linkTo (s : State) (pkg : Nat) : Fin 16 :=
  (((List.finRange 16).find? fun k => (s.links[k]).leadsTo pkg) <|> ((List.finRange 16).find? fun k => (s.links[k]).active)).getD 0

/-- Traffic for another package waits at this end of its link, behind what waits there already (R452). -/
def State.sendLink (s : State) (pkg : Nat) (m : LinkMsg) : State :=
  let k := s.linkTo pkg
  s.setLink k.val { (s.links[k]) with out := (s.links[k]).out ++ [m] }

/-- A message has left this package and an answer to it can arrive: it waits at no link, and the link from that package is ACTIVE (R452). -/
def State.linkOpen (s : State) (pkg : Nat) (m : LinkMsg) : Bool :=
  (s.links[s.linkTo pkg]).active && s.links.all fun l => !l.out.contains m

/-- LINK_PARTNER_DETECT: link p senses a partner on all its lanes (R451). -/
def execLinkPartnerDetect (s : State) : Host.Outcome State Fault Refusal :=
  match (s.link s.ev.p).st with
  | .detect => event s (some (s.setLink s.ev.p { (s.link s.ev.p) with st := .probe }))
  | _ => event s none

/-- The highest generation of this package's links (01 R17). -/
def linkGen : Nat := 3

/-- LINK_PROBE_EXCHANGE: the ends of link p exchange their highest generation (the partner's is n, from 1) and PKGNUM (the partner's is v)
(R451). -/
def execLinkProbeExchange (s : State) : Host.Outcome State Fault Refusal :=
  match (s.link s.ev.p).st with
  | .probe =>
    if s.ev.n = 0 then event s none
    else event s (some (s.setLink s.ev.p
      { (s.link s.ev.p) with st := .train (Nat.min linkGen s.ev.n), partner := some (s.ev.n, s.ev.v), since := s.cycle }))
  | _ => event s none

/-- What a failure to train at generation g leads to (R451). -/
def trainFails (g : Nat) : LinkSt := if g ≤ 1 then .down else .train (g - 1)

/-- One millisecond of package cycles (R451). -/
def linkMs : Nat := 1000000

/-- LINK_TRAIN_RESULT: equalisation of link p succeeds within 1 ms (n = 1), or has failed (R451). -/
def execLinkTrainResult (s : State) : Host.Outcome State Fault Refusal :=
  let l := s.link s.ev.p
  match l.st with
  | .train g | .retrain g =>
    let done := s.ev.n = 1 ∧ s.cycle ≤ l.since + linkMs
    event s (some (s.setLink s.ev.p { l with st := if done then .lock g else trainFails g, good := 0, since := s.cycle }))
  | _ => event s none

/-- LINK_FLIT_RECEIVE: a flit arrives at link p without error (n = 1) or with one (n = 0): 128 good ones in a row make it ACTIVE; a bad one is
replayed, and more than 16 replays within 1 ms lead to RETRAIN. The flits of the oldest message that waits at this end have arrived at the
partner (n = 2) (R451, R452). [log 71, DESIGN CHOICE] -/
def execLinkFlitReceive (s : State) : Host.Outcome State Fault Refusal :=
  let l := s.link s.ev.p
  let put := fun (l : Link) => event s (some (s.setLink s.ev.p l))
  match l.st with
  | .lock g =>
    if s.ev.n = 1 then (if l.good + 1 ≥ 128 then put { l with st := .active g, good := 0, replays := [] } else put { l with good := l.good + 1 })
    else put { l with good := 0 }
  | .active g =>
    if s.ev.n = 1 then put { l with delivered := l.delivered + 1 }
    else if s.ev.n = 2 then put { l with out := l.out.drop 1 }
    else
      let r := s.cycle :: l.replays.filter fun c => decide (s.cycle < c + linkMs)
      if r.length > 16 then put { l with st := .retrain g, replays := [], good := 0, since := s.cycle } else put { l with replays := r }
  | _ => event s none

/-- LINK_LOSS_OF_LOCK: the partner of link p fails, and this end moves with it: from ACTIVE to RETRAIN, and from a training, or the LOCK after
it, as its own failure does (R451). [log 71, DESIGN CHOICE] -/
def execLinkLossOfLock (s : State) : Host.Outcome State Fault Refusal :=
  let l := s.link s.ev.p
  let put := fun (st : LinkSt) => event s (some (s.setLink s.ev.p { l with st := st, good := 0, replays := [], since := s.cycle }))
  match l.st with
  | .active g => put (.retrain g)
  | .train g | .lock g | .retrain g => put (trainFails g)
  | _ => event s none

/-- LINK_RETRAIN_REQUEST: system software asks link p to train again from DETECT (R451). -/
def execLinkRetrainRequest (s : State) : Host.Outcome State Fault Refusal :=
  event s (some (s.setLink s.ev.p { (s.link s.ev.p) with st := .detect, good := 0, replays := [] }))

end Sys2Proof.Machine
end

