-- ==== Sys2Proof/Machine/Gates.lean ====
section
/-! DEFINITION. Gates: handles, the gate instructions, the gate table, transfers, refill, migration (24 R400 to R415). -/

namespace Sys2Proof.Machine

/-! ### Handles and access lists (R402, R404) -/

/-- The handle slot word (R404). -/
def handleWord (rights entry gate inst : Nat) : W :=
  .ofNat 64 (2 ^ 63 + rights % 8 * 2 ^ 60 + entry % 8 * 2 ^ 57 + gate % 4096 * 2 ^ 32 + inst % 2 ^ 32)

/-- Gate index of a handle. -/
def handleGate (h : W) : Nat := bitsOf h 32 12

/-- The context of core g in compartment `comp` matches an access-list entry (R402). -/
def State.aclMatches (s : State) (g comp : Nat) (e : Acl) : Bool :=
  e.en && e.part == s.partNo g && e.pkg == s.pkgnum && (e.comp == 255 || e.comp == comp)

/-- Right SIG, WAIT or XFER in a bit set of rights (bits 0 to 2). -/
def GateOp.right : GateOp → Nat
  | .open .. => 0 | .sig .. => 0 | .wait _ | .poll => 1 | .xfer .. => 2

/-- The core's part of a handle check (R406). -/
def Ctx.handle (c : Ctx) (h : Fin 4) (right : Nat) : Act Unit := do
  let v := c.gth[h]
  faultIf (!v.getLsbD 63) .egate 3 (handleGate v)
  faultIf (!v.getLsbD (60 + right)) .egate 1 (handleGate v)

/-! ### Instructions (R405, R406, R410) -/

/-- A request for the table is held, with its release begun; it waits until an earlier one of the lead, which is set aside, is done (R283,
R406, R410). [log 19, DEDUCED] -/
def State.askGate (s : State) (d : Reg) (h : Fin 4) (op : GateOp) : Act State :=
  if s.cur.gateAside then .error (.park .gate .aside)
  else .error (.held ((s.hold .gate (.gateOut d h.val op) 4).modCur fun c => { c with prog := some (s.newProg s.core) }))

/-- GTOPEN (R406). -/
def execGtopen (r : Fin 8) (d : Reg) (a : Src) (s : State) : Host.Outcome State Fault Refusal :=
  finish s do
    let t ← s.readOps [a] [d] 7
    let i := (t.g a.r).toNat
    faultIf (t.cur.gth.all fun v => v.getLsbD 63) .egate 6 i
    t.askGate d 0 (.open r.val i)

/-- GTSIG; v: with a value, n: without waiting for a token (R406). -/
def execGtsig (v n : Bool) (h : Fin 4) (d : Reg) (a : Src) (s : State) : Host.Outcome State Fault Refusal :=
  finish s do
    s.cur.opsCheck (if v then [a] else []) [d] 7
    s.cur.handle h 0
    let t ← s.readRegs (if v then [a] else []) none
    t.askGate d h (.sig n (if v then some (t.g a.r) else none))

/-- The register after another: the second of a pair. -/
def nextReg (d : Reg) : Reg := Fin.ofNat 16 (d.val + 1)

/-- GTWAIT (R406). -/
def execGtwait (h : Fin 4) (d : Reg) (a : Src) (s : State) : Host.Outcome State Fault Refusal :=
  finish s do
    s.cur.opsCheck [a] [d, nextReg d] 7
    s.cur.handle h 1
    let t ← s.readRegs [a] none
    t.askGate d h (.wait (t.g a.r))

/-- GTPOLL (R406). -/
def execGtpoll (h : Fin 4) (d : Reg) (s : State) : Host.Outcome State Fault Refusal :=
  finish s do
    s.cur.opsCheck [] [d, nextReg d] 7
    s.cur.handle h 1
    s.askGate d h .poll

/-- The physical addresses of the pages of a span, each translated with a right (R410); `access` is the kind of access in a ring record
(R289); the number is fuel, one unit a page. -/
def State.pagesOf (s : State) (need : Need) (access va n : Nat) : Nat → Act (List Nat × State)
  | 0 => .ok ([], s)
  | k + 1 =>
    if n = 0 then .ok ([], s)
    else match s.translate s.core s.cur.comp va need with
      | (.prot, _) => raise .eprot va
      | (.absent, t) => t.notPresent access va
      | (.bad pa, t) => t.lineBad pa
      | (.ok pa _, t) => do
        let m := Nat.min n (65536 - va % 65536)
        let (l, u) ← t.pagesOf need access (va + m) (n - m) k
        return ((pa - va % 65536) :: l, u)

/-- GTXFER: every check before the table; the source is translated whole, and its address is a multiple of 64 (R78, R410). Its gD is a
source, which a bound read stream pops. [log 60, DEDUCED] -/
def execGtxfer (g : Fin 8) (h : Fin 4) (d : Reg) (a b : Src) (s : State) : Host.Outcome State Fault Refusal :=
  finish s do
    s.cur.streamCheck [a, b, plain d] none false
    s.cur.handle h 2
    let t ← s.readRegs [a, b, plain d] none
    let n := (t.g b.r).toNat
    if n = 0 then return t.advance 4
    else
      let gate := handleGate t.cur.gth[h]
      faultIf (n > 65536) .egate 4 gate
      let (o, w) := (t.g a.r, (t.g d).toNat)
      faultIf (n % 64 ≠ 0 ∨ o.toNat % 64 ≠ 0 ∨ w % 64 ≠ 0) .ealign 0 (t.cur.sgb[g] + o).toNat
      faultIf (segKind t.cur.sgl[g] ≠ 0) .eseg 0 (t.cur.sgb[g] + o).toNat
      let (_, va) ← t.seg g o n 64 [.g, .r]
      let (pages, t) ← t.pagesOf { r := true } 0 va n 3
      t.askGate d h (.xfer va w n pages)

/-- GTCLOSE (R406). -/
def execGtclose (h : Fin 4) (s : State) : Host.Outcome State Fault Refusal :=
  finish s (.ok ((s.modCur fun c => { c with gth := c.gth.set h (c.gth[h] &&& 0x7FFFFFFFFFFFFFFF) }).advance 4))

/-! ### The gate table (R400 to R403, R406 to R408) -/

/-- Gate i. -/
def State.gate (s : State) (i : Nat) : Gate := aget s.gates i {}

/-- Gate i changed. -/
def State.modGate (s : State) (i : Nat) (f : Gate → Gate) : State := { s with gates := aset s.gates i (f (s.gate i)) }

/-- Where a gate is: at an index of this table, on its way to an index of it, or in another package (R412). -/
inductive GatePlace where
  | here (i : Nat)
  | moving (j : Nat)
  | far (pkg : Nat)
deriving DecidableEq, Repr

/-- Where an operation on index i is performed: a forwarding entry leads on (R412); the number bounds the entries. [log 49, DESIGN CHOICE] -/
def State.gatePlace (s : State) : Nat → Nat → GatePlace
  | 0, i => .here i
  | n + 1, i =>
    let k := s.gate i
    match k.fwd with
    | some (pkg, j) =>
      if k.held || k.valid then .here i
      else if pkg ≠ s.pkgnum then .far pkg
      else if s.gateMoves.any fun m => m.1 == j then .moving j
      else s.gatePlace n j
    | none => .here i

/-- Tokens that an operation costs (R403). -/
def GateOp.tokens : GateOp → Nat
  | .sig .. => 1
  | .xfer _ _ n _ => (n + 4095) / 4096
  | _ => 0

/-- The bucket of an entry can pay (R403). -/
def Acl.pays (e : Acl) (n : Nat) : Bool := e.free || decide (n ≤ e.tokens)

/-- Tokens taken from the bucket of entry e of gate i (R403). -/
def State.charge (s : State) (i : Nat) (e : Fin 8) (n : Nat) : State :=
  s.modGate i fun k => { k with acl := k.acl.set e (let a := k.acl[e]; if a.free then a else { a with tokens := a.tokens - n }) }

/-- A context's request has been performed: its reply is on the way. -/
def State.gateDone (s : State) (g : Nat) (x : Fin 16) (r : Req) : State := s.modCtx g x fun c => { c with req := some r, prog := none }

/-- A gate operation of context x of core g performed at gate i (R406): the state after it, or none where it waits; `behind` says that an
earlier request waits for tokens of its entry (R403). A GTSIG.NB never waits. [log 60, DEDUCED] -/
def State.gateServe (s : State) (i g : Nat) (x : Fin 16) (d : Reg) (h : Nat) (op : GateOp) (behind : Bool) : Option State :=
  let c := s.ctxAt g x
  let k := s.gate i
  let v := c.gth[Fin.ofNat 4 h]
  let e : Fin 8 := Fin.ofNat 8 (bitsOf v 57 3)
  let a := k.acl[e]
  let fail := fun (sub : Nat) => some (s.failReq g x .egate sub (match op with | .open _ n => n | _ => handleGate v))
  let good := k.valid && k.inst == bitsOf v 0 32
  let granted := s.aclMatches g c.comp a && natBit a.rights op.right
  match op with
  | .open r _ =>
    match (List.finRange 8).find? fun (e : Fin 8) => s.aclMatches g c.comp k.acl[e] && (k.acl[e]).rights &&& r == r with
    | some e =>
      match (List.finRange 4).find? fun (j : Fin 4) => !(c.gth[j]).getLsbD 63 with
      | some j =>
        if k.valid then some (s.gateDone g x (.gateBack [(d, .ofNat 64 j.val)] false (some (j.val, handleWord r e.val i k.inst)) none))
        else fail 1
      | none => fail 6
    | none => fail 1
  | .sig nb val =>
    if !good then fail 3 else if !granted then fail 1
    else if nb && !a.pays 1 then fail 2
    else if !nb && (behind || !a.pays 1) then none
    else if k.seq + 1 ≥ 2 ^ 64 then fail 5
    else
      let s := (s.charge i e 1).modGate i fun k => { k with seq := k.seq + 1, value := val.getD k.value }
      some (s.gateDone g x (.gateBack [(d, .ofNat 64 (k.seq + 1))] false none none))
  | .wait t =>
    if !good then fail 3 else if !granted then fail 1
    else if k.seq < t.toNat then none
    else some (s.gateDone g x (.gateBack [(d, .ofNat 64 k.seq), (nextReg d, k.value)] true none (some s.markers)))
  | .poll =>
    if !good then fail 3 else if !granted then fail 1
    else some (s.gateDone g x (.gateBack [(d, .ofNat 64 k.seq), (nextReg d, k.value)] false none none))
  | .xfer src dst n pages =>
    if !good then fail 3 else if !granted then fail 1
    else if dst + n > k.wlen then fail 4
    else if behind || !a.pays op.tokens then none
    else some ((s.charge i e op.tokens).gateDone g x (.gateCopy i src dst n pages))

/-- The access-list entry whose tokens a waiting request of context x of core g needs (R403). -/
def State.tokenEntry (s : State) (g : Nat) (x : Fin 16) : Option Nat :=
  match (s.ctxAt g x).served Req.atGate with
  | some (.gateHeld _ h op) => if op.tokens = 0 then none else some (bitsOf ((s.ctxAt g x).gth[Fin.ofNat 4 h]) 57 3)
  | _ => none

/-- A request of a context that is being reaped: a result is discarded, and a wait that does not outlive its context is withdrawn; one that
does goes on (R413). -/
def State.gateReaped (s : State) (g : Nat) (x : Fin 16) : State :=
  match (s.ctxAt g x).req with
  | some (.gateBack ..) => s.reaped g x
  | some (.gateHeld ..) => if (s.ctxAt g x).reaping && !s.outlives g x then (s.withdraw g x.val).reaped g x else s
  | _ => s

/-- One pass over the requests that wait at gate i, in order of arrival: each is performed, refused, or goes on waiting; those that wait for
tokens of one entry keep their order, and one whose right has gone takes its fault wherever it stands (R403, R412, R413). [log 60, DEDUCED] -/
def State.gatePass (s : State) (i : Nat) : List (Nat × Nat) → List Nat → State
  | [], _ => s
  | (g, x) :: r, dry =>
    let y := ctxNo x
    let need := s.tokenEntry g y
    match (s.ctxAt g y).served Req.atGate with
    | some (.gateHeld d h op) =>
      let behind := match need with | some e => dry.contains e | none => false
      match s.serve g y Req.atGate fun t => t.gateServe i g y d h op behind with
      | some t => ((t.modGate i fun k => { k with queue := k.queue.filter (· != (g, x)) }).gateReaped g y).gatePass i r dry
      | none => s.gatePass i r (match need with | some e => e :: dry | none => dry)
    | _ => s.gatePass i r dry

/-- Passes over the waiting requests of gate i until none more proceeds; a held gate performs nothing (R412). The number bounds the passes. -/
def State.drainGate (s : State) (i : Nat) : Nat → State
  | 0 => s
  | n + 1 =>
    let k := s.gate i
    if k.held then s
    else
      let t := s.gatePass i k.queue []
      if (t.gate i).queue.length < k.queue.length then t.drainGate i n else t

/-- The waiting requests of gate i are looked at again, and those that do not outlive their context are withdrawn (R403, R413). -/
def State.recheckGate (s : State) (i : Nat) : State :=
  let t := s.drainGate i ((s.gate i).queue.length + 1)
  (t.gate i).queue.foldl (fun t e => t.gateReaped e.1 (ctxNo e.2)) t

/-- The request of context x of core g waits at the table, or on its way (R403, R412). -/
def Ctx.holdGate (c : Ctx) (d : Reg) (h : Nat) (op : GateOp) : Ctx := { c with req := some (.gateHeld d h op), prog := none }

/-- A request of context x of core g reaches gate i: it is performed, or waits there (R406, R412). [log 60, DEDUCED] -/
def State.gateArrives (s : State) (i g : Nat) (x : Fin 16) (d : Reg) (h : Nat) (op : GateOp) : State :=
  let wait := (s.modGate i fun k => { k with queue := k.queue ++ [(g, x.val)] }).modCtx g x fun c => c.holdGate d h op
  let entry := (wait.tokenEntry g x)
  let behind := entry.isSome && (s.gate i).queue.any fun e => s.tokenEntry e.1 (ctxNo e.2) == entry
  if (s.gate i).held then wait
  else match s.gateServe i g x d h op behind with
    | some t => t.recheckGate i
    | none => wait

/-- A transfer is over: the context goes on, also in the image of a saved core; the lead's is done where it has been set aside (R411, R413). -/
def State.transferred (s : State) (g : Nat) (x : Fin 16) : State :=
  if (s.ctxAt g x).later then s.modCtx g x Ctx.retire
  else
    let t := s.modCtx g x Ctx.retire
    match (s.coreAt g).away with
    | some area => t.deviceBytes (t.partNo g) (area + 1024 * x.val) (toBytes 8 (t.ctxAt g x).pc.toNat)
    | none => t.settleReap g x

/-- The answer of another package to a request of context x of core g that was forwarded there, as the event carries it: EGATE with
subcode v (n = 0), or performed (n = 1) with the number v, SEQ, or the entry and INST of an opened gate, and VALUE in the bytes (R412).
[log 49, DESIGN CHOICE] -/
def State.gateAnswered (s : State) (g : Nat) (x : Fin 16) (d : Reg) (h : Nat) (op : GateOp) : Option State :=
  let c := s.ctxAt g x
  let v := s.ev.v
  let far := s.withdraw g x.val
  let gate := match op with | .open _ i => i | _ => handleGate c.gth[Fin.ofNat 4 h]
  match s.ev.n, op with
  | 0, _ => if 1 ≤ v ∧ v ≤ 6 then some (far.failReq g x .egate v gate) else none
  | 1, .open r i =>
    match (List.finRange 4).find? fun (j : Fin 4) => !(c.gth[j]).getLsbD 63 with
    | some j => some (far.gateDone g x (.gateBack [(d, .ofNat 64 j.val)] false (some (j.val, handleWord r (v / 2 ^ 32) i v)) none))
    | none => some (far.failReq g x .egate 6 gate)
  | 1, .sig .. => some (far.gateDone g x (.gateBack [(d, .ofNat 64 v)] false none none))
  | 1, .wait t =>
    if v < t.toNat then none
    else some (far.gateDone g x (.gateBack [(d, .ofNat 64 v), (nextReg d, .ofNat 64 (ofBytes s.ev.bytes))] true none (some s.markers)))
  | 1, .poll => some (far.gateDone g x (.gateBack [(d, .ofNat 64 v), (nextReg d, .ofNat 64 (ofBytes s.ev.bytes))] false none none))
  | 1, .xfer src _ n _ =>
    let t := (List.range (n / 64)).foldl (fun (t : State) k => t.noteRead g x (src + 64 * k) 64) far
    some (t.transferred g x)
  | _, _ => none

/-- A request of context x of core g, which has left the core, comes to where its gate is: it is performed or waits there; it waits with a
record that is on its way; or it goes on to another package (R412, 27 R452). -/
def State.gateGoes (s : State) (g : Nat) (x : Fin 16) (d : Reg) (h : Nat) (op : GateOp) (place : GatePlace) : State :=
  let held := s.modCtx g x fun c => c.holdGate d h op
  match place with
  | .here j => s.gateArrives j g x d h op
  | .moving j => { held with gateMoves := held.gateMoves.map fun m => if m.1 = j then (j, { m.2 with queue := m.2.queue ++ [(g, x.val)] }) else m }
  | .far pkg => held.sendLink pkg (.gateOp g x.val)

/-- GATE_TABLE_OPERATION: the request of context x of core g reaches the gate table, or another package answers one that has gone there
(R400, R406, R412, 27 R452). -/
def execGateTableOperation (s : State) : Host.Outcome State Fault Refusal :=
  let g := s.ev.g
  let x := ctxNo s.ev.x
  event s (s.serve g x Req.atGate fun s =>
    let index := fun (h : Nat) (op : GateOp) => match op with | .open _ n => n | _ => handleGate ((s.ctxAt g x).gth[Fin.ofNat 4 h])
    match (s.ctxAt g x).req with
    | some (.gateOut d h op) =>
      let i := index h op
      if !s.gateLeaves g x op then none
      else if i ≥ 4096 then some (s.failReq g x .egate 1 i)
      else some ((s.gateGoes g x d h op (s.gatePlace 4096 i)).gateReaped g x)
    | some (.gateHeld d h op) =>
      match s.gatePlace 4096 (index h op) with
      | .far pkg => if s.linkOpen pkg (.gateOp g x.val) then (s.gateAnswered g x d h op).map fun t => t.gateReaped g x else none
      | _ => none
    | _ => none)

/-- The registers after the first, and the handle slot, that a reply writes: kept with the pending token while the request is set aside, else
written at once, also in the image of a saved core (R275, R406, R413). -/
def State.gateWrites (s : State) (g : Nat) (x : Fin 16) (regs : List (Reg × W)) (slot : Option (Nat × W)) : State :=
  let area := (s.coreAt g).away.map fun a => a + 1024 * x.val
  let s := regs.foldl (fun (s : State) r =>
    let s := s.modCtx g x fun c => c.setG r.1 r.2
    match area with | some a => s.deviceBytes (s.partNo g) (a + 40 + 8 * r.1.val) (toBytes 8 r.2.toNat) | none => s) s
  match slot with
  | some (j, v) =>
    let s := s.modCtx g x fun c => { c with gth := c.gth.set (Fin.ofNat 4 j) v }
    match area with | some a => s.deviceBytes (s.partNo g) (a + 560 + 8 * j) (toBytes 8 v.toNat) | none => s
  | none => s

/-- A reply acts at context x of core g: the acquire of a GTWAIT first, then the registers and the handle slot; the first register goes the
way of every result, as a pending token where the core is saved or stopped for it, but a GTWAIT parked there is issued again (R275, R406,
R413). -/
def State.gateReplies (s : State) (g : Nat) (x : Fin 16) (regs : List (Reg × W)) (acq : Bool) (slot : Option (Nat × W)) : Option State :=
  let parked := match (s.ctxAt g x).st with | .parked _ => true | _ => false
  let later := (s.ctxAt g x).later
  if acq && (s.coreAt g).frozen && parked && !later then some (s.modCtx g x fun c => { c.abandon with st := .run })
  else
    let s := if acq then s.acquire g x .part else s
    match regs with
    | [] => none
    | (d, v) :: r =>
      if later then (s.reply g x d v).map fun t => t.modCtx g x fun c =>
        { c with token := c.token.map fun k => { k with more := r.map fun e => (e.1.val, e.2), gth := slot } }
      else (s.reply g x d v).map fun t => if (t.ctxAt g x).st == .free then t else t.gateWrites g x r slot

/-- GATE_REPLY: the reply returns to context x of core g, behind the sweep of a GTWAIT (R406, R407). -/
def execGateReply (s : State) : Host.Outcome State Fault Refusal :=
  let g := s.ev.g
  let x := ctxNo s.ev.x
  event s (s.serve g x Req.atGate fun s =>
    match (s.ctxAt g x).req with
    | some (.gateBack regs acq slot sweep) =>
      if (match sweep with | some l => l.isEmpty | none => true) then s.gateReplies g x regs acq slot else none
    | _ => none)

/-! ### Transfers (R411) -/

/-- One 64-byte line of a transfer: read at its home, written whole to the window, each word's owner none; none where the line fails its
check (R411). -/
def State.copyLine (s : State) (g : Nat) (x : Fin 16) (va pa dst : Nat) : Option State := do
  let p := s.partNo g
  let (w, t) ← s.readHome p (pa / 64) (s.leafOf g va pa).unscr
  return (t.noteRead g x va 64).perform p dst 64 (ofBytes (lineBytes w)) none (some g) (some (dieOf g)) (s.ctxAt g x).writer

/-- Every line of a transfer, in order; the address that fails its check ends it (R411). -/
def State.copyAll (s : State) (g : Nat) (x : Fin 16) (src dst : Nat) (pages : List Nat) : Nat → Nat → State × Option Nat
  | 0, _ => (s, none)
  | n + 1, k =>
    let va := src + 64 * k
    let pa := (pages[va / 65536 - src / 65536]?).getD 0 + va % 65536
    match s.copyLine g x va pa (dst + 64 * k) with
    | some t => t.copyAll g x src dst pages n (k + 1)
    | none => (s, some pa)

/-- The scrub records of the pages of a transfer's source are there or are made; none: the transfer waits (R421). -/
def State.scrubPages (s : State) (g : Nat) : List (Nat × Nat) → Option State
  | [] => some s
  | (va, pa) :: r => do (← s.readyScrub (s.partNo g) (s.leafOf g va pa)).scrubPages g r


/-- GATE_TRANSFER_COMPLETE: every write of the GTXFER of context x of core g is performed, and it completes (R411). -/
def execGateTransferComplete (s : State) : Host.Outcome State Fault Refusal :=
  let g := s.ev.g
  let x := ctxNo s.ev.x
  event s (s.serve g x Req.atGate fun s =>
    match (s.ctxAt g x).req with
    | some (.gateCopy i src dst n pages) =>
      match s.scrubPages g (pages.mapIdx fun k pa => ((src / 65536 + k) * 65536, pa)) with
      | none => none
      | some u =>
        match u.copyAll g x src ((s.gate i).wbase + dst) pages (n / 64) 0 with
        | (t, none) => some (t.transferred g x)
        | (t, some pa) => some (t.uncorrectable (t.partNo g) pa g)
    | _ => none)

/-! ### Refill, system software, migration (R403, R412, R413) -/

/-- Every bucket takes its tokens, by the RATE and BURST that stand now (R403, R413). -/
def Gate.refill (k : Gate) : Gate :=
  { k with acl := k.acl.map fun e => { e with tokens := Nat.min e.burst (e.tokens + e.rate), free := e.burst == 0 } }

/-- GATE_REFILL_TICK: every bucket is refilled and the waiters that it pays for proceed, once for every 65,536 cycles (R403). -/
def execGateRefillTick (s : State) : Host.Outcome State Fault Refusal :=
  if 65536 * (s.refills + 1) ≤ s.cycle then
    let t : State := { s with refills := s.refills + 1, gates := s.gates.map fun e => (e.1, e.2.refill) }
    event s (some ((t.gates.map (·.1)).foldl State.recheckGate t))
  else event s none

/-- The rate limits of a gate that is new to the table stand at once (R403). -/
def Gate.fresh (k : Gate) : Gate := { k with acl := k.acl.map fun e => { e with free := e.burst == 0 } }

/-- An access-list entry of 16 bytes (R402). -/
def aclOf (m : Nat) : Acl :=
  { en := natBit m 7, part := natBits m 0 4, comp := natBytes m 1 1, rights := natBits (natBytes m 2 1) 0 3, pkg := natBytes m 3 1,
    rate := natBytes m 4 2, burst := natBytes m 6 2, tokens := natBytes m 8 2 }

/-- A gate with the fields of a 256-byte record; every bucket holds at most its BURST (R401, R413). -/
def Gate.ofRecord (k : Gate) (m : Nat) : Gate :=
  let f := natBytes m
  { k with
    seq := f 0 8
    value := .ofNat 64 (f 8 8)
    owner := natBits (f 16 8) 32 4
    inst := natBits (f 16 8) 0 32
    wbase := f 24 8 / 65536 * 65536
    wlen := Nat.min (f 32 8 / 65536 * 65536) (2 ^ 24)
    acl := .ofFn fun i =>
      let a := aclOf (f (64 + 16 * i.val) 16)
      { a with tokens := Nat.min a.burst a.tokens, free := (k.acl[i]).free }
    shr := .ofFn fun i => (f (192 + 16 * i.val) 8 / 4096 * 4096, f (200 + 16 * i.val) 8 / 4096 * 4096) }

/-- Frame f belongs to the gate: to its transfer window or a shared region (26 R434). -/
def Gate.owns (k : Gate) (f : Nat) : Bool :=
  ((k.wbase, k.wlen) :: k.shr.toList).any fun r => decide (r.1 < 65536 * (f + 1) ∧ 65536 * f < r.1 + r.2)

/-- Frames of WORLD 255 that pass to the key of another gate, or to the package's or from it: their old lines fail the tag check (26 R434). -/
def State.rekeyGate (s : State) (old new : Gate) : State := s.rekey fun f t => t.world == 255 && old.owns f != new.owns f

/-- GATE_CREATE: system software creates gate x with the record that the event carries; the security processor draws its key (R400, 26 R434,
27 R445). -/
def execGateCreate (s : State) : Host.Outcome State Fault Refusal :=
  let i := s.ev.x
  let k := s.gate i
  command s 1 (if i ≥ 4096 ∨ k.valid ∨ k.held then none
    else
      let k := { (({} : Gate).ofRecord (ofBytes s.ev.bytes)).fresh with valid := true, key := s.draws }
      some (({ s with gates := aset s.gates i k, draws := s.draws + 1 } : State).rekeyGate {} k)) i

/-- GATE_CHANGE: system software changes the record of gate x; the requests that wait there are checked again (R400, R413, 27 R445). -/
def execGateChange (s : State) : Host.Outcome State Fault Refusal :=
  let i := s.ev.x
  let new := (s.gate i).ofRecord (ofBytes s.ev.bytes)
  command s 2 (if !(s.gate i).valid then none
    else some (((s.modGate i fun _ => new).rekeyGate (s.gate i) new).recheckGate i)) i

/-- GATE_DESTROY: system software destroys gate x; every context parked on it takes EGATE 3 (R400, R413, 27 R445). -/
def execGateDestroy (s : State) : Host.Outcome State Fault Refusal :=
  let i := s.ev.x
  command s 3 (if !(s.gate i).valid then none
    else some (((s.modGate i fun k => { k with valid := false, held := false, fwd := none }).rekeyGate (s.gate i) {}).recheckGate i)) i

/-- GATE_MIGRATE: system software starts to move gate x to index v of package n: HELD is set (R412 step 1, 27 R445). -/
def execGateMigrate (s : State) : Host.Outcome State Fault Refusal :=
  let i := s.ev.x
  let k := s.gate i
  command s 4 (if !k.valid ∨ k.held ∨ s.ev.v ≥ 4096 then none
    else some (s.modGate i fun k => { k with held := true, fwd := some (s.ev.n, s.ev.v) })) i

/-- A transfer into the window of gate i is under way (R412 step 2). -/
def State.gateBusy (s : State) (i : Nat) : Bool :=
  s.cores.any fun (_, c) => c.ctxs.any fun k => match k.served Req.atGate with | some (.gateCopy j _ _ _ _) => j == i | _ => false

/-- GATE_MIGRATION_SEND: the record of held gate x leaves, and a forwarding entry stays; to another package the record and the requests that
wait, in their order, go over the link (R412 steps 2 to 4, 27 R452). [log 49, DESIGN CHOICE] [log 59, DEDUCED] -/
def execGateMigrationSend (s : State) : Host.Outcome State Fault Refusal :=
  let i := s.ev.x
  let k := s.gate i
  match k.fwd with
  | some (pkg, j) =>
    if !k.held || s.gateBusy i then event s none
    else
      let t : State := { s with gates := aset s.gates i { fwd := k.fwd } }
      if pkg = s.pkgnum then event s (some { t with gateMoves := s.gateMoves ++ [(j, { k with fwd := none })] })
      else event s (some (k.queue.foldl (fun (t : State) e => t.sendLink pkg (.gateOp e.1 e.2)) (t.sendLink pkg (.gate j { k with queue := [] }))))
  | none => event s none

/-- OWNER, and the PART and PKG of each entry, as system software rewrites them before HELD is cleared (R412): a byte for the owner, then two
bytes for each entry; no byte leaves them as they are. -/
def Gate.rewrite (k : Gate) (b : List Byte) : Gate :=
  if b.isEmpty then k
  else
    let at' := fun (i : Nat) => ((b[i]?).getD 0).toNat
    { k with
      owner := at' 0 % 16
      acl := .ofFn fun (i : Fin 8) => { (k.acl[i]) with part := at' (1 + 2 * i.val) % 16, pkg := at' (2 + 2 * i.val) } }

/-- GATE_MIGRATION_ARRIVAL: the record of a gate on its way to index x arrives: HELD clears, and the requests that wait are performed in their
old order (R412 step 4). A record from another package is the one that the event carries (n = 1), with no request waiting, over a link p that is
ACTIVE (27 R452). [log 59, DEDUCED] -/
def execGateMigrationArrival (s : State) : Host.Outcome State Fault Refusal :=
  let i := s.ev.x
  if i ≥ 4096 || (s.gate i).valid || (s.gate i).held then event s none
  else if s.ev.n = 1 then
    let k := { (({} : Gate).ofRecord (ofBytes s.ev.bytes)).fresh with valid := true, key := s.ev.v }
    event s (if (s.link s.ev.p).active then some (({ s with gates := aset s.gates i k } : State).rekeyGate {} k) else none)
  else match s.gateMoves.find? fun m => m.1 == i with
    | some m =>
      let k := { (m.2.rewrite s.ev.bytes) with held := false }
      let t : State := { s with gates := aset s.gates i k, gateMoves := s.gateMoves.filter fun w => w.1 != i }
      event s (some (t.recheckGate i))
    | none => event s none

end Sys2Proof.Machine
end

