-- ==== Sys2Proof/Machine/KeyWrap.lean ====
section
/-! DEFINITION. The inverse cipher of AES-256 (FIPS 197) and the key unwrap of NIST SP 800-38F, KW (26 R440). Bytes are numbers below
256; a block is a list of 16, column after column. -/

namespace Sys2Proof.Machine

/-- A byte times x in the field of AES. -/
def gfDouble (a : Nat) : Nat := if a < 128 then 2 * a else (2 * a) ^^^ 0x11B

/-- The product of two bytes in the field of AES, over the bits of the second. -/
def gfMul (a b : Nat) : Nat :=
  ((List.range 8).foldl (fun (st : Nat × Nat) i => (if natBit b i then st.1 ^^^ st.2 else st.1, gfDouble st.2)) (0, a)).1

/-- The inverse of a byte, 0 for 0: its power 254, through the powers 3, 7, 15, 31, 63 and 127. -/
def gfInv (a : Nat) : Nat :=
  let r := (List.range 6).foldl (fun r _ => gfMul (gfMul r r) a) a
  gfMul r r

/-- A byte rotated left. -/
def rotByte (a n : Nat) : Nat := (a * 2 ^ n + a / 2 ^ (8 - n)) % 256

/-- The substitution of a byte. -/
def subByte (a : Nat) : Nat :=
  let b := gfInv a
  [1, 2, 3, 4].foldl (fun r n => r ^^^ rotByte b n) (b ^^^ 0x63)

/-- The substitution taken back. -/
def unsubByte (a : Nat) : Nat := gfInv (rotByte a 1 ^^^ rotByte a 3 ^^^ rotByte a 6 ^^^ 0x05)

/-- Two lists of bytes added. -/
def bytesXor (a b : List Nat) : List Nat := (a.zip b).map fun e => e.1 ^^^ e.2

/-- The word that enters the next word of the key schedule: word i − 1, rotated and substituted with the round constant at a multiple of 8,
substituted four words later. -/
def scheduleMix (i : Nat) (w : List Nat) : List Nat :=
  if i % 8 = 0 then
    let r := (List.range (i / 8 - 1)).foldl (fun c _ => gfDouble c) 1
    bytesXor ((w.drop 1 ++ w.take 1).map subByte) [r, 0, 0, 0]
  else if i % 8 = 4 then w.map subByte
  else w

/-- The 60 words of the key schedule of a 32-byte key. -/
def keyWords (key : List Nat) : List (List Nat) :=
  let first := (List.range 8).map fun i => (key.drop (4 * i)).take 4
  (List.range 52).foldl (fun ws k => ws ++ [bytesXor ((ws[k]?).getD []) (scheduleMix (k + 8) ((ws[k + 7]?).getD []))]) first

/-- The key of a round. -/
def roundKey (ws : List (List Nat)) (r : Nat) : List Nat := ((ws.drop (4 * r)).take 4).flatten

/-- Byte r of column c of a block. -/
def blockByte (b : List Nat) (r c : Nat) : Nat := (b[r % 4 + 4 * (c % 4)]?).getD 0

/-- Rows and substitution taken back, and a round's key added. -/
def unround (b k : List Nat) : List Nat :=
  bytesXor ((List.range 16).map fun i => unsubByte (blockByte b (i % 4) (i / 4 + 4 - i % 4))) k

/-- The mixture of the columns taken back. -/
def unmix (b : List Nat) : List Nat :=
  (List.range 16).map fun i =>
    let at' := fun (n : Nat) => blockByte b (i % 4 + n) (i / 4)
    gfMul (at' 0) 14 ^^^ gfMul (at' 1) 11 ^^^ gfMul (at' 2) 13 ^^^ gfMul (at' 3) 9

/-- A block deciphered with a key schedule. -/
def decipher (ws : List (List Nat)) (b : List Nat) : List Nat :=
  let b := (List.range 13).foldl (fun b k => unmix (unround b (roundKey ws (13 - k)))) (bytesXor b (roundKey ws 14))
  unround b (roundKey ws 0)

/-- One step of the unwrap of four semiblocks: step t, from 24 down to 1. -/
def unwrapStep (ws : List (List Nat)) (st : List Nat × List (List Nat)) (t : Nat) : List Nat × List (List Nat) :=
  let i := (t - 1) % 4
  let b := decipher ws (bytesXor st.1 [0, 0, 0, 0, 0, 0, 0, t] ++ (st.2[i]?).getD [])
  (b.take 8, st.2.set i (b.drop 8))

/-- The unwrap of 40 bytes under a 32-byte key: none when the integrity check fails (R440). -/
def kwUnwrap (kek wrapped : List Byte) : Option (List Byte) :=
  let ws := keyWords (kek.map (·.toNat))
  let c := wrapped.map (·.toNat)
  let st := (List.range 24).foldl (fun st k => unwrapStep ws st (24 - k))
    (c.take 8, (List.range 4).map fun i => (c.drop (8 + 8 * i)).take 8)
  if st.1 = List.replicate 8 0xA6 then some (st.2.flatten.map fun v => .ofNat 8 v) else none

end Sys2Proof.Machine
end

