-- ==== Sys2Proof/Machine/Mlkem.lean ====
section
/-! DEFINITION. ML-KEM-768 of FIPS 203: the key from a seed, and decapsulation (26 R440). A polynomial is a list of 256 numbers
below q; its transform is the list of its residues modulo X² − γ for 128 numbers γ, two numbers each. -/

namespace Sys2Proof.Machine

/-- The modulus. -/
def kemQ : Nat := 3329

/-- Polynomials, and vectors of them. -/
abbrev Poly := List Nat

/-- The seven low bits of a number in the opposite order. -/
def rev7 (i : Nat) : Nat := (List.range 7).foldl (fun a k => 2 * a + natBits i k 1) 0

/-- The i-th γ: 17 raised to 2 · rev7 i + 1. -/
def gammaOf (i : Nat) : Nat := 17 ^ (2 * rev7 i + 1) % kemQ

/-- The value of a polynomial at a number. -/
def horner (l : List Nat) (x : Nat) : Nat := l.foldr (fun c a => (c + a * x) % kemQ) 0

/-- The entries of a list at even places, and those at odd places. -/
def evens (l : Poly) : List Nat := (List.range 128).map fun i => (l[2 * i]?).getD 0
def odds (l : Poly) : List Nat := (List.range 128).map fun i => (l[2 * i + 1]?).getD 0

/-- The transform: the residues modulo X² − γ. -/
def toNtt (f : Poly) : Poly :=
  let e := evens f
  let o := odds f
  ((List.range 128).map fun i => let c := gammaOf i; [horner e c, horner o c]).flatten

/-- The polynomial with given residues; 3303 is the inverse of 128, and γ to the power 255 that of γ. -/
def ofNtt (f : Poly) : Poly :=
  let cs := (List.range 128).map gammaOf
  let back := fun (l : List Nat) (j : Nat) =>
    3303 * ((l.zip cs).foldl (fun a e => (a + e.1 * (e.2 ^ (256 - j) % kemQ)) % kemQ) 0) % kemQ
  let e := evens f
  let o := odds f
  ((List.range 128).map fun j => [back e j, back o j]).flatten

/-- Sum and difference. -/
def polyAdd (a b : Poly) : Poly := (a.zip b).map fun e => (e.1 + e.2) % kemQ
def polySub (a b : Poly) : Poly := (a.zip b).map fun e => (e.1 + kemQ - e.2) % kemQ

/-- The product of two transforms. -/
def nttMul (a b : Poly) : Poly :=
  ((List.range 128).map fun i =>
    let a0 := (a[2 * i]?).getD 0
    let a1 := (a[2 * i + 1]?).getD 0
    let b0 := (b[2 * i]?).getD 0
    let b1 := (b[2 * i + 1]?).getD 0
    [(a0 * b0 + a1 * b1 * gammaOf i) % kemQ, (a0 * b1 + a1 * b0) % kemQ]).flatten

/-- The sum of the products of two vectors of transforms. -/
def nttDot (a b : List Poly) : Poly := (a.zip b).foldl (fun s e => polyAdd s (nttMul e.1 e.2)) (List.replicate 256 0)

/-- Numbers of d bits as bytes, and back. -/
def packBits (d : Nat) (l : List Nat) : List Byte := toBytes (d * l.length / 8) (l.foldr (fun v a => v % 2 ^ d + 2 ^ d * a) 0)
def unpackBits (d : Nat) (b : List Byte) : List Nat := let n := ofBytes b; (List.range 256).map fun i => natBits n (d * i) d

/-- A residue to d bits, and back. -/
def squash (d v : Nat) : Nat := (2 ^ d * v * 2 + kemQ) / (2 * kemQ) % 2 ^ d
def unsquash (d v : Nat) : Nat := (2 * kemQ * v + 2 ^ d) / 2 ^ (d + 1)

/-- A polynomial of small coefficients from 128 bytes: each is the difference of two sums of two bits. -/
def smallPoly (b : List Byte) : Poly :=
  (unpackBits 4 b).map fun n => (natBits n 0 1 + natBits n 1 1 + kemQ - natBits n 2 1 - natBits n 3 1) % kemQ

/-- Candidates of 12 bits below q, from a stream of bytes, three bytes for two of them. -/
def candidates : List Byte → List Nat
  | a :: b :: c :: r =>
    let m := a.toNat + 256 * b.toNat + 65536 * c.toNat
    ([natBits m 0 12, natBits m 12 12].filter fun v => decide (v < kemQ)) ++ candidates r
  | _ => []

/-- A transform drawn from a seed of 32 bytes and two indices, within 560 draws of three bytes. [log 13, DESIGN CHOICE] -/
def drawnPoly (seed : List Byte) (j i : Nat) : Poly :=
  let l := (candidates (shake128 (seed ++ [.ofNat 8 j, .ofNat 8 i]) 1680)).take 256
  l ++ List.replicate (256 - l.length) 0

/-- The matrix of a seed, by rows, and its columns. -/
def kemRows (seed : List Byte) : List (List Poly) := (List.range 3).map fun i => (List.range 3).map fun j => drawnPoly seed j i
def kemCols (seed : List Byte) : List (List Poly) := (List.range 3).map fun i => (List.range 3).map fun j => drawnPoly seed i j

/-- Small polynomial number n of a seed. -/
def noise (seed : List Byte) (n : Nat) : Poly := smallPoly (shake256 (seed ++ [.ofNat 8 n]) 128)

/-- The secret vector, transformed, and the encapsulation key, from the first 32 bytes of the seed. -/
def kemKey (d : List Byte) : List Poly × List Byte :=
  let g := sha3x512 (d ++ [3])
  let rho := g.take 32
  let sigma := g.drop 32
  let s := (List.range 3).map fun n => toNtt (noise sigma n)
  let e := (List.range 3).map fun n => toNtt (noise sigma (3 + n))
  let t := ((kemRows rho).zip e).map fun r => polyAdd (nttDot r.1 s) r.2
  (s, (t.map (packBits 12)).flatten ++ rho)

/-- The ciphertext of a message of 32 bytes under an encapsulation key, with 32 bytes of randomness. -/
def kemEncrypt (ek m r : List Byte) : List Byte :=
  let t := (List.range 3).map fun i => unpackBits 12 ((ek.drop (384 * i)).take 384)
  let rho := ek.drop 1152
  let y := (List.range 3).map fun n => toNtt (noise r n)
  let u := ((kemCols rho).zip ((List.range 3).map fun n => noise r (3 + n))).map fun e => polyAdd (ofNtt (nttDot e.1 y)) e.2
  let mu := (unpackBits 1 m).map (unsquash 1)
  let v := polyAdd (polyAdd (ofNtt (nttDot t y)) (noise r 6)) mu
  (u.map fun p => packBits 10 (p.map (squash 10))).flatten ++ packBits 4 (v.map (squash 4))

/-- The message of a ciphertext under a secret vector. -/
def kemDecrypt (s : List Poly) (c : List Byte) : List Byte :=
  let u := (List.range 3).map fun i => toNtt ((unpackBits 10 ((c.drop (320 * i)).take 320)).map (unsquash 10))
  let v := (unpackBits 4 (c.drop 960)).map (unsquash 4)
  packBits 1 ((polySub v (ofNtt (nttDot s u))).map (squash 1))

/-- The ML-KEM-768 encapsulation key generated from a 64-byte seed: d, then z (R440). -/
def mlkemEk (seed : List Byte) : List Byte := (kemKey (seed.take 32)).2

/-- ML-KEM-768 decapsulation of a ciphertext with the key generated from a seed (R440). -/
def mlkemDecaps (seed ct : List Byte) : List Byte :=
  let (s, ek) := kemKey (seed.take 32)
  let m := kemDecrypt s ct
  let g := sha3x512 (m ++ sha3x256 ek)
  if kemEncrypt ek m (g.drop 32) = ct then g.take 32 else shake256 (seed.drop 32 ++ ct) 32

end Sys2Proof.Machine
end

