-- ==== Sys2Proof/Machine/Trust.lean ====
section
/-! DEFINITION. Worlds, compartments, frame tags, evidence, key installation, rotation (26 R428 to R443). -/

namespace Sys2Proof.Machine

/-! ### Digests (R438, R440) -/

/-- PCFG of a partition as a number (25 R417). -/
def Part.pcfg (p : Part) : Nat :=
  let bit := fun (b : Bool) (i : Nat) => if b then 2 ^ i else 0
  bit p.en 63 + bit p.guest 62 + bit p.strap 61 + bit p.mig 60 + bit p.sysp 59 + p.wdog % 64 * 2 ^ 48 + p.asid % 65536

/-- A list cut or filled with zeros to n bytes. -/
def fitBytes : Nat → List Byte → List Byte
  | 0, _ => []
  | n + 1, l => l.headD 0 :: fitBytes n l.tail

/-- The layout digest of a partition with registers p (R438). [log 66, DEDUCED] -/
def State.layout (s : State) (p : Part) : List Byte :=
  let regs := [p.base, p.len] ++ p.wmask.toList.map (·.toNat) ++ [p.pcfg &&& 0xF80000000000FFFF]
  let comps := ((s.worldAt p.world).comps.toList.map fun c => toBytes 1 (if c.made then 1 else 0) ++ toBytes 32 c.entry).flatten
  shake256 (toBytes 16 Config.pkgid.toNat ++ toBytes 1 p.world ++ (regs.map (toBytes 8)).flatten ++ comps) 32

/-- The firmware measurement over the resident images (R438). [log 13, DESIGN CHOICE] -/
def State.measurement (s : State) : List Byte := shake256 (Config.firmwareBytes s.bootImage) 64

/-- The seed of a partition's ML-KEM-768 key (R440). -/
def State.kemSeed (s : State) (p : Part) : List Byte := kmac256 Config.deviceSecret (s.layout p ++ toBytes 1 p.world) 64 "H640 KEM"

/-- The translation key of the launch that a context's block belongs to. -/
def State.launchKey (s : State) (g : Nat) (c : Ctx) : Option Nat :=
  match c.launchOf with
  | some l => (aget? (s.partOf g).launches l).map fun q => q.key
  | none => none

/-! ### Spans in global memory -/

/-- A span of KIND 0 checked as R78 says, 64-aligned, and translated whole with a right: its address, the physical addresses of its 64 KiB
pages (R439, R440). -/
def State.trustSpan (s : State) (sg : Fin 8) (o : W) (n : Nat) (write : Bool) : Act (Nat × List Nat × State) := do
  faultIf (segKind s.cur.sgl[sg] ≠ 0) .eseg 0 (s.cur.sgb[sg] + o).toNat
  let (_, va) ← s.seg sg o n 64 [if write then .w else .r]
  let (pages, t) ← s.pagesOf (if write then { w := true } else { r := true }) (if write then 1 else 0) va n 3
  return (va, pages, t)

/-- Physical address of a virtual address of a span, from the addresses of its pages. -/
def spanPhys (va0 : Nat) (pages : List Nat) (va : Nat) : Nat := (pages[va / 65536 - va0 / 65536]?).getD 0 + va % 65536

/-- Bytes of a span read by the executing context, 8 at a time (R440); the number counts the doubles. -/
def State.readSpan (s : State) (va0 : Nat) (pages : List Nat) (va : Nat) : Nat → Act (List Byte × State)
  | 0 => .ok ([], s)
  | n + 1 =>
    match s.coreLoad s.core s.ctx va (spanPhys va0 pages va) 8 with
    | .val v t => do
      let (l, u) ← t.readSpan va0 pages (va + 8) n
      return (toBytes 8 v ++ l, u)
    | .wait => .error (.park .store (.foreign va 8))
    | .bad => s.lineBad (spanPhys va0 pages va)

/-! ### EVREQ (R439) -/

/-- EVREQ: the checks, then the request joins those of the partition (R439). -/
def execEvreq (g : Fin 8) (d : Reg) (a b : Src) (s : State) : Host.Outcome State Fault Refusal :=
  finish s do
    let t ← s.readOps [a, b] [d] 7
    let n := (t.g b.r).toNat
    faultIf (n % 64 ≠ 0) .ealign 0 n
    faultIf (n > 0x5FC0) .eseg 0 n
    t.tileGate n
    let (va, _, t) ← t.trustSpan g (t.g a.r) 4864 true
    let u := t.hold .key (.evidence d va (Memory.bytes t.here.pad n 64)) 4
    .error (.held (u.modPart (u.partNo u.core) fun p => { p with evQ := p.evQ ++ [(u.core, u.ctx.val)] }))

/-- The evidence record for context x of core g (R439). [log 13, DESIGN CHOICE] [log 78, DESIGN CHOICE] -/
def State.evidence (s : State) (g : Nat) (x : Fin 16) (nonce : List Byte) : List Byte :=
  let p := s.partOf g
  let c := s.ctxAt g x
  let tkey := match s.launchKey g c with | some k => k | none => (Config.freeKey s.freeCnt).toNat
  let body := toBytes 4 1 ++ toBytes 4 4864 ++ fitBytes 64 nonce ++ fitBytes 64 s.measurement ++ fitBytes 32 (s.layout p)
    ++ [.ofNat 8 p.world, .ofNat 8 c.comp, .ofNat 8 (s.partNo g)] ++ toBytes 5 0 ++ toBytes 8 s.cycle ++ toBytes 32 tkey ++ toBytes 40 0
    ++ fitBytes 1184 (mlkemEk (s.kemSeed p))
  body ++ fitBytes 3309 (Config.mldsaSign s.draws body) ++ toBytes 115 0

/-- The evidence record is written, in the requester's compartment, and EVREQ completes with it; a right taken away since the issue is EPROT
(R439). [log 62, DEDUCED] -/
def State.putEvidence (s : State) (g : Nat) (x : Fin 16) (d : Reg) (va : Nat) (nonce : List Byte) : Option State :=
  match s.cpStores (s.partNo g) va none (s.evidence g x nonce) (s.ctxAt g x).comp with
  | .ok t =>
    ((({ t with draws := t.draws + 1, freeCnt := t.freeCnt + 1 } : State).acquire g x .quad).modPart (s.partNo g) fun r =>
      { r with evQ := r.evQ.drop 1 }).reply g x d 4864
  | .error .refused => some (s.failReq g x .eprot 0 va)
  | .error (.bad pa) => some (s.uncorrectable (s.partNo g) pa g)
  | .error _ => none

/-- The oldest request of a partition served: the release part of an XFENCE of HIO and CORE at CORE scope first, then the record with the
completion (R439, R255). [log 62, DEDUCED] -/
def State.endEvidence (s : State) (g : Nat) (x : Fin 16) (d : Reg) (va : Nat) (nonce : List Byte) : Option State :=
  let k := ((s.ctxAt g x).prog).getD (s.newProg g)
  if s.xReleased g k 0x21 .core then s.putEvidence g x d va nonce else some (s.modCtx g x fun c => { c with prog := some k })

/-- EVIDENCE_COMPLETE: the security processor serves the oldest request of the partition of core g, that of context x: the record is written
and EVREQ completes, once the writes before it are performed (R439, R255). [log 62, DEDUCED] -/
def execEvidenceComplete (s : State) : Host.Outcome State Fault Refusal :=
  let g := s.ev.g
  let x := ctxNo s.ev.x
  match (s.ctxAt g x).st, (s.ctxAt g x).req with
  | .parked _, some (.evidence d va nonce) =>
    if (s.part (s.partNo g)).evQ.head? ≠ some (g, x.val) ∨ (s.coreAt g).frozen then event s none
    else event s (s.endEvidence g x d va nonce)
  | _, _ => event s none

/-! ### KINST (R440) -/

/-- KINST: the blob is checked as a span and read, and the request goes to the security processor (R440). -/
def execKinst (g : Fin 8) (d : Reg) (a : Src) (s : State) : Host.Outcome State Fault Refusal :=
  finish s do
    let t ← s.readOps [a] [d] 7
    let (va, pages, t) ← t.trustSpan g (t.g a.r) 1216 false
    let (blob, t) ← t.readSpan va pages va 152
    .error (.held (t.hold .key (.keyInst d blob) 4))

/-- The partition whose registers count for a KINST of partition p: the destination while p migrates within this package (R443). -/
def State.keyPart (s : State) (p : Nat) : Part :=
  match s.parts.toList.find? fun t => t.en && t.mig && bitsOf t.pmsrc 8 8 == s.pkgnum && bitsOf t.pmsrc 0 4 == p && t.world == (s.part p).world with
  | some t => if (s.part p).en then t else s.part p
  | none => s.part p

/-- The security processor's checks of a blob for a context in compartment `comp` of a partition with registers p: the new root key, or the
subcode of EKEY (R440). -/
def State.openBlob (s : State) (p : Part) (comp : Nat) (blob : List Byte) : Except Nat Nat :=
  let m := ofBytes blob
  let f := natBytes m
  let c := f 4 1
  let k := s.compOf p c
  if f 0 4 ≠ 1 ∨ f 5 3 ≠ 0 ∨ f 40 24 ≠ 0 ∨ f 1192 24 ≠ 0 ∨ c > 15 then .error 5
  else if c ≠ comp ∨ !k.made then .error 4
  else if toBytes 32 (f 8 32) ≠ s.layout p then .error 1
  else if k.kstate = 2 then .error 2
  else
    let ss := mlkemDecaps (s.kemSeed p) (toBytes 1088 (f 64 1088))
    let kek := kmac256 ss (s.layout p ++ toBytes 1 p.world ++ toBytes 1 c) 32 "H640 KEK"
    match kwUnwrap kek (toBytes 40 (f 1152 40)) with
    | some key => .ok (ofBytes (fitBytes 32 key))
    | none => .error 3

/-- A compartment of world w changed. -/
def State.modComp (s : State) (w c : Nat) (f : Comp → Comp) : State :=
  s.modWorld w fun r => { r with comps := r.comps.set (Fin.ofNat 16 c) (f (r.comps[Fin.ofNat 16 c])) }

/-- KEY_INSTALL_COMPLETE: the security processor decides the KINST of context x of core g: EKEY, or rotation starts (R440, R435). [log 63, DEDUCED] -/
def execKeyInstallComplete (s : State) : Host.Outcome State Fault Refusal :=
  let g := s.ev.g
  let x := ctxNo s.ev.x
  match (s.ctxAt g x).st, (s.ctxAt g x).req with
  | .parked _, some (.keyInst d blob) =>
    if (s.coreAt g).away.isSome then event s none
    else match s.openBlob (s.keyPart (s.partNo g)) (s.ctxAt g x).comp blob with
    | .error sub => event s (some (s.failReq g x .ekey sub 0))
    | .ok key =>
      let c := (s.ctxAt g x).comp
      event s ((s.modComp (s.partOf g).world c fun k => { k with knew := key, kstate := 2, sweep := 0, left := [] }).reply g x d (.ofNat 64 c))
  | _, _ => event s none

/-! ### Rotation (R435, R436) -/

/-- The frames of the package's memory: 384 GiB of stacked DRAM and 1.5 TiB of LPDDR (01 R12). [log 115, DESIGN CHOICE] -/
def frameCount : Nat := 1920 * 16384

/-- The first frame at or above a frame that is in the sweep's order of a compartment of a world; frames whose tag was never changed count
with world 0 and compartment 0. The first number bounds the search (R429, R435, R436). [log 115, DESIGN CHOICE] -/
def State.sweepFrame (s : State) (world comp : Nat) (left : List Nat) : Nat → Nat → Option Nat
  | 0, _ => none
  | n + 1, f =>
    let t := aget s.tags f {}
    if frameCount ≤ f then none
    else if t.world == world && t.comp == comp && !left.contains f then some f
    else if world = 0 ∧ comp = 0 then s.sweepFrame world comp left n (f + 1)
    else match s.tags.find? fun e => decide (f < e.1) with
      | some e => s.sweepFrame world comp left n e.1
      | none => none

/-- The first line at or above a line in the sweep's order, in ascending physical order (R435). [log 115, DESIGN CHOICE] -/
def State.sweepLine (s : State) (world comp : Nat) (left : List Nat) (line : Nat) : Option Nat :=
  (s.sweepFrame world comp left (s.tags.length + left.length + 2) (line / 1024)).map fun f => Nat.max line (1024 * f)

/-- Rotation ends: the new key is the root key (R435). -/
def Comp.rotated (c : Comp) : Comp := { c with k := c.knew, knew := 0, kstate := 1, sweep := 0, left := [] }

/-- ROTATION_SWEEP_STEP: the sweep of compartment x of partition p takes one line; the last ends the rotation. A line that fails its check is
an uncorrectable error (R433, R435, R436). [log 63, DEDUCED] -/
def execRotationSweepStep (s : State) : Host.Outcome State Fault Refusal :=
  let p := s.ev.p % 16
  let c := s.ev.x % 16
  let r := s.part p
  let k := s.compOf r c
  if k.kstate ≠ 2 then event s none
  else match s.sweepLine r.world c k.left k.sweep with
    | none => event s (some (s.modComp r.world c Comp.rotated))
    | some line =>
      if !s.lineReadable line then event s (some (s.uncorrectable p (64 * line) (8 * r.base) false))
      else
        let t := s.tagOf (64 * line)
        let s1 : State := if line % 1024 = 0 then
            { s with tags := aset s.tags (line / 1024) { t with ctr := (t.ctr + 1) % 2 ^ 32 } } else s
        let s2 := s1.modComp r.world c fun k => { k with sweep := line + 1 }
        event s (some (match s2.sweepLine r.world c k.left (line + 1) with
          | some _ => s2
          | none => s2.modComp r.world c Comp.rotated))

/-! ### CMPSW (R441) -/

/-- CMPSW (R441). -/
def execCmpsw (d : Reg) (a : Src) (s : State) : Host.Outcome State Fault Refusal :=
  finish s do
    let t ← s.readOps [a] [d] 7
    let c := (t.g a.r).toNat
    let k := t.compOf t.curPart c
    faultIf (c > 15 ∨ !k.made) .ekey 5
    faultIf (c ≠ 0 ∧ k.entry ≠ 0 ∧ t.launchKey t.core t.cur ≠ some k.entry) .ekey 6
    faultIf ((List.finRange 16).any fun x => x != 0 && x != t.ctx && (t.ctxAt t.core x).st != .free
      && (t.ctxAt t.core x).comp != 0 && (t.ctxAt t.core x).comp != c) .ekey 7
    let u ← t.writeReg d (.ofNat 64 t.cur.comp)
    return (u.modCur fun k => { k with comp := c }).advance 4

/-! ### Commands of the security processor (R428, R429, R445) -/

/-- CREATE_COMPARTMENT: compartment x of partition p is created with the ENTRY that the event carries and a fresh key (R428, 27 R445). -/
def execCreateCompartment (s : State) : Host.Outcome State Fault Refusal :=
  let p := s.ev.p % 16
  let c := s.ev.x
  let w := (s.part p).world
  command s 5 (if !(s.part p).en ∨ c = 0 ∨ c > 15 ∨ (s.compOf (s.part p) c).made then none
    else
      let k : Comp := { made := true, entry := ofBytes s.ev.bytes % 2 ^ 256, k := (Config.rngDraw s.draws).toNat }
      let t := ({ s with draws := s.draws + 1 } : State).modComp w c fun _ => k
      some (t.rekey fun _ f => f.world == w && f.comp == c)) c

/-- A frame's tag changes: it is in the order of no sweep any more (R436). -/
def World.leaves (w : World) (f : Nat) : World :=
  { w with comps := w.comps.map fun c => if c.kstate = 2 then { c with left := f :: c.left } else c }

/-- SET_FRAME_TAG: the tag of frame g takes the 16 bits v; its counter moves on, and its lines count as not written since, unless it is sealed
(R429, R433, R436, 27 R445). [log 64, DEDUCED] -/
def execSetFrameTag (s : State) : Host.Outcome State Fault Refusal :=
  let f := s.ev.g
  let v := s.ev.v
  let t := aget s.tags f {}
  let sealed := natBit v 3
  let new : FrameTag := { world := natBits v 8 8, comp := natBits v 4 4, sealed := sealed, ctr := (t.ctr + 1) % 2 ^ 32
                          written := if sealed then none else some [] }
  command s 6 (some { s with tags := aset s.tags f new, worlds := s.worlds.map fun e => (e.1, e.2.leaves f) }) f

/-- READ_CERTIFICATE: the answer is the part of the certificate chain of the attestation key that begins at byte v (R439, 27 R445).
[log 65, DESIGN CHOICE] -/
def execReadCertificate (s : State) : Host.Outcome State Fault Refusal :=
  command s 7 (some s) (ofBytes ((Config.certificate.drop s.ev.v).take 120))

end Sys2Proof.Machine
end

