-- ==== Sys2Proof/Machine/Partitions.lean ====
section
/-! DEFINITION. Partitions: reset and replay, the watchdog, registers, PSHOOT and PDROP, the wake doorbell, unscrubbed pages, migration
pulls, fault-ring registers (15 R288 to R291; 22 R392, R393; 25 R416 to R427; 27 R445, R446, R459). -/

namespace Sys2Proof.Machine

/-! ### Reset (R291, R392, R393, R419) -/

/-- Cluster h belongs to the run of a partition. -/
def Part.holds (p : Part) (h : Nat) : Bool := decide (p.base ≤ h ∧ h < p.base + p.len)

/-- The requests of a partition's contexts leave the queues of units that it shares, and the probes that cross its cores end (R392, R413). -/
def State.dropRequests (s : State) (r : Part) : State :=
  let off := fun (l : List (Nat × Nat)) => l.filter fun e => !r.holds (e.1 / 8)
  { s with
    links := s.links.map fun l => { l with out := l.out.filter fun m => match m with | .gateOp g _ => !r.holds (g / 8) | _ => true }
    gates := s.gates.map fun (k, c) => (k, { c with queue := off c.queue })
    gateMoves := s.gateMoves.map fun (k, c) => (k, { c with queue := off c.queue })
    hops := s.hops.filter fun h => !(r.holds (h.core / 8))
    probes := s.probes.filter fun b => !(r.holds (b.dest / 8)) }

/-- The counts of the cache slices for partition p restart (R296). -/
def State.clearL2 (s : State) (p : Nat) : State :=
  let keep := fun (m : Assoc Nat) => m.filter fun e => e.1 % 16 != p
  { s with l2Acc := keep s.l2Acc, l2Miss := keep s.l2Miss }

/-- What a partition keeps of its own record through a reset: queues, launches, cache, trace sets and requests are dropped (R392). -/
def Part.cleared (r : Part) (cycle : Nat) : Part :=
  { r with
    rst := false
    resets := (r.resets + 1) % 2 ^ 32
    lastQ := 7
    qwait := .replicate 8 .none
    cpToken := none
    cpGone := []
    pulls := []
    launches := []
    xcache := []
    xlat := none
    evQ := []
    gwCores := []
    progress := cycle }

/-- A trace set after a reset: not VALID, not BUSY (R392). -/
def TSet.reset (t : TSet) : TSet := { t with valid := false, busy := false, launch := none }

/-- HEAD ← REPLAY and STATE ← 0 in a queue descriptor, valid or not (R392). [log 69, DEDUCED] -/
def State.rewindQueue (s : State) (p q : Nat) : State :=
  match s.cpRead p (s.queueAt p q) 64 with
  | .ok m => (s.cpTry p (s.queueAt p q + 12) 4 (queueFields m).replay).queueState p q 0
  | .error _ => s

/-- The ends of blocks that a link still carries concern no launch of partition p any more (R392). -/
def CmdLink.forget (l : CmdLink) (p : Nat) : CmdLink :=
  let f := fun (m : CmdMsg) => match m with | .ended q .. => if q = p then .other 0 else m | _ => m
  { l with sent := l.sent.map f, wait := l.wait.map f }

/-- PARTITION RESET: contexts, jobs, messages, scratchpads, accumulators, translation cache, charges and page faults are dropped, trace sets
become invalid, words lose their owners, unit counts restart, a scrambler key is drawn, and every queue replays (R392, R239, R254, R290, R296,
R322, R342, R432). [log 69, DEDUCED] -/
def State.resetPart (s : State) (p : Nat) : State :=
  let r := s.part p
  let s := (s.dropRequests r).clearL2 p
  let s : State := { s with
    cores := s.cores.filter fun e => !r.holds (e.1 / 8)
    clusters := s.clusters.map fun (h, c) => if r.holds h then (h, { up := c.up.forget p, down := c.down }) else (h, c)
    quads := s.quads.filter fun e => !r.holds (e.1 / 2)
    owners := s.owners.filter fun e => !r.holds (e.2 / 8)
    draws := s.draws + 1 }
  let s := (s.modPart p fun t => t.cleared s.cycle).modWorld r.world fun w => { w with skey := (Config.rngDraw (s.draws - 1)).toNat }
  let s := (List.finRange 4).foldl (fun (s : State) k => s.putSet p k ((s.part p).tsets[k]).reset) s
  (List.range 8).foldl (fun (s : State) q => s.rewindQueue p q) s

/-- PARTITION_RESET: partition p is reset, for an uncorrectable error or by system software (R392, R291). -/
def execPartitionReset (s : State) : Host.Outcome State Fault Refusal :=
  let p := s.ev.p % 16
  event s (if (s.part p).en then some (s.resetPart p) else none)

/-- UNCORRECTABLE_ERROR: an error at physical address v in data of partition p, met by core g: the partition stops and a record is sent (R291). -/
def execUncorrectableError (s : State) : Host.Outcome State Fault Refusal :=
  let p := s.ev.p % 16
  event s (if (s.part p).en then some (s.uncorrectable p s.ev.v s.ev.g) else none)

/-- WATCHDOG_EXPIRY: partition p has a launch running and has made no progress for a whole interval: it is reset (R393). -/
def execWatchdogExpiry (s : State) : Host.Outcome State Fault Refusal :=
  let p := s.ev.p % 16
  let r := s.part p
  event s (if r.en && r.wdog != 0 && r.running && decide (r.progress + 2 ^ r.wdog ≤ s.cycle) then some (s.resetPart p) else none)

/-! ### Registers (R416 to R419) -/

/-- A watchdog field that may be written (R417). -/
def wdogOk (n : Nat) : Bool := n == 0 || decide (20 ≤ n ∧ n ≤ 40)

/-- The fields of PCFG other than EN written: ASID and SYSP only while EN = 0 (R417). -/
def Part.writeCfg (r : Part) (v : Nat) : Part :=
  let r := { r with guest := natBit v 62, strap := natBit v 61, mig := natBit v 60,
                    wdog := if wdogOk (natBits v 48 6) then natBits v 48 6 else r.wdog }
  if r.en then r else { r with sysp := natBit v 59, asid := natBits v 0 16 }

/-- The clusters of two partitions overlap. -/
def Part.overlaps (a b : Part) : Bool := decide (a.base < b.base + b.len ∧ b.base < a.base + a.len)

/-- The check that an enable fails first, as ERR gives it; 0 when none (R418, R419). -/
def State.enableErr (s : State) (p : Nat) : Nat :=
  let r := s.part p
  if r.len = 0 then 1
  else if r.base + r.len > 81920 then 2
  else if (List.range 16).any fun q => q != p && (s.part q).en && r.overlaps (s.part q) then 3
  else if r.troot % 65536 ≠ 0 then 4
  else 0

/-- The world that partition p is given at an enable: 0 for a system partition, else p + 1, or the first tenant world that no enabled
partition has where a migration has left that one with another partition (R428; log 14, DESIGN CHOICE). -/
def State.newWorld (s : State) (p : Nat) (sysp : Bool) : Nat :=
  if sysp then 0
  else (((p + 1) :: (List.range 254).map (· + 1)).find? fun n => !s.parts.any fun r => r.en && r.world == n).getD (p + 1)

/-- The destination of a migration whose source is an enabled partition of this package lives on in the source's world, from the moment that
it names the source, while it has taken no launch (R425, R428). [log 111, DEDUCED] -/
def State.adopt (s : State) (p : Nat) : State :=
  let t := s.part p
  let q := bitsOf t.pmsrc 0 4
  let r := s.part q
  if t.en && t.mig && t.nextL == 0 && q != p && bitsOf t.pmsrc 8 8 == s.pkgnum && r.en then s.modPart p fun t => { t with world := r.world }
  else s

/-- Nothing that a core handed over waits for is left behind: its contexts wait only for what moves with it; its scratchpad is in canonical form
(R425). -/
def CoreSt.movable (c : CoreSt) : Bool :=
  c.away.isSome && c.sb.isEmpty && c.pad.wf && c.ctxs.all fun k => k.aside.isNone && k.gang.isNone && !k.reaping &&
    (match k.req with | none | some (.sleep _) | some (.copyJob ..) | some (.mxJob ..) => true | _ => false)

/-- What another package hands over of a migration's source into partition p is there, every core saved and every request done: the partition
lives on in the source's world, with its compartments (R425, R428). [log 111, DEDUCED] -/
def State.takePeer (s : State) (p : Nat) (r : Peer) : State :=
  let t := s.part p
  if t.en && t.mig && t.nextL == 0 && bitsOf t.pmsrc 8 8 != s.pkgnum && r.cores.all (fun e => e.2.movable) then
    ({ s with peers := aset s.peers (p % 16) r, worlds := aset s.worlds r.part.world r.world } : State).modPart p fun t =>
      { t with world := r.part.world }
  else s

/-- The world that a partition is given at an enable: a tenant world is new, with a fresh key in its common compartment, so that no line of
its frames that was written before passes its check (R428, R433). -/
def State.makeWorld (s : State) (w : Nat) : State :=
  if w = 0 then s
  else
    let k : Comp := { made := true, k := (Config.rngDraw s.draws).toNat }
    ({ s with draws := s.draws + 1, worlds := aset s.worlds w { comps := (Vector.replicate 16 {}).set 0 k } } : State).rekey fun _ f => f.world == w

/-- PARTITION_ENABLE: a write of v to PCFG of partition p sets EN from 0 to 1: the checks, then the clusters pass to the partition, which is
reset and has its world and its common compartment (R419, R428). [log 85, DESIGN CHOICE] [log 14, DESIGN CHOICE] -/
def execPartitionEnable (s : State) : Host.Outcome State Fault Refusal :=
  let p := s.ev.p % 16
  if (s.part p).en then event s none
  else
    let s1 := s.modPart p fun r => r.writeCfg s.ev.v
    match s1.enableErr p with
    | 0 =>
      let w := s1.newWorld p (s1.part p).sysp
      let s3 := ({ s1.makeWorld w with peers := adel s.peers p } : State).modPart p fun r =>
        { r with en := true, world := w, tsets := .replicate 4 {}, pfreeAt := 0, noPage := [], nextL := 0 }
      event s (some (((s3.resetPart p).modPart p fun r => { r with resets := 0 }).adopt p))
    | e => event s (some (s1.modPart p fun r => { r with err := e }))

/-- PARTITION_DISABLE: a write of v to PCFG of partition p sets EN from 1 to 0: it is reset, and its clusters are freed; ASID and SYSP stay,
since EN = 1 when the write comes (R417, R419). -/
def execPartitionDisable (s : State) : Host.Outcome State Fault Refusal :=
  let p := s.ev.p % 16
  if !(s.part p).en then event s none
  else event s (some ((s.resetPart p).modPart p fun r => { r.writeCfg s.ev.v with en := false }))

/-- PSTAT of a partition (R418). -/
def Part.pstat (r : Part) : Nat := (if r.rst then 2 ^ 63 else 0) + r.err % 256 * 2 ^ 48 + r.resets % 2 ^ 32

/-- PSTAT_READ: the host reads PSTAT of partition p; ERR is cleared after the read (R418). -/
def execPstatRead (s : State) : Host.Outcome State Fault Refusal :=
  let p := s.ev.p % 16
  event s (some (({ s with statReads := (s.part p).pstat :: s.statReads } : State).modPart p fun r => { r with err := 0 }))

/-- A write to a register of a partition's block that has no behaviour of its own, at an offset (R416, R417, R420, R426). [log 85, DESIGN CHOICE] -/
def Part.writeReg (r : Part) (o v : Nat) : Part :=
  match o with
  | 0x00 => if r.en then r else { r with base := natBits v 0 17 }
  | 0x08 => if r.en then r else { r with len := natBits v 0 17 }
  | 0x10 => r.writeCfg v
  | 0x18 => if r.en then r else { r with troot := natBits v 16 36 * 65536 }
  | 0x20 => if r.en then r else { r with qtab := v % 2 ^ 64 / 512 * 512 }
  | 0x30 => if r.shoot.getLsbD 63 then r else { r with shoot := .ofNat 64 v &&& 0x6000FFFFFFFF0000 }
  | 0x38 => if r.drop.getLsbD 63 then r else { r with drop := .ofNat 64 v &&& 0x200FFFFFFFFF0000 }
  | 0xC0 => { r with pfree := .ofNat 64 v &&& 0x000FFFFFFFFF003F, pfreeAt := 0 }
  | 0xC8 => { r with pmsrc := .ofNat 64 v &&& 0x00000000000FFF0F, noPage := [], pulls := [] }
  | 0xD0 => if r.en then r else { r with xarea := v % 2 ^ 64 / 65536 * 65536 }
  | 0xD8 => if r.en then r else { r with xcap := natBits v 0 16 }
  | _ => if 0x40 ≤ o ∧ o < 0x80 ∧ o % 8 = 0 then { r with wmask := r.wmask.set (Fin.ofNat 8 ((o - 0x40) / 8)) (.ofNat 16 v) } else r

/-- Occupancy of the slices of die d by partition p, which POCCd reads (R423). -/
def State.occupancy (s : State) (p d : Nat) : Nat := s.lines.countP fun l => l.die == d && l.filler == p

/-! ### PSHOOT and PDROP (R420) -/

/-- Bytes and address of the page that a PSHOOT or PDROP value names. -/
def shootPage (v : W) : Nat × Nat := if v.getLsbD 61 then (bitsOf v 21 27 * 2 ^ 21, 2 ^ 21) else (bitsOf v 16 32 * 65536, 65536)

/-- A virtual address lies in the page of a PSHOOT, or ALL is set. -/
def shot (v : W) (va : Nat) : Bool := v.getLsbD 62 || (let p := shootPage v; decide (p.1 ≤ va ∧ va < p.1 + p.2))

/-- A cluster port drops the translations that a PSHOOT of partition p names; the physical lines that they reached are returned (R420 step 1). -/
def Cluster.shoot (c : Cluster) (p : Nat) (v : W) : Cluster × List (Nat × Nat) :=
  let hit := fun (e : TlbEnt) => e.part == p && (shot v (65536 * e.vpage) || (e.big && (let q := shootPage v; q.1 / 2 ^ 21 == e.vpage / 32)))
  ({ c with tlb := c.tlb.filter fun e => !hit e }, (c.tlb.filter hit).map fun e => (e.pa / 64, if e.big then 32768 else 1024))

/-- Dirty words of the stash tiles of core g that map a page are written back, every word of those tiles is marked invalid, and their
translation is removed (R420 steps 1 and 3). [log 117, DESIGN CHOICE] -/
def State.shootStash (s : State) (g : Nat) (v : W) : State :=
  (List.finRange 24).foldl (fun s t =>
    match ((s.coreAt g).tiles[t]).stash with
    | some m =>
      if shot v m.va then
        let s := (List.range 128).foldl (fun (s : State) i =>
          match ((s.coreAt g).tiles[t]).stash with
          | some k => if k.dirty.getLsbD i then s.writeBack g t k i else s
          | none => s) s
        s.modCore g fun c => match (c.tiles[t]).stash with | some k => c.setStash t { k with valid := 0, stale := true } | none => c
      else s
    | none => s) s

/-- Clusters of partition p, while it is enabled. -/
def State.shotClusters (s : State) (p : Nat) : List Nat := if (s.part p).en then (s.clusters.map (·.1)).filter (s.part p).holds else []

/-- Copies of physical runs in the read-only caches of partition p, and copies of a page in its data caches, are invalidated (R420 step 2). -/
def State.shootCopies (s : State) (p : Nat) (v : W) (runs : List (Nat × Nat)) : State :=
  let s := (s.shotClusters p).foldl (fun (s : State) h => s.modCluster h fun c =>
    { c with ro := c.ro.filter fun l => !runs.any fun k => decide (k.1 ≤ l.line ∧ l.line < k.1 + k.2) }) s
  let r := s.part p
  { s with cores := s.cores.map fun (g, c) =>
      if r.en && r.holds (g / 8) then (g, { c with dcache := c.dcache.filter fun l => !shot v (64 * l.vline) }) else (g, c) }

/-- The steps of a PSHOOT on every port of partition p: translations, lines of the data caches and of the read-only caches, stash tiles; with
the physical runs that the removed translations reached (R420 steps 1 to 3). -/
def State.shootPage (s : State) (p : Nat) (v : W) : List (Nat × Nat) × State :=
  let (runs, s) := (s.shotClusters p).foldl (fun (acc : List (Nat × Nat) × State) h =>
    let (c, l) := (acc.2.clusterAt h).shoot p v
    (acc.1 ++ l, acc.2.setCluster h c)) ([], s)
  let r := s.part p
  let cores := (s.cores.map (·.1)).filter fun g => r.en && r.holds (g / 8)
  (runs, cores.foldl (fun (s : State) g => s.shootStash g v) (s.shootCopies p v runs))

/-- PSHOOT: a write of v with GO = 1 to PSHOOT of partition p starts; one while GO = 1 is ignored (R420). [log 67, DEDUCED] -/
def execPshoot (s : State) : Host.Outcome State Fault Refusal :=
  let p := s.ev.p % 16
  let v : W := .ofNat 64 s.ev.v &&& 0x6000FFFFFFFF0000 ||| 0x8000000000000000
  if (s.part p).shoot.getLsbD 63 then event s none
  else
    let (runs, t) := s.shootPage p v
    event s (some (t.modPart p fun r => { r with shoot := v, shotRuns := runs }))

/-- Some byte of a span lies in a shot page (R420). -/
def shotSpan (v : W) (va n : Nat) : Bool :=
  v.getLsbD 62 || (let p := shootPage v; decide (p.1 < va + n ∧ va < p.1 + p.2))

/-- The request of a context is on its way with an address of a shot page, or its walk has not ended (R420 step 4). -/
def Req.inPage (r : Req) (v : W) : Bool :=
  match r with
  | .load _ _ va _ | .ldro _ _ va _ | .desc _ va _ | .spill _ _ va _ | .fill va _ | .atomicOut _ _ _ _ _ _ va _ _ _ => shot v va
  | .gydon (some va) => shot v va
  | .stash _ va | .discard va => shot v va
  | .gateOut _ _ (.xfer va _ n _) | .gateHeld _ _ (.xfer va _ n _) | .gateCopy _ va _ n _ => shotSpan v va n
  | .evidence _ va _ => shotSpan v va 4864
  | _ => false

/-- An access of partition p to a shot page is in flight (R420 step 4). The fill of a stash tile walks again. -/
def State.shotInFlight (s : State) (p : Nat) (v : W) : Bool :=
  (s.part p).en && s.cores.any fun (g, c) => (s.part p).holds (g / 8) && c.away.isNone &&
    (c.ctxs.any (fun k => (match k.req with | some r => r.inPage v | none => false)
        && (match k.st with | .parked (.page _) | .parked .ports | .parked (.pulled _) => false | _ => true))
      || c.sb.any fun e => (match e.src with | .stx => false | _ => true) && e.page.isNone && shot v e.va)

/-- A tracked page of a valid set has been remapped: the set is invalid (R383). -/
def State.checkMaps (s : State) (p : Nat) : State :=
  (List.finRange 4).foldl (fun (s : State) k =>
    let t := (s.part p).tsets[k]
    if t.valid && t.frames != s.frameMap p t.ranges then s.putSet p k { t with valid := false } else s) s

/-- PSHOOT_COMPLETE: every walk and every access through a removed entry of partition p has ended; what those accesses left in the caches of
the cores and in the read-only caches goes, and GO clears (R420 steps 2 and 4). [log 67, DEDUCED] -/
def execPshootComplete (s : State) : Host.Outcome State Fault Refusal :=
  let p := s.ev.p % 16
  let r := s.part p
  if !r.shoot.getLsbD 63 || s.shotInFlight p r.shoot then event s none
  else
    let t := (s.shootCopies p r.shoot r.shotRuns).modPart p fun q => { q with shoot := r.shoot &&& 0x7FFFFFFFFFFFFFFF, shotRuns := [] }
    event s (some (t.checkMaps p))

/-- PDROP: a write of v with GO = 1 to PDROP of partition p: every line of the frame leaves every slice and every far copy without write-back,
and GO clears (R420). -/
def execPdrop (s : State) : Host.Outcome State Fault Refusal :=
  let p := s.ev.p % 16
  let v : W := .ofNat 64 s.ev.v &&& 0x200FFFFFFFFF0000
  let lo := if v.getLsbD 61 then bitsOf v 21 31 * 2 ^ 21 else bitsOf v 16 36 * 65536
  let n := if v.getLsbD 61 then 2 ^ 21 else 65536
  let t : State := { s with lines := s.lines.filter fun l => !(decide (lo ≤ 64 * l.line ∧ 64 * l.line < lo + n)) }
  event s (some (t.modPart p fun r => { r with drop := v }))

/-! ### The wake doorbell (R290, R446) -/

/-- The page of the fault that a token stands for: partition and virtual page. -/
def State.tokenPage (s : State) (tok : Nat) : Option (Nat × Nat) :=
  s.clusters.findSome? fun (_, c) => (c.pfaults.find? fun f => f.token == tok).map fun f => (f.part, f.vpage)

/-- The entry of a token is answered: nothing waits on it any more; a page for which a migration's source had no leaf may be asked for again
(R290, R426). -/
def State.answerToken (s : State) (tok : Nat) : State :=
  let t := match s.tokenPage tok with
    | some (p, v) => s.modPart p fun r => { r with noPage := r.noPage.filter (· != v) }
    | none => s
  { t with
    clusters := t.clusters.map fun (h, c) => (h, { c with pfaults := c.pfaults.filter fun f => f.token != tok })
    parts := t.parts.map fun p =>
      if p.cpToken = some tok then { p with cpToken := none, noPage := p.noPage.filter (· != p.cpPage) } else p }

/-- A context after the handler has given up the page of a token: a parked access takes EPNP when it is issued again, and so does the element
of a bound read stream whose fetch waits on the token (R155, R290). -/
def Ctx.giveUpPage (c : Ctx) (tok vpage : Nat) : Ctx :=
  { c with
    giveUp := if c.st = .parked (.page tok) then some vpage else c.giveUp
    ports := c.ports.map fun q => if q.page = some tok then { q with gone := some vpage, page := none } else q }

/-- The handler gives up on a page: every access that waits on the token ends with EPNP, or has its store recorded (R203, R290). -/
def State.giveUpPage (s : State) (tok vpage : Nat) : State :=
  let sb := fun (e : SbEntry) => if e.page = some tok then { e with gaveUp := true } else e
  let copy := fun (j : CopyJob) => if j.page = some tok then { j with gaveUp := true } else j
  let mx := fun (j : MxJob) => if j.page = some tok then { j with gaveUp := true } else j
  { s with
    cores := s.cores.map fun (g, c) =>
      (g, { c with ctxs := c.ctxs.map fun k => k.giveUpPage tok vpage, sb := c.sb.map sb, copyQ := c.copyQ.map copy, mxQ := c.mxQ.map mx })
    clusters := s.clusters.map fun (h, c) =>
      (h, { c with copyRun := c.copyRun.map (fun (n, j) => (n, copy j)), mxRun := c.mxRun.map (fun (n, j) => (n, mx j)) }) }

/-- Every access that waits on a token takes EPNP; a page of the command processor counts as unreadable (R290, R372). -/
def State.giveUp (s : State) (tok : Nat) : State :=
  let s1 : State := { s with
    parts := s.parts.map fun p => if p.cpToken = some tok then { p with cpGone := p.cpPage :: p.cpGone } else p }
  let s2 := match s.tokenPage tok with | some (_, v) => s1.giveUpPage tok v | none => s1
  s2.answerToken tok

/-- A write of v to the wake doorbell: TOKEN in bits 31:0, ACTION in bit 32; none where the token is not outstanding (R446). -/
def State.doorbell (s : State) (v : Nat) : Option State :=
  let tok := natBits v 0 32
  if !s.tokenOut tok then none else some (if natBit v 32 then s.giveUp tok else s.answerToken tok)

/-- DOORBELL_REISSUE: v is written to the doorbell with ACTION 0: every access that waits on its token is issued again (R290, R446). -/
def execDoorbellReissue (s : State) : Host.Outcome State Fault Refusal := event s (if natBit s.ev.v 32 then none else s.doorbell s.ev.v)

/-- DOORBELL_GIVE_UP: v is written to the doorbell with ACTION 1: every access that waits on its token takes EPNP (R290, R372, R446). -/
def execDoorbellGiveUp (s : State) : Host.Outcome State Fault Refusal := event s (if natBit s.ev.v 32 then s.doorbell s.ev.v else none)

/-! ### Unscrubbed pages (R421, R422) -/

/-- SCRUB_TAGGED_REQUEST: a tagged request for virtual address v of partition p reaches its controller: a record is there or is made (R421). -/
def execScrubTaggedRequest (s : State) : Host.Outcome State Fault Refusal :=
  let p := s.ev.p % 16
  match s.walk p s.ev.v with
  | .leaf e => event s (if e.unscr then s.readyScrub p e else none)
  | .bad pa => event s (some (s.uncorrectable p pa (8 * (s.part p).base) false))
  | .absent => event s none

/-- The PSHOOT value that names the page of a scrub record (R420, R421). -/
def Scrub.shootWord (r : Scrub) : W := .ofNat 64 (65536 * r.vpage + (if r.size = 65536 then 0 else 2 ^ 61))

/-- The record of a frame changed. -/
def State.modScrub (s : State) (frame : Nat) (f : Scrub → Scrub) : State :=
  { s with scrubs := s.scrubs.map fun k => if k.frame = frame then f k else k }

/-- No line of a frame is uncleared: UNSCR ← 0 in a leaf that still holds V = 1 and the frame, then the PSHOOT of the page begins (R421, R422). -/
def State.endScrub (s : State) (r : Scrub) : State :=
  let e := s.homeLoad r.leaf 8
  let t := if natBit e 0 && entryPa e == r.frame then s.homeStore 16 r.leaf none none none 8 (e % 2 ^ 63) else s
  (t.shootPage r.part r.shootWord).2.modScrub r.frame fun k => { k with shooting := true }

/-- The first uncleared line of a frame at or above a line; the first number is fuel. -/
def Scrub.nextLine (r : Scrub) : Nat → Nat → Option Nat
  | 0, _ => none
  | n + 1, i => if 64 * i ≥ r.size then none else if r.uncleared i then some i else r.nextLine n (i + 1)

/-- SCRUB_CLEAR_LINE: the background clear of the frame at physical address v zeroes its next uncleared line; with none left the leaf is
written and its PSHOOT begins, and once that has completed the record is freed, and writes of the device that waited for one go on (R421). -/
def execScrubClearLine (s : State) : Host.Outcome State Fault Refusal :=
  match s.scrubOf s.ev.v with
  | none => event s none
  | some r =>
    if r.shooting then
      if s.shotInFlight r.part r.shootWord then event s none
      else event s (some (({ s with scrubs := s.scrubs.filter fun k => k.frame != r.frame } : State).flushDevice s.devQ.length))
    else match r.nextLine (r.size / 64 + 1) r.pos with
      | none => event s (some (s.endScrub r))
      | some i => event s (some ((s.writeMemLine (r.frame / 64 + i) (.replicate 8 0)).modScrub r.frame fun k => { k with pos := i + 1 }))

/-! ### Migration pulls (R425 to R427) -/

/-- What a pull computes: none stops it until a frame or a scrub record is there; an address is an uncorrectable error in a line (R426, R427). -/
abbrev Pull (α : Type) := Except (Option Nat) α

/-- A frame taken from the ring of PFREE of partition p; the ring is empty where it holds a zero (R426). [log 68, DEDUCED] -/
def State.takeFrame (s : State) (p : Nat) : Pull (Nat × State) :=
  let t := s.part p
  let n := 2 ^ bitsOf t.pfree 0 6
  let a := bitsOf t.pfree 16 36 * 65536 + 8 * (t.pfreeAt % n)
  let f := s.homeLoad a 8 / 65536 * 65536
  if !s.lineLive (a / 64) then .error (some a)
  else if f = 0 then .error none
  else .ok (f, ((s.touchLines a 8).homeStore 16 a none none none 8 0).modPart p fun t => { t with pfreeAt := (t.pfreeAt + 1) % n })

/-- The table below an entry of a level, made from a fresh frame where the entry is void (R426). -/
def State.tableAt (s : State) (p entry lvl : Nat) : Pull (Nat × State) :=
  let e := s.homeLoad entry 8
  if !s.lineLive (entry / 64) then .error (some entry)
  else if !entryVoid lvl e && !natBit e 5 then .ok (entryPa e, s)
  else do
    let (f, t) ← s.takeFrame p
    let t := t.homeStore 16 f none none none 65536 0
    return (f, t.homeStore 16 entry none none none 8 (f + 1))

/-- A leaf written for a virtual page of partition p, with the missing levels of its table (R197, R426). -/
def State.mapPage (s : State) (p va leaf : Nat) : Pull State := do
  let (t2, s) ← s.tableAt p ((s.part p).troot + 8 * levelIndex 1 va) 1
  let (t3, s) ← s.tableAt p (t2 + 8 * levelIndex 2 va) 2
  let (t4, s) ← s.tableAt p (t3 + 8 * levelIndex 3 va) 3
  return s.homeStore 16 (t4 + 8 * levelIndex 4 va) none none none 8 leaf

/-- One 64 KiB page pulled into partition p from bytes, with rights R, W, X in bits 1 to 3 of the leaf (R426). [log 68, DEDUCED] -/
def State.landPage (s : State) (p va rights : Nat) (bytes : List Byte) : Pull State := do
  let (f, t) ← s.takeFrame p
  let t := t.homeStore p f none none none 65536 (ofBytes bytes)
  t.mapPage p va (f + rights + 1)

/-- 64 KiB of the source read for a pull, as the homes hold them; an error where a line fails its check (R426, R427, R433). -/
def State.sourceBytes (s : State) (pa : Nat) : Pull (List Byte) :=
  match (List.range 1024).find? fun i => !s.lineLive (pa / 64 + i) with
  | some i => .error (some (pa + 64 * i))
  | none => .ok ((List.range 1024).map fun i => lineBytes (s.homeLine (pa / 64 + i))).flatten

/-- The 64 KiB pages of a leaf. -/
def TlbEnt.pages (e : TlbEnt) : Nat := if e.big then 32 else 1

/-- The pages of a leaf of the source pulled one after another (R426, R427). -/
def State.landAll (s : State) (p va pa rights : Nat) : Nat → Pull State
  | 0 => .ok s
  | n + 1 => do
    let b ← s.sourceBytes pa
    (← (s.touchLines pa 65536).landPage p va rights b).landAll p (va + 65536) (pa + 65536) rights n

/-- A tagged pull makes the scrub record of the page that it reads (R421). -/
def State.pullScrub (s : State) (q : Nat) (e : TlbEnt) : Pull State := match s.readyScrub q e with | some t => .ok t | none => .error none

/-- The page that a leaf e of partition q maps is pulled into partition p: a tagged pull makes its scrub record, frames come from PFREE, the
leaf takes the source's rights, and V ← 0 in the source's leaf (R421, R426). -/
def State.pullLeaf (s : State) (p q : Nat) (e : TlbEnt) : Pull State := do
  let rights := (if e.r then 2 else 0) + (if e.w then 4 else 0) + (if e.x then 8 else 0)
  let t ← s.pullScrub q e
  let t ← t.landAll p (65536 * e.vpage) e.pa rights e.pages
  return t.homeStore 16 e.leaf none none none 8 (t.homeLoad e.leaf 8 / 2 * 2)

/-- A pull into partition p ends: it waits where it cannot go on, and an uncorrectable error stops the destination alone, the source untouched
(R426, R427). -/
def State.endPull (s : State) (p : Nat) (r : Pull State) : Option State :=
  match r with
  | .ok t => some t
  | .error none => none
  | .error (some pa) => some (s.uncorrectable p pa (8 * (s.part p).base) false)

/-- The bytes of the pages of a leaf go over the link to the package that asked for them, one page after another (R426, 27 R452). -/
def State.sendPages (s : State) (k vpage pa : Nat) : Nat → Pull State
  | 0 => .ok s
  | n + 1 => do
    let b ← s.sourceBytes pa
    let l := s.link k
    ((s.touchLines pa 65536).setLink k { l with out := l.out ++ [.page vpage b] }).sendPages k (vpage + 1) (pa + 65536) n

/-- Another package pulls the page of virtual address va of partition q: its bytes go over link k, and V ← 0 in the leaf; an error leaves the
source untouched (R426, R427). -/
def State.pulledAway (s : State) (q k va : Nat) : Option State :=
  match s.walk q va with
  | .leaf e =>
    match do (← s.pullScrub q e).sendPages k e.vpage e.pa e.pages with
    | .ok t => some (t.homeStore 16 e.leaf none none none 8 (t.homeLoad e.leaf 8 / 2 * 2))
    | .error _ => none
  | _ => none

/-- A page that partition p lacks is asked of the source in another package, over the link, or its answer arrives there: the page with its
rights in n, or that the source's walk ends with V = 0 (n = 8) (R426, 27 R452). [log 68, DEDUCED] -/
def State.pullFar (s : State) (p pkg va : Nat) : Option State :=
  let v := va / 65536
  if !(s.part p).pulls.contains v then some ((s.modPart p fun r => { r with pulls := v :: r.pulls }).sendLink pkg (.pull p v))
  else if !s.linkOpen pkg (.pull p v) then none
  else
    let t := s.modPart p fun r => { r with pulls := r.pulls.filter (· != v) }
    if s.ev.n = 8 then some (t.modPart p fun r => { r with noPage := v :: r.noPage })
    else s.endPull p (t.landPage p (65536 * v) (s.ev.n % 8 * 2) s.ev.bytes)

/-- MIGRATION_PULL_COMPLETE: the page of virtual address v lands in partition p (R426). From another package it is asked for first, and a later
event carries the answer; n = 9: another package pulls the page from partition p over link x, which is ACTIVE. [log 68, DEDUCED] -/
def execMigrationPullComplete (s : State) : Host.Outcome State Fault Refusal :=
  let p := s.ev.p % 16
  let r := s.part p
  let va := s.ev.v
  let q := bitsOf r.pmsrc 0 4
  let pkg := bitsOf r.pmsrc 8 8
  if s.ev.n = 9 then event s (if (s.link s.ev.x).active && r.en then s.pulledAway p s.ev.x va else none)
  else if r.rst || va ≥ 2 ^ 48 then event s none
  else match s.walk p va with
  | .leaf _ => event s none
  | .bad pa => event s (some (s.uncorrectable p pa (8 * r.base) false))
  | .absent =>
    if !s.migrates p va then event s none
    else if pkg ≠ s.pkgnum then event s (s.pullFar p pkg va)
    else match s.walk q va with
      | .leaf e => event s (s.endPull p (s.pullLeaf p q e))
      | .bad pa => event s (some (s.uncorrectable p pa (8 * r.base) false))
      | .absent => event s none

/-! ### Fault-ring registers (R459) -/

/-- A write of a fault-ring register: 0 RBASE, 1 RCFG, 3 RCONS (R459). -/
def Ring.write (r : Ring) (reg v : Nat) : Ring :=
  match reg with
  | 0 => if r.en then r else { r with base := natBits v 0 52 }
  | 1 =>
    let z := natBits v 0 5
    if r.en || (natBit v 63 && !(decide (6 ≤ z ∧ z ≤ 16))) then r else { r with en := natBit v 63, szlog := z }
  | 3 => if (r.prod + 2 ^ 32 - v % 2 ^ 32) % 2 ^ 32 > 2 ^ r.szlog then r else { r with cons := v % 2 ^ 32, line := false }
  | _ => r

/-- A write of v to register n of fault ring r; waiting records are then written while there is room (R288, R459). -/
def State.ringWrite (s : State) (r n v : Nat) : State :=
  let k := Fin.ofNat 64 r
  let t : State := { s with rings := s.rings.set k ((s.rings[k]).write n v) }
  t.flushRing k ((t.rings[k]).wait.length)

/-- FAULT_RING_REGISTER_WRITE: the host writes v to register n of ring x (R288, R459). -/
def execFaultRingRegisterWrite (s : State) : Host.Outcome State Fault Refusal := event s (some (s.ringWrite s.ev.x s.ev.n s.ev.v))

/-! ### The control window (R445) -/

/-- A write of 8 bytes to an address of the control window (R416, R445, R446). -/
def State.windowWrite (s : State) (a v : Nat) : State :=
  if a < 0x1000 then (s.modPart (a / 256) fun r => r.writeReg (a % 256) v).adopt (a / 256)
  else if 0x2000 ≤ a ∧ a < 0x2000 + 8 * 320 ∧ a % 8 = 0 then { s with esb := aset s.esb ((a - 0x2000) / 8) (natBits v 0 12) }
  else if a = 0x3000 then (s.doorbell v).getD s
  else if a = 0x3008 then { s with pkgnum := natBits v 0 8 }
  else if a = 0x3010 ∧ 60 ≤ natBits v 0 8 ∧ natBits v 0 8 ≤ 105 then { s with therm := natBits v 0 8 }
  else if 0x4000 ≤ a ∧ a < 0x4800 ∧ a % 8 = 0 then s.ringWrite ((a - 0x4000) / 32) (a % 32 / 8) v
  else if 0x10000 ≤ a ∧ a < 0x20000 ∧ a % 8 = 0 then { s with cmdRing := Memory.store s.cmdRing (a - 0x10000) 8 (v % 2 ^ 64) }
  else s

/-- REGISTER_WRITE: the host writes v to the register at offset x of the control window; a write that enables or disables a partition, or sets
GO in PSHOOT or PDROP, has an event of its own (R445, R416). -/
def execRegisterWrite (s : State) : Host.Outcome State Fault Refusal := event s (some (s.windowWrite s.ev.x s.ev.v))

end Sys2Proof.Machine
end

