-- ==== Sys2Proof/Machine/Firmware.lean ====
section
/-! DEFINITION. The firmware tree, flash slots and boot, PCIe ports, temperatures (27 R444, R447 to R450, R454). -/

namespace Sys2Proof.Machine

/-! ### Command links (R444) -/

/-- The receiver consumes the oldest message, which is returned, and its permit returns; the first waiting message is then sent (R444).
[log 72, DESIGN CHOICE] -/
def CmdLink.consume (l : CmdLink) : Option (CmdMsg × CmdLink) :=
  match l.sent with
  | [] => none
  | v :: r =>
    match l.wait with
    | m :: w => some (v, { permits := l.permits, sent := r ++ [m], wait := w })
    | [] => some (v, { permits := l.permits + 1, sent := r, wait := [] })

/-- FIRMWARE_MESSAGE: message v is sent from the leaf of cluster g (n = 0) or to it (n = 1), or waits for a permit (R444). -/
def execFirmwareMessage (s : State) : Host.Outcome State Fault Refusal :=
  event s (some (s.modCluster s.ev.g fun c =>
    if s.ev.n = 0 then { c with up := c.up.offer (.other s.ev.v) } else { c with down := c.down.offer (.other s.ev.v) }))

/-- PERMIT_RETURN: the receiver of the link of cluster g in direction n consumes a message, which takes effect, and the permit returns to the
sender (R444). -/
def execPermitReturn (s : State) : Host.Outcome State Fault Refusal :=
  let c := s.clusterAt s.ev.g
  if s.ev.n = 0 then event s (c.up.consume.map fun l => (s.setCluster s.ev.g { c with up := l.2 }).takeMsg l.1)
  else event s (c.down.consume.map fun l => s.setCluster s.ev.g { c with down := l.2 })

/-! ### Flash slots and boot (R447 to R449) -/

/-- One byte of the CRC-32 of IEEE 802.3, bit by bit; the number counts the bits. -/
def crcBits (c : BitVec 32) : Nat → BitVec 32
  | 0 => c
  | n + 1 => crcBits (if c.getLsbD 0 then c >>> 1 ^^^ 0xEDB88320#32 else c >>> 1) n

/-- The CRC-32 of IEEE 802.3 over bytes (R447). -/
def crc32 (l : List Byte) : BitVec 32 := ~~~(l.foldl (fun c b => crcBits (c ^^^ b.setWidth 32) 8) 0xFFFFFFFF#32)

/-- A marker copy is valid (R447). -/
def markerOk (m : Nat) : Bool :=
  natBytes m 0 4 == 0x4B534C54 && natBytes m 8 1 ≤ 1 && natBytes m 9 19 == 0 && natBytes m 28 4 == (crc32 (toBytes 28 m)).toNat

/-- SEQ and SLOT of a valid marker copy. -/
def markerOf (m : Nat) : Option (Nat × Nat) := if markerOk m then some (natBytes m 4 4, natBytes m 8 1) else none

/-- A marker copy with a SEQ and a SLOT (R447). -/
def markerOfSlot (seq slot : Nat) : Nat :=
  let body := 0x4B534C54 + seq % 2 ^ 32 * 2 ^ 32 + slot % 2 * 2 ^ 64
  body + (crc32 (toBytes 28 body)).toNat * 2 ^ 224

/-- The slot that the markers choose: the copy of higher SEQ, copy 0 on equal SEQ, slot A when none is valid (R448). -/
def chosenSlot (m0 m1 : Nat) : Nat :=
  match markerOf m0, markerOf m1 with
  | some (a, s), some (b, t) => if a < b then t else s
  | some (_, s), none => s
  | none, some (_, t) => t
  | none, none => 0

/-- A flash slot. -/
def State.slot (s : State) (k : Nat) : FlashSlot := if k = 0 then s.slotA else s.slotB

/-- The slot that boots: the chosen one, or the other when its signature fails; none when both fail (R448). -/
def State.bootSlot (s : State) : Option Nat :=
  let k := chosenSlot s.marker0 s.marker1
  if (s.slot k).good then some k else if (s.slot (1 - k)).good then some (1 - k) else none

/-- The package after a reset: the flash, the memory and the draws are what they were, the boot ROM decides, and the package key is drawn
(R432, R448; log 61, DEDUCED). -/
def State.boot (s : State) : State :=
  let t : State := { State.reset with agenda := s.agenda, mem := s.mem, slotA := s.slotA, slotB := s.slotB, marker0 := s.marker0,
                                      marker1 := s.marker1, draws := s.draws, freeCnt := s.freeCnt }
  match s.bootSlot with
  | some k => { t with booted := some k, bootImage := (s.slot k).image, pkgKey := (Config.rngDraw s.draws).toNat, draws := s.draws + 1 }
  | none => { t with booted := none, board := some 0xB0 }

/-- PACKAGE_RESET: power-up or a package reset (R448). [log 61, DEDUCED] -/
def execPackageReset (s : State) : Host.Outcome State Fault Refusal := event s (some s.boot)

/-- The slot that an update writes: the one that the markers do not choose (R449). [log 86, DEDUCED] -/
def State.updateSlot (s : State) : Nat := 1 - chosenSlot s.marker0 s.marker1

/-- The marker copy that an update rewrites: the one of lower SEQ, copy 1 when they are equal; an invalid copy counts as lower (R449). [log 86, DEDUCED] -/
def updateCopy (m0 m1 : Nat) : Nat :=
  match markerOf m0, markerOf m1 with
  | some (a, _), some (b, _) => if a < b then 0 else 1
  | none, some _ => 0
  | _, _ => 1

/-- The higher SEQ of the valid copies. -/
def higherSeq (m0 m1 : Nat) : Nat :=
  Nat.max ((markerOf m0).elim 0 (·.1)) ((markerOf m1).elim 0 (·.1))

/-- The marker copy that the update in progress rewrites holds m, and the update is over (R449). -/
def State.putMarker (s : State) (m : Nat) : State :=
  let s := { s with updated := none }
  if updateCopy s.marker0 s.marker1 = 0 then { s with marker0 := m } else { s with marker1 := m }

/-- FIRMWARE_UPDATE: step n of an update: 0 writes image v with a signature that is good (x = 1) or not into the update's slot; 1, after it,
rewrites the marker copy once the image's signature is good; 2 is that rewriting cut off by a loss of power, which leaves the copy as v (R449). -/
def execFirmwareUpdate (s : State) : Host.Outcome State Fault Refusal :=
  match s.ev.n, s.updated with
  | 0, _ =>
    let k := s.updateSlot
    let f : FlashSlot := { image := s.ev.v, good := s.ev.x == 1 }
    event s (some (if k = 0 then { s with slotA := f, updated := some 0 } else { s with slotB := f, updated := some 1 }))
  | 1, some k => event s (if (s.slot k).good then some (s.putMarker (markerOfSlot (higherSeq s.marker0 s.marker1 + 1) k)) else none)
  | _, some k => event s (if (s.slot k).good && !markerOk s.ev.v then some (s.putMarker s.ev.v) else none)
  | _, none => event s none

/-! ### Temperatures (R373, R454) -/

/-- Sectors above the threshold: one that has exceeded it stays until its temperature is below it (R373, R454). [log 70, DEDUCED] [log 90, DESIGN CHOICE] -/
def hotSectors (old : List Nat) (therm : Nat) (temps : List Byte) : List Nat :=
  (List.range 320).filter fun k =>
    let t := ((temps[k]?).getD 0).toNat
    decide (therm < t) || (old.contains k && decide (therm ≤ t))

/-- THERMAL_READING: the temperatures of the 320 sectors, one byte each, are read; past the package limit every core is gated, every partition is
reset and 0xB1 is reported; admission resumes once every sector is below the threshold (R454). [log 90, DESIGN CHOICE] [log 70, DEDUCED] -/
def execThermalReading (s : State) : Host.Outcome State Fault Refusal :=
  let temps := s.ev.bytes
  let s1 : State := { s with
    temps := (List.range 320).map fun k => (k, ((temps[k]?).getD 0).toNat)
    hot := hotSectors s.hot s.therm temps }
  if s1.temps.any fun e => decide (s.therm + 15 < e.2) then
    let s2 := (List.range 16).foldl (fun (s : State) p => if (s.part p).en then s.resetPart p else s) { s1 with gated := true }
    event s (some { s2 with board := some 0xB1 })
  else event s (some (if s1.gated && s1.temps.all (fun e => decide (e.2 < s.therm)) then { s1 with gated := false } else s1))

/-! ### PCIe ports (R450) -/

/-- The widths of a PCIe port, widest first (R450). -/
def pcieWidths : List Nat := [16, 8, 4, 2, 1]

/-- PCIE_LINK_TRAINING: root port p trains with a partner whose highest generation is n and whose widest width is v: both settle on the highest
that both support (R450). -/
def execPcieLinkTraining (s : State) : Host.Outcome State Fault Refusal :=
  match pcieWidths.find? fun w => decide (w ≤ s.ev.v) with
  | some w =>
    if 3 ≤ s.ev.n then event s (some { s with pcie := s.pcie.set (Fin.ofNat 8 s.ev.p) (some (Nat.min 6 s.ev.n, w)) })
    else event s none
  | none => event s none

end Sys2Proof.Machine
end

