-- ==== Sys2Proof/Machine/Integer.lean ====
section
/-! DEFINITION. Integer and address instructions with their constant and 16-bit forms (05 R109 to R120, R123; 03 R90). -/

namespace Sys2Proof.Machine

/-! ### Results -/

/-- MULH and MULHN: the high half of the exact product (R113). -/
def mulHigh (t : Ty) (a b : W) : W := tyPut t (tyVal t a * tyVal t b / (2 : Int) ^ tyWidth t)

/-- The shift count gB mod w (R114). -/
def shiftCount (t : Ty) (b : W) : Nat := b.toNat % tyWidth t

/-- SHL (R114). -/
def shiftLeft (t : Ty) (a b : W) : W := tyPut t (tyVal t a * (2 : Int) ^ shiftCount t b)

/-- SHR and SAR: the floor of the value divided by the power of two, by the type's sign (R114). -/
def shiftRight (t : Ty) (a b : W) : W := tyPut t (tyVal t a / (2 : Int) ^ shiftCount t b)

/-- ROL (R114). -/
def rotLeft (t : Ty) (a b : W) : W :=
  let w := tyWidth t
  let x := lowBits w a
  let n := shiftCount t b
  tyPut t ((x * 2 ^ n + x / 2 ^ (w - n)) % 2 ^ w : Nat)

/-- Zero bits above the highest 1 bit of a w-bit pattern (R115). -/
def leadingZeros (x : Nat) : Nat → Nat
  | 0 => 0
  | w + 1 => if natBit x w then 0 else leadingZeros x w + 1

/-- Zero bits below the lowest 1 bit of a w-bit pattern (R115). -/
def trailingZeros (x : Nat) : Nat → Nat
  | 0 => 0
  | w + 1 => if natBit x 0 then 0 else trailingZeros (x / 2) w + 1

/-- 1 bits in a w-bit pattern (R115). -/
def onesIn (x : Nat) : Nat → Nat
  | 0 => 0
  | w + 1 => (if natBit x w then 1 else 0) + onesIn x w

/-- A w-bit pattern with its bits in reverse order (R115). -/
def reverseBits (x : Nat) : Nat → Nat
  | 0 => 0
  | w + 1 => 2 ^ w * (x % 2) + reverseBits (x / 2) w

/-- Position and length of the field that a descriptor names, cut at bit 63 (R115). -/
def fieldOf (b : W) : Nat × Nat :=
  let lo := bitsOf b 0 6
  (lo, Nat.min (Nat.min (bitsOf b 8 7) 64) (64 - lo))

/-- EXT (R115). -/
def extractField (sx : Bool) (a b : W) : W :=
  let (lo, n) := fieldOf b
  let v := bitsOf a lo n
  if sx ∧ n > 0 then .ofInt 64 (signedOf n v) else .ofNat 64 v

/-- INS: the field of d replaced by the low bits of a (R115). -/
def insertField (d a b : W) : W :=
  let (lo, n) := fieldOf b
  .ofNat 64 (d.toNat - bitsOf d lo n * 2 ^ lo + bitsOf a 0 n * 2 ^ lo)

/-- A SET result (R116). -/
def setIf (b : Bool) : W := if b then 1 else 0

/-- LDHI (R119). -/
def appendImm (d : W) (i : BitVec 21) : W := .ofNat 64 (d.toNat * 2 ^ 21 + i.toNat)

/-- The destination as a further source, read plainly. -/
def alsoReads (d : Reg) (l : List Src) : List Src := l ++ [plain d]

/-! ### Meanings -/

/-- ADD (R113). -/
def execAdd (t : Ty) (d : Reg) (a b : Src) (s : State) : Host.Outcome State Fault Refusal :=
  finish s (s.compute [a, b] d 4 fun r => tyPut t (tyVal t (r.g a.r) + tyVal t (r.g b.r)))

/-- SUB (R113). -/
def execSub (t : Ty) (d : Reg) (a b : Src) (s : State) : Host.Outcome State Fault Refusal :=
  finish s (s.compute [a, b] d 4 fun r => tyPut t (tyVal t (r.g a.r) - tyVal t (r.g b.r)))

/-- RSUB (R113). -/
def execRsub (t : Ty) (d : Reg) (a b : Src) (s : State) : Host.Outcome State Fault Refusal :=
  finish s (s.compute [a, b] d 4 fun r => tyPut t (tyVal t (r.g b.r) - tyVal t (r.g a.r)))

/-- MUL (R113). -/
def execMul (t : Ty) (d : Reg) (a b : Src) (s : State) : Host.Outcome State Fault Refusal :=
  finish s (s.compute [a, b] d 4 fun r => tyPut t (tyVal t (r.g a.r) * tyVal t (r.g b.r)))

/-- MULH (R113). -/
def execMulh (t : Ty) (d : Reg) (a b : Src) (s : State) : Host.Outcome State Fault Refusal :=
  finish s (s.compute [a, b] d 4 fun r => mulHigh t (r.g a.r) (r.g b.r))

/-- MULHN (R113). -/
def execMulhn (t : Ty) (d : Reg) (a b : Src) (s : State) : Host.Outcome State Fault Refusal :=
  finish s (s.compute [a, b] d 4 fun r => mulHigh t (r.g a.r) (r.g b.r))

/-- AND (R114). -/
def execAnd (d : Reg) (a b : Src) (s : State) : Host.Outcome State Fault Refusal :=
  finish s (s.compute [a, b] d 4 fun r => (r.g a.r) &&& (r.g b.r))

/-- OR (R114). -/
def execOr (d : Reg) (a b : Src) (s : State) : Host.Outcome State Fault Refusal :=
  finish s (s.compute [a, b] d 4 fun r => (r.g a.r) ||| (r.g b.r))

/-- XOR (R114). -/
def execXor (d : Reg) (a b : Src) (s : State) : Host.Outcome State Fault Refusal :=
  finish s (s.compute [a, b] d 4 fun r => (r.g a.r) ^^^ (r.g b.r))

/-- ANDN (R114). -/
def execAndn (d : Reg) (a b : Src) (s : State) : Host.Outcome State Fault Refusal :=
  finish s (s.compute [a, b] d 4 fun r => (r.g a.r) &&& ~~~(r.g b.r))

/-- SHL (R114). -/
def execShl (t : Ty) (d : Reg) (a b : Src) (s : State) : Host.Outcome State Fault Refusal :=
  finish s (s.compute [a, b] d 4 fun r => shiftLeft t (r.g a.r) (r.g b.r))

/-- SHR (R114). -/
def execShr (t : Ty) (d : Reg) (a b : Src) (s : State) : Host.Outcome State Fault Refusal :=
  finish s (s.compute [a, b] d 4 fun r => shiftRight t (r.g a.r) (r.g b.r))

/-- SAR (R114). -/
def execSar (t : Ty) (d : Reg) (a b : Src) (s : State) : Host.Outcome State Fault Refusal :=
  finish s (s.compute [a, b] d 4 fun r => shiftRight t (r.g a.r) (r.g b.r))

/-- ROL (R114). -/
def execRol (t : Ty) (d : Reg) (a b : Src) (s : State) : Host.Outcome State Fault Refusal :=
  finish s (s.compute [a, b] d 4 fun r => rotLeft t (r.g a.r) (r.g b.r))

/-- MOV (R114). -/
def execMov (d : Reg) (a : Src) (s : State) : Host.Outcome State Fault Refusal :=
  finish s (s.compute [a] d 4 fun r => (r.g a.r))

/-- CLZ (R115). -/
def execClz (t : Ty) (d : Reg) (a : Src) (s : State) : Host.Outcome State Fault Refusal :=
  finish s (s.compute [a] d 4 fun r => .ofNat 64 (leadingZeros (lowBits (tyWidth t) (r.g a.r)) (tyWidth t)))

/-- CTZ (R115). -/
def execCtz (t : Ty) (d : Reg) (a : Src) (s : State) : Host.Outcome State Fault Refusal :=
  finish s (s.compute [a] d 4 fun r => .ofNat 64 (trailingZeros (lowBits (tyWidth t) (r.g a.r)) (tyWidth t)))

/-- POPC (R115). -/
def execPopc (t : Ty) (d : Reg) (a : Src) (s : State) : Host.Outcome State Fault Refusal :=
  finish s (s.compute [a] d 4 fun r => .ofNat 64 (onesIn (lowBits (tyWidth t) (r.g a.r)) (tyWidth t)))

/-- BREV (R115). -/
def execBrev (t : Ty) (d : Reg) (a : Src) (s : State) : Host.Outcome State Fault Refusal :=
  finish s (s.compute [a] d 4 fun r => tyPut t (reverseBits (lowBits (tyWidth t) (r.g a.r)) (tyWidth t)))

/-- EXT (R115). -/
def execExt (e : Bool) (d : Reg) (a b : Src) (s : State) : Host.Outcome State Fault Refusal :=
  finish s (s.compute [a, b] d 4 fun r => extractField e (r.g a.r) (r.g b.r))

/-- INS reads gD as a third source (R115). -/
def execIns (d : Reg) (a b : Src) (s : State) : Host.Outcome State Fault Refusal :=
  finish s (s.compute (alsoReads d [a, b]) d 4 fun r => insertField (r.g d) (r.g a.r) (r.g b.r))

/-- MIN (R116). -/
def execMin (t : Ty) (d : Reg) (a b : Src) (s : State) : Host.Outcome State Fault Refusal :=
  finish s (s.compute [a, b] d 4 fun r => tyPut t (min (tyVal t (r.g a.r)) (tyVal t (r.g b.r))))

/-- MAX (R116). -/
def execMax (t : Ty) (d : Reg) (a b : Src) (s : State) : Host.Outcome State Fault Refusal :=
  finish s (s.compute [a, b] d 4 fun r => tyPut t (max (tyVal t (r.g a.r)) (tyVal t (r.g b.r))))

/-- MINN (R116). -/
def execMinn (t : Ty) (d : Reg) (a b : Src) (s : State) : Host.Outcome State Fault Refusal :=
  finish s (s.compute [a, b] d 4 fun r => tyPut t (min (tyVal t (r.g a.r)) (tyVal t (r.g b.r))))

/-- MAXN (R116). -/
def execMaxn (t : Ty) (d : Reg) (a b : Src) (s : State) : Host.Outcome State Fault Refusal :=
  finish s (s.compute [a, b] d 4 fun r => tyPut t (max (tyVal t (r.g a.r)) (tyVal t (r.g b.r))))

/-- SETEQ (R116). -/
def execSeteq (t : Ty) (d : Reg) (a b : Src) (s : State) : Host.Outcome State Fault Refusal :=
  finish s (s.compute [a, b] d 4 fun r => setIf (lowBits (tyWidth t) (r.g a.r) == lowBits (tyWidth t) (r.g b.r)))

/-- SETNE (R116). -/
def execSetne (t : Ty) (d : Reg) (a b : Src) (s : State) : Host.Outcome State Fault Refusal :=
  finish s (s.compute [a, b] d 4 fun r => setIf (lowBits (tyWidth t) (r.g a.r) != lowBits (tyWidth t) (r.g b.r)))

/-- SETLT (R116). -/
def execSetlt (t : Ty) (d : Reg) (a b : Src) (s : State) : Host.Outcome State Fault Refusal :=
  finish s (s.compute [a, b] d 4 fun r => setIf (decide (tyVal t (r.g a.r) < tyVal t (r.g b.r))))

/-- SETGE (R116). -/
def execSetge (t : Ty) (d : Reg) (a b : Src) (s : State) : Host.Outcome State Fault Refusal :=
  finish s (s.compute [a, b] d 4 fun r => setIf (decide (tyVal t (r.g a.r) ≥ tyVal t (r.g b.r))))

/-- SETLTN (R116). -/
def execSetltn (t : Ty) (d : Reg) (a b : Src) (s : State) : Host.Outcome State Fault Refusal :=
  finish s (s.compute [a, b] d 4 fun r => setIf (decide (tyVal t (r.g a.r) < tyVal t (r.g b.r))))

/-- SETGEN (R116). -/
def execSetgen (t : Ty) (d : Reg) (a b : Src) (s : State) : Host.Outcome State Fault Refusal :=
  finish s (s.compute [a, b] d 4 fun r => setIf (decide (tyVal t (r.g a.r) ≥ tyVal t (r.g b.r))))

/-- SEL reads gD as its condition (R116). -/
def execSel (d : Reg) (a b : Src) (s : State) : Host.Outcome State Fault Refusal :=
  finish s (s.compute (alsoReads d [a, b]) d 4 fun r => if r.g d ≠ 0 then r.g a.r else r.g b.r)

/-- ADD with a constant-window operand (R117, R84). -/
def execAddConst (t : Ty) (d : Reg) (a : Src) (c : Fin 256) (s : State) : Host.Outcome State Fault Refusal :=
  finish s (s.compute [a] d 4 fun r => tyPut t (tyVal t (r.g a.r) + tyVal t (r.constant c)))

/-- RSUB with a constant-window operand (R117, R84). -/
def execRsubConst (t : Ty) (d : Reg) (a : Src) (c : Fin 256) (s : State) : Host.Outcome State Fault Refusal :=
  finish s (s.compute [a] d 4 fun r => tyPut t (tyVal t (r.constant c) - tyVal t (r.g a.r)))

/-- MUL with a constant-window operand (R117, R84). -/
def execMulConst (t : Ty) (d : Reg) (a : Src) (c : Fin 256) (s : State) : Host.Outcome State Fault Refusal :=
  finish s (s.compute [a] d 4 fun r => tyPut t (tyVal t (r.g a.r) * tyVal t (r.constant c)))

/-- AND with a constant-window operand (R117, R84). -/
def execAndConst (d : Reg) (a : Src) (c : Fin 256) (s : State) : Host.Outcome State Fault Refusal :=
  finish s (s.compute [a] d 4 fun r => (r.g a.r) &&& (r.constant c))

/-- OR with a constant-window operand (R117, R84). -/
def execOrConst (d : Reg) (a : Src) (c : Fin 256) (s : State) : Host.Outcome State Fault Refusal :=
  finish s (s.compute [a] d 4 fun r => (r.g a.r) ||| (r.constant c))

/-- XOR with a constant-window operand (R117, R84). -/
def execXorConst (d : Reg) (a : Src) (c : Fin 256) (s : State) : Host.Outcome State Fault Refusal :=
  finish s (s.compute [a] d 4 fun r => (r.g a.r) ^^^ (r.constant c))

/-- SHL with a constant-window operand (R117, R84). -/
def execShlConst (t : Ty) (d : Reg) (a : Src) (c : Fin 256) (s : State) : Host.Outcome State Fault Refusal :=
  finish s (s.compute [a] d 4 fun r => shiftLeft t (r.g a.r) (r.constant c))

/-- SHR with a constant-window operand (R117, R84). -/
def execShrConst (t : Ty) (d : Reg) (a : Src) (c : Fin 256) (s : State) : Host.Outcome State Fault Refusal :=
  finish s (s.compute [a] d 4 fun r => shiftRight t (r.g a.r) (r.constant c))

/-- LDI (R118). -/
def execLdi (d : Reg) (i : BitVec 21) (s : State) : Host.Outcome State Fault Refusal :=
  finish s (s.compute [] d 4 fun _ => i.signExtend 64)

/-- LDHI reads gD as a source (R119). -/
def execLdhi (d : Reg) (i : BitVec 21) (s : State) : Host.Outcome State Fault Refusal :=
  finish s (s.compute [plain d] d 4 fun r => appendImm (r.g d) i)

/-- LEA: the segment base plus the offset, with no check (R120). -/
def execLea (z : SSz) (d : Reg) (o : MOff) (s : State) : Host.Outcome State Fault Refusal :=
  finish s (s.compute (moffSrcs o) d 4 fun r => r.cur.sgb[o.sg] + moffOffset o r (sszBytes z))

/-- MOV of 16 bits (R90). -/
def execMov16 (d a : Reg) (s : State) : Host.Outcome State Fault Refusal :=
  finish s (s.compute [plain a] d 2 fun r => r.g a)

/-- ADD.i64 of 16 bits (R90). -/
def execAdd16 (d a : Reg) (s : State) : Host.Outcome State Fault Refusal :=
  finish s (s.compute [plain d, plain a] d 2 fun r => (r.g d) + (r.g a))

/-- SUB.i64 of 16 bits (R90). -/
def execSub16 (d a : Reg) (s : State) : Host.Outcome State Fault Refusal :=
  finish s (s.compute [plain d, plain a] d 2 fun r => (r.g d) - (r.g a))

/-- AND of 16 bits (R90). -/
def execAnd16 (d a : Reg) (s : State) : Host.Outcome State Fault Refusal :=
  finish s (s.compute [plain d, plain a] d 2 fun r => (r.g d) &&& (r.g a))

/-- OR of 16 bits (R90). -/
def execOr16 (d a : Reg) (s : State) : Host.Outcome State Fault Refusal :=
  finish s (s.compute [plain d, plain a] d 2 fun r => (r.g d) ||| (r.g a))

/-- XOR of 16 bits (R90). -/
def execXor16 (d a : Reg) (s : State) : Host.Outcome State Fault Refusal :=
  finish s (s.compute [plain d, plain a] d 2 fun r => (r.g d) ^^^ (r.g a))

/-- LDI of 16 bits (R90). -/
def execLdi16 (d : Reg) (i : BitVec 7) (s : State) : Host.Outcome State Fault Refusal :=
  finish s (s.compute [] d 2 fun _ => i.signExtend 64)

/-- MOV of 16 bits with a synchronised read (R90). -/
def execMovF16 (d a : Reg) (s : State) : Host.Outcome State Fault Refusal :=
  finish s (s.compute [⟨a, true⟩] d 2 fun r => r.g a)

end Sys2Proof.Machine
end

