-- ==== Sys2Proof/Machine/Packed.lean ====
section
/-! DEFINITION. Packed lanes (07 R144 to R149). -/

namespace Sys2Proof.Machine

/-- Lanes of a double at a type's width (R144). -/
def laneCount (t : Ty) : Nat := 64 / tyWidth t

/-- Val of a lane (R144). -/
def laneVal (t : Ty) (x : W) (i : Nat) : Int :=
  let n := lane (tyWidth t) x i
  if tySigned t then signedOf (tyWidth t) n else n

/-- An integer kept to a lane's width: PutLane (R144). -/
def lanePut (t : Ty) (v : Int) : Nat := (v % (2 : Int) ^ tyWidth t).toNat

/-- Sat to w bits, signed or natural (R144). -/
def satTo (w : Nat) (sx : Bool) (v : Int) : Int :=
  let lo : Int := if sx then -(2 : Int) ^ (w - 1) else 0
  let hi : Int := if sx then (2 : Int) ^ (w - 1) - 1 else (2 : Int) ^ w - 1
  max lo (min hi v)

/-- Sat at a lane type (R144). -/
def laneSat (t : Ty) (v : Int) : Int := satTo (tyWidth t) (tySigned t) v

/-- A double made lane by lane; in a masked form the lanes that k0 leaves out keep the old contents (R145). -/
def byLanes (t : Ty) (m : Bool) (k : BitVec 8) (old : W) (f : Nat → Int) : W :=
  ofLanes (tyWidth t) ((List.range (laneCount t)).map fun i =>
    if m && !k.getLsbD i then lane (tyWidth t) old i else lanePut t (f i))

/-- The sources of a packed instruction: a masked form also reads gD (R145). -/
def maskedSrcs (m : Bool) (d : Reg) (l : List Src) : List Src := if m then alsoReads d l else l

/-- A packed instruction that works in each lane (R145, R146). -/
def State.lanewise (s : State) (m : Bool) (t : Ty) (d : Reg) (l : List Src) (f : State → Nat → Int) : Act State :=
  s.compute (maskedSrcs m d l) d 4 fun r => byLanes t m r.cur.k[0] (r.g d) (f r)

/-- A packed shift count of the width or more shifts the lane out (R146). -/
def laneShl (t : Ty) (a : Int) (n : Nat) : Int := if n < tyWidth t then a * (2 : Int) ^ n else 0

/-- PSHR in a lane (R146). -/
def laneShr (t : Ty) (a : Int) (n : Nat) : Int := if n < tyWidth t then a / (2 : Int) ^ n else if a < 0 then -1 else 0

/-- A packed compare into a mask: the bits above the lanes become 0 (R147). -/
def State.packedCmp (s : State) (t : Ty) (k : Reg) (a b : Src) (f : Int → Int → Bool) : Act State := do
  let r ← s.readRegs [a, b] none
  let bits := (List.range (laneCount t)).foldl (fun n i => if f (laneVal t (r.g a.r) i) (laneVal t (r.g b.r) i) then n + 2 ^ i else n) 0
  r.maskOp k (.ofNat 8 bits)

/-- PSHUF: bytes of a chosen by the bytes of b (R147). -/
def shuffleBytes (a b : W) : W :=
  ofLanes 8 ((List.range 8).map fun j => let c := lane 8 b j; if natBit c 7 then 0 else lane 8 a (c % 8))

/-- PPACK: both registers narrowed with saturation (R147). -/
def packLanes (t : Ty) (a b : W) : W :=
  let n := tyWidth t / 2
  let narrow := fun (x : W) => (List.range (laneCount t)).map fun i =>
    (satTo n (tySigned t) (laneVal t x i) % (2 : Int) ^ n).toNat
  ofLanes n (narrow a ++ narrow b)

/-- PUNPK: half of the lanes widened (R147). -/
def unpackLanes (t : Ty) (hi : Bool) (a : W) : W :=
  let n := 2 * tyWidth t
  let h := if hi then laneCount t / 2 else 0
  ofLanes n ((List.range (laneCount t / 2)).map fun i => (laneVal t a (h + i) % (2 : Int) ^ n).toNat)

/-- The sum of a function over lanes; a masked form takes only the lanes of k0 (R148). -/
def sumLanes (m : Bool) (k : BitVec 8) (l : List Nat) (f : Nat → Int) : Int :=
  l.foldl (fun n i => if m && !k.getLsbD i then n else n + f i) 0

/-- PMAC: two 32-bit accumulators, each over half of the lanes (R148). -/
def macLanes (t : Ty) (m : Bool) (k : BitVec 8) (acc a b : W) : W :=
  let h := laneCount t / 2
  ofLanes 32 ((List.range 2).map fun j =>
    if m && !k.getLsbD j then lane 32 acc j
    else ((lane 32 acc j + sumLanes false k ((List.range h).map (· + h * j)) fun i => laneVal t a i * laneVal t b i) % (2 : Int) ^ 32).toNat)

/-! ### Meanings -/

/-- PADD (R146). -/
def execPadd (m : Bool) (t : Ty) (d : Reg) (a b : Src) (s : State) : Host.Outcome State Fault Refusal :=
  finish s (s.lanewise m t d [a, b] fun r i => laneVal t (r.g a.r) i + laneVal t (r.g b.r) i)

/-- PSUB (R146). -/
def execPsub (m : Bool) (t : Ty) (d : Reg) (a b : Src) (s : State) : Host.Outcome State Fault Refusal :=
  finish s (s.lanewise m t d [a, b] fun r i => laneVal t (r.g a.r) i - laneVal t (r.g b.r) i)

/-- PADDS (R146). -/
def execPadds (m : Bool) (t : Ty) (d : Reg) (a b : Src) (s : State) : Host.Outcome State Fault Refusal :=
  finish s (s.lanewise m t d [a, b] fun r i => laneSat t (laneVal t (r.g a.r) i + laneVal t (r.g b.r) i))

/-- PSUBS (R146). -/
def execPsubs (m : Bool) (t : Ty) (d : Reg) (a b : Src) (s : State) : Host.Outcome State Fault Refusal :=
  finish s (s.lanewise m t d [a, b] fun r i => laneSat t (laneVal t (r.g a.r) i - laneVal t (r.g b.r) i))

/-- PMUL (R146). -/
def execPmul (m : Bool) (t : Ty) (d : Reg) (a b : Src) (s : State) : Host.Outcome State Fault Refusal :=
  finish s (s.lanewise m t d [a, b] fun r i => laneVal t (r.g a.r) i * laneVal t (r.g b.r) i)

/-- PMULH (R146). -/
def execPmulh (m : Bool) (t : Ty) (d : Reg) (a b : Src) (s : State) : Host.Outcome State Fault Refusal :=
  finish s (s.lanewise m t d [a, b] fun r i => laneVal t (r.g a.r) i * laneVal t (r.g b.r) i / (2 : Int) ^ tyWidth t)

/-- PMIN (R146). -/
def execPmin (m : Bool) (t : Ty) (d : Reg) (a b : Src) (s : State) : Host.Outcome State Fault Refusal :=
  finish s (s.lanewise m t d [a, b] fun r i => min (laneVal t (r.g a.r) i) (laneVal t (r.g b.r) i))

/-- PMAX (R146). -/
def execPmax (m : Bool) (t : Ty) (d : Reg) (a b : Src) (s : State) : Host.Outcome State Fault Refusal :=
  finish s (s.lanewise m t d [a, b] fun r i => max (laneVal t (r.g a.r) i) (laneVal t (r.g b.r) i))

/-- PAVG (R146). -/
def execPavg (m : Bool) (t : Ty) (d : Reg) (a b : Src) (s : State) : Host.Outcome State Fault Refusal :=
  finish s (s.lanewise m t d [a, b] fun r i => (laneVal t (r.g a.r) i + laneVal t (r.g b.r) i + 1) / 2)

/-- PABS (R146). -/
def execPabs (m : Bool) (t : Ty) (d : Reg) (a : Src) (s : State) : Host.Outcome State Fault Refusal :=
  finish s (s.lanewise m t d [a] fun r i => laneSat t ((laneVal t (r.g a.r) i).natAbs : Int))

/-- PSHL (R146). -/
def execPshl (m : Bool) (t : Ty) (d : Reg) (a b : Src) (s : State) : Host.Outcome State Fault Refusal :=
  finish s (s.lanewise m t d [a, b] fun r i => laneShl t (laneVal t (r.g a.r) i) (lane (tyWidth t) (r.g b.r) i))

/-- PSHR (R146). -/
def execPshr (m : Bool) (t : Ty) (d : Reg) (a b : Src) (s : State) : Host.Outcome State Fault Refusal :=
  finish s (s.lanewise m t d [a, b] fun r i => laneShr t (laneVal t (r.g a.r) i) (lane (tyWidth t) (r.g b.r) i))

/-- PCMP.EQ (R147). -/
def execPcmpEq (t : Ty) (k : Reg) (a b : Src) (s : State) : Host.Outcome State Fault Refusal :=
  finish s (s.packedCmp t k a b fun x y => x == y)

/-- PCMP.NE (R147). -/
def execPcmpNe (t : Ty) (k : Reg) (a b : Src) (s : State) : Host.Outcome State Fault Refusal :=
  finish s (s.packedCmp t k a b fun x y => x != y)

/-- PCMP.LT (R147). -/
def execPcmpLt (t : Ty) (k : Reg) (a b : Src) (s : State) : Host.Outcome State Fault Refusal :=
  finish s (s.packedCmp t k a b fun x y => decide (x < y))

/-- PCMP.GE (R147). -/
def execPcmpGe (t : Ty) (k : Reg) (a b : Src) (s : State) : Host.Outcome State Fault Refusal :=
  finish s (s.packedCmp t k a b fun x y => decide (x ≥ y))

/-- PSEL by k0 (R147). -/
def execPsel (t : Ty) (d : Reg) (a b : Src) (s : State) : Host.Outcome State Fault Refusal :=
  finish s (s.compute [a, b] d 4 fun r =>
    ofLanes (tyWidth t) ((List.range (laneCount t)).map fun i => lane (tyWidth t) (if (r.cur.k[(0 : Fin 4)]).getLsbD i then r.g a.r else r.g b.r) i))

/-- PSHUF (R147). -/
def execPshuf (d : Reg) (a b : Src) (s : State) : Host.Outcome State Fault Refusal :=
  finish s (s.compute [a, b] d 4 fun r => shuffleBytes (r.g a.r) (r.g b.r))

/-- PPACK (R147). -/
def execPpack (t : Ty) (d : Reg) (a b : Src) (s : State) : Host.Outcome State Fault Refusal :=
  finish s (s.compute [a, b] d 4 fun r => packLanes t (r.g a.r) (r.g b.r))

/-- PUNPK.LO (R147). -/
def execPunpkLo (t : Ty) (d : Reg) (a : Src) (s : State) : Host.Outcome State Fault Refusal :=
  finish s (s.compute [a] d 4 fun r => unpackLanes t false (r.g a.r))

/-- PUNPK.HI (R147). -/
def execPunpkHi (t : Ty) (d : Reg) (a : Src) (s : State) : Host.Outcome State Fault Refusal :=
  finish s (s.compute [a] d 4 fun r => unpackLanes t true (r.g a.r))

/-- PMAC reads gD as its accumulator (R148). -/
def execPmac (m : Bool) (t : Ty) (d : Reg) (a b : Src) (s : State) : Host.Outcome State Fault Refusal :=
  finish s (s.compute (alsoReads d [a, b]) d 4 fun r => macLanes t m r.cur.k[0] (r.g d) (r.g a.r) (r.g b.r))

/-- PHADD (R148). -/
def execPhadd (m : Bool) (t : Ty) (d : Reg) (a b : Src) (s : State) : Host.Outcome State Fault Refusal :=
  finish s (s.compute (maskedSrcs m d [a, b]) d 4 fun r =>
    r.g b.r + .ofInt 64 (sumLanes m r.cur.k[0] (List.range (laneCount t)) fun i => laneVal t (r.g a.r) i))

/-- PSAD (R148). -/
def execPsad (m : Bool) (t : Ty) (d : Reg) (a b : Src) (s : State) : Host.Outcome State Fault Refusal :=
  finish s (s.compute (maskedSrcs m d [a, b]) d 4 fun r =>
    .ofInt 64 (sumLanes m r.cur.k[0] (List.range (laneCount t)) fun i => ((laneVal t (r.g a.r) i - laneVal t (r.g b.r) i).natAbs : Int)))

end Sys2Proof.Machine
end

