-- ==== Sys2Proof/Machine/Float.lean ====
section
/-! DEFINITION. Scalar and packed floating point, conversions, self-describing blocks, DS8 expansion (08 R167 to R187). -/

namespace Sys2Proof.Machine

/-- A computation of one result with flags: operands read, the result written, the flags raised, the pc moved on (R170, R173). -/
def State.computeF (s : State) (srcs : List Src) (d : Reg) (named7 : Bool) (f : State → W × FFlags) : Act State := do
  let t ← s.readRegs srcs (some d) named7
  let r := f t
  let t ← t.writeReg d r.1
  return (t.modCur fun c => c.flag r.2).advance 4

/-- A pattern as a register result: zeros above (R173). -/
def asReg (r : FRes) : W × FFlags := (.ofNat 64 r.1, r.2)

/-- The pattern of a scalar source (R173). -/
def State.fsrc (s : State) (t : Ty) (r : Reg) : Nat := lowBits (tyWidth t) (s.g r)

/-- The environment of a type under the executing context's FPC. -/
def State.fenv (s : State) (t : Ty) : FEnv := Sys2Proof.Machine.fenv t s.cur.fpc

/-- A two-operand floating instruction. -/
def State.float2 (s : State) (t : Ty) (d : Reg) (a b : Src) (f : FEnv → Nat → Nat → FRes) : Act State :=
  s.computeF [a, b] d false fun r => asReg (f (r.fenv t) (r.fsrc t a.r) (r.fsrc t b.r))

/-- A floating compare. -/
def State.floatCmp (s : State) (t : Ty) (d : Reg) (a b : Src) (rel : FRel) : Act State :=
  s.computeF [a, b] d false fun r =>
    let (v, fl) := (r.fenv t).cmp rel (r.fsrc t a.r) (r.fsrc t b.r)
    (setIf v, fl)

/-- A packed floating instruction: each lane rounded and flagged on its own; a masked-off lane keeps its contents and sets no flag
(R178). -/
def packedFloat (t : Ty) (m : Bool) (k : BitVec 8) (old : W) (f : Nat → FRes) : W × FFlags :=
  let w := tyWidth t
  let l := (List.range (64 / w)).map fun i => if m && !k.getLsbD i then (lane w old i, {}) else f i
  (ofLanes w (l.map (·.1)), l.foldl (fun a r => a.or r.2) {})

/-- A packed floating instruction of two sources (R178). -/
def State.pfloat2 (s : State) (m : Bool) (t : Ty) (d : Reg) (a b : Src) (f : FEnv → Nat → Nat → FRes) : Act State :=
  s.computeF (maskedSrcs m d [a, b]) d m fun r =>
    packedFloat t m r.cur.k[0] (r.g d) fun i => f (r.fenv t) (lane (tyWidth t) (r.g a.r) i) (lane (tyWidth t) (r.g b.r) i)

/-- The lane conversion of PFCVT (R176, R179). -/
def cvtLane (t s : Ty) (fpc : W) (sat : Bool) (x : Nat) : FRes :=
  cvtFloat (fmtOf t) (fpcRm fpc) (fpcFz fpc) sat (cvtSrc s (fpcFz fpc) (.ofNat 64 x))

/-- PFCVT: narrowing takes gA then gB, widening takes the low or high lanes, the same width takes gA (R179). -/
def packedConvert (o : Bool) (t s : Ty) (fpc a b : W) : W × FFlags :=
  let ws := tyWidth s
  let wd := tyWidth t
  let ls := 64 / ws
  let ld := 64 / wd
  let l :=
    if wd < ws then ((List.range ls).map fun i => cvtLane t s fpc o (lane ws a i)) ++ (List.range ls).map fun i => cvtLane t s fpc o (lane ws b i)
    else if wd > ws then (List.range ld).map fun i => cvtLane t s fpc false (lane ws a ((if o then ld else 0) + i))
    else (List.range ld).map fun i => cvtLane t s fpc o (lane ws a i)
  (ofLanes wd (l.map (·.1)), l.foldl (fun x r => x.or r.2) {})

/-! ### Self-describing blocks (R167, R168, R182) -/

/-- The scale 2^(s − 127) applied to a datum. -/
def scaleBy (sc : Int) : FV → FV
  | .fin d => .fin { d with e := d.e + sc - 127 }
  | v => v

/-- Element i of a block as a datum; a reserved type reads as NaN (R167, R168). -/
def blockElem (b : List Byte) (i : Nat) : FV :=
  let at_ : Nat → Nat := fun k => ((b[k]?).getD 0).toNat
  let sc : Int := ((at_ 1 : Nat) : Int)
  match at_ 0 with
  | 0x00 => .fin ⟨false, 0, 0⟩
  | 0x03 => scaleBy sc (.fin (dyOf (signedOf 8 (at_ (2 + i))) 0 false))
  | 0x04 => scaleBy sc (.fin (dyOf (signedOf 4 (if i % 2 = 0 then at_ (2 + i / 2) % 16 else at_ (2 + i / 2) / 16)) 0 false))
  | 0x13 => scaleBy sc ((fmtOf .e4m3).decode false (at_ (2 + i)))
  | 0x14 => scaleBy sc ((fmtOf .e5m2).decode false (at_ (2 + i)))
  | 0x15 => scaleBy sc (.fin (ds8Dy (at_ (2 + i))))
  | _ => .nan false

/-- A reserved block type (R168). -/
def blockReserved (b : List Byte) : Bool := !([0x00, 0x03, 0x04, 0x13, 0x14, 0x15].contains ((b[0]?).getD 0).toNat)

/-- The largest element magnitude M of a type (R167). -/
def blockMax : Ty → Nat
  | .i8 => 127 | .i4 => 7 | .e4m3 => 448 | .e5m2 => 57344 | _ => 16

/-- The magnitude of a number. -/
def Dy.abs (d : Dy) : Dy := { d with neg := false }

/-- a ≤ b. -/
def Dy.le (a b : Dy) : Bool := !b.lt a

/-- The largest finite magnitude (R182). -/
def largest (l : List FV) : Dy :=
  l.foldl (fun m v => match v with | .fin d => if m.lt d.abs then d.abs else m | _ => m) ⟨false, 0, 0⟩

/-- The least scale byte s with m ≤ M × 2^(s − 127), from 0 to 255 (R182). -/
def scaleFor (t : Ty) (m : Dy) : Nat :=
  if m.m = 0 then 127 else ((List.range 256).find? fun (s : Nat) => m.le ⟨false, blockMax t, (s : Int) - 127⟩).getD 255

/-- An element of a block with its flags (R182). [log 105, DESIGN CHOICE] [log 106, DEDUCED] [log 107, DEDUCED] -/
def quantElem (t : Ty) (s : Nat) (v : FV) : FRes :=
  let sat := fun (neg : Bool) => match t with
    | .i8 => if neg then 256 - 127 else 127
    | .i4 => if neg then 16 - 7 else 7
    | .e4m3 | .e5m2 => (fmtOf t).signBits neg + (fmtOf t).maxFin
    | _ => ds8Of ⟨neg, 16, 0⟩
  match v with
  | .nan _ => match t with | .e4m3 | .e5m2 => ((fmtOf t).canon, {}) | _ => (0, { nv := true })
  | .inf n => match t with | .e5m2 => ((fmtOf t).signBits n + (fmtOf t).infBits, {}) | _ => (sat n, { nv := true })
  | .fin d =>
    let q : Dy := { d with e := d.e - s + 127 }
    match t with
    | .e4m3 | .e5m2 =>
      let (b, fl) := (fmtOf t).round 0 false q
      if fl.ov then (sat d.neg, fl) else (b, fl)
    | .i8 | .i4 =>
      let (n, nx) := roundAt 0 q 0
      if n > blockMax t then (sat d.neg, { ov := true, nx := true })
      else ((if q.neg ∧ n ≠ 0 then 2 ^ tyWidth t - n else n), { nx := nx })
    | _ =>
      let b := ds8Of q
      (b, { ov := (⟨false, 16, 0⟩ : Dy).lt q.abs, nx := !(ds8Dy b).eqv q })

/-- Requant: the 64 bytes of the block and the flags; a given scale is used as it stands (R182). -/
def requant (t : Ty) (fixed : Option Nat) (l : List FV) : List Byte × FFlags :=
  let s := match fixed with | some s => s | none => scaleFor t (largest l)
  let es := l.map (quantElem t s)
  let payload : List Nat := match t with
    | .i4 => ((List.range 31).map fun i => ((es[2 * i]?).map (·.1)).getD 0 + 16 * ((es[2 * i + 1]?).map (·.1)).getD 0) ++ List.replicate 31 0
    | _ => es.map (·.1)
  let code := match t with | .i8 => 0x03 | .i4 => 0x04 | .e4m3 => 0x13 | .e5m2 => 0x14 | _ => 0x15
  ((code :: s :: payload).map (.ofNat 8), es.foldl (fun a r => a.or r.2) {})

/-- A block operand checked: range, alignment, stash tile, tile not READY (R181). -/
def State.blockOperand (s : State) (a : W) (n align lo : Nat) : Act Nat := do
  faultIf (a.toNat < lo ∨ a.toNat + n > 0x6000) .eseg 0 a.toNat
  faultIf (a.toNat % align ≠ 0) .ealign 0 a.toNat
  s.tileGates a.toNat n
  return a.toNat

/-- A block operation in flight: its sources are read, its block and flags are written when it completes; the park has no reason of
its own, so CTXSTAT.PARK stays (R186, log 20). [log 104, DESIGN CHOICE] -/
def State.blockHold (s : State) (d : Nat) (r : List Byte × FFlags) : Act State :=
  .error (.held (s.hold s.cur.park (.block d r.1 r.2.bits) 4))

/-! ### Meanings -/

/-- FADD (R173). -/
def execFadd (t : Ty) (d : Reg) (a b : Src) (s : State) : Host.Outcome State Fault Refusal :=
  finish s (s.float2 t d a b FEnv.add)

/-- FSUB (R173). -/
def execFsub (t : Ty) (d : Reg) (a b : Src) (s : State) : Host.Outcome State Fault Refusal :=
  finish s (s.float2 t d a b FEnv.sub)

/-- FMUL (R173). -/
def execFmul (t : Ty) (d : Reg) (a b : Src) (s : State) : Host.Outcome State Fault Refusal :=
  finish s (s.float2 t d a b FEnv.mul)

/-- FFMA reads gD as its addend (R173, R174). -/
def execFfma (t : Ty) (d : Reg) (a b : Src) (s : State) : Host.Outcome State Fault Refusal :=
  finish s (s.computeF (alsoReads d [a, b]) d true fun r => asReg ((r.fenv t).fma (r.fsrc t a.r) (r.fsrc t b.r) (r.fsrc t d)))

/-- FMIN (R173). -/
def execFmin (t : Ty) (d : Reg) (a b : Src) (s : State) : Host.Outcome State Fault Refusal :=
  finish s (s.float2 t d a b fun v => v.pickOf false)

/-- FMAX (R173). -/
def execFmax (t : Ty) (d : Reg) (a b : Src) (s : State) : Host.Outcome State Fault Refusal :=
  finish s (s.float2 t d a b fun v => v.pickOf true)

/-- FABS clears the sign bit (R173). -/
def execFabs (t : Ty) (d : Reg) (a : Src) (s : State) : Host.Outcome State Fault Refusal :=
  finish s (s.compute [a] d 4 fun r => .ofNat 64 (r.fsrc t a.r % 2 ^ (tyWidth t - 1)))

/-- FNEG inverts the sign bit (R173). -/
def execFneg (t : Ty) (d : Reg) (a : Src) (s : State) : Host.Outcome State Fault Refusal :=
  finish s (s.compute [a] d 4 fun r => .ofNat 64 (r.fsrc t a.r ^^^ 2 ^ (tyWidth t - 1)))

/-- FCMP.EQ (R173). -/
def execFcmpEq (t : Ty) (d : Reg) (a b : Src) (s : State) : Host.Outcome State Fault Refusal :=
  finish s (s.floatCmp t d a b .eq)

/-- FCMP.LT (R173). -/
def execFcmpLt (t : Ty) (d : Reg) (a b : Src) (s : State) : Host.Outcome State Fault Refusal :=
  finish s (s.floatCmp t d a b .lt)

/-- FCMP.LE (R173). -/
def execFcmpLe (t : Ty) (d : Reg) (a b : Src) (s : State) : Host.Outcome State Fault Refusal :=
  finish s (s.floatCmp t d a b .le)

/-- FCMP.UN (R173). -/
def execFcmpUn (t : Ty) (d : Reg) (a b : Src) (s : State) : Host.Outcome State Fault Refusal :=
  finish s (s.floatCmp t d a b .un)

/-- FRND (R173). -/
def execFrnd (t : Ty) (d : Reg) (a : Src) (s : State) : Host.Outcome State Fault Refusal :=
  finish s (s.computeF [a] d false fun r => asReg ((r.fenv t).rnd (r.fsrc t a.r)))

/-- FCLASS (R173). -/
def execFclass (t : Ty) (d : Reg) (a : Src) (s : State) : Host.Outcome State Fault Refusal :=
  finish s (s.compute [a] d 4 fun r => .ofNat 64 (classBits (fmtOf t) (r.fsrc t a.r)))

/-- FCVT (R176). -/
def execFcvt (o : Bool) (t z : Ty) (d : Reg) (a : Src) (s : State) : Host.Outcome State Fault Refusal :=
  finish s (s.computeF [a] d false fun r => convert o t z r.cur.fpc (r.g a.r))

/-- PFADD (R178). -/
def execPfadd (m : Bool) (t : Ty) (d : Reg) (a b : Src) (s : State) : Host.Outcome State Fault Refusal :=
  finish s (s.pfloat2 m t d a b FEnv.add)

/-- PFMUL (R178). -/
def execPfmul (m : Bool) (t : Ty) (d : Reg) (a b : Src) (s : State) : Host.Outcome State Fault Refusal :=
  finish s (s.pfloat2 m t d a b FEnv.mul)

/-- PFMAX (R178). -/
def execPfmax (m : Bool) (t : Ty) (d : Reg) (a b : Src) (s : State) : Host.Outcome State Fault Refusal :=
  finish s (s.pfloat2 m t d a b fun v => v.pickOf true)

/-- PFFMA reads gD (R178). -/
def execPffma (m : Bool) (t : Ty) (d : Reg) (a b : Src) (s : State) : Host.Outcome State Fault Refusal :=
  finish s (s.computeF (alsoReads d [a, b]) d true fun r =>
    packedFloat t m r.cur.k[0] (r.g d) fun i =>
      (r.fenv t).fma (lane (tyWidth t) (r.g a.r) i) (lane (tyWidth t) (r.g b.r) i) (lane (tyWidth t) (r.g d) i))

/-- PFCVT; gB is read in the narrowing pairs only (R179). -/
def execPfcvt (o : Bool) (t z : Ty) (d : Reg) (a b : Src) (s : State) : Host.Outcome State Fault Refusal :=
  finish s (s.computeF (if pfcvtUsesB t z then [a, b] else [a]) d false fun r =>
    packedConvert o t z r.cur.fpc (r.g a.r) (r.g b.r))

/-- BADDQ reads gD as the address of its block (R181 to R183). [log 20, DEDUCED] -/
def execBaddq (t : Ty) (d : Reg) (a b : Src) (s : State) : Host.Outcome State Fault Refusal :=
  finish s do
    let r ← s.readRegs (alsoReads d [a, b]) none
    let x ← r.blockOperand (r.g a.r) 64 64 0
    let y ← r.blockOperand (r.g b.r) 64 64 0
    let z ← r.blockOperand (r.g d) 64 64 0x0800
    let p := Memory.bytes r.here.pad x 64
    let q := Memory.bytes r.here.pad y 64
    let sums := (List.range 62).map fun i => (blockElem p i).add 0 (blockElem q i)
    let (bs, fl) := requant t none (sums.map (·.1))
    let fl := sums.foldl (fun f v => f.or v.2) fl
    r.blockHold z (bs, { fl with nv := fl.nv || blockReserved p || blockReserved q })

/-- BQUANT reads 62 F32 values, and gD as the address of its block (R181 to R183). [log 20, DEDUCED] -/
def execBquant (t : Ty) (d : Reg) (a b : Src) (s : State) : Host.Outcome State Fault Refusal :=
  finish s do
    let r ← s.readRegs (alsoReads d [a, b]) none
    let x ← r.blockOperand (r.g a.r) 248 8 0
    let z ← r.blockOperand (r.g d) 64 64 0x0800
    let vs := (List.range 62).map fun i => (fmtOf .f32).decode false (Memory.load r.here.pad (x + 4 * i) 4)
    let fixed := if (r.g b.r).getLsbD 8 then some (bitsOf (r.g b.r) 0 8) else none
    let (bs, fl) := requant t fixed vs
    r.blockHold z (bs, vs.foldl (fun f v => f.or v.sigFlag) fl)

/-- BDESC; a reserved byte 0 sets FPC.NV (R168, R184). -/
def execBdesc (d : Reg) (a : Src) (s : State) : Host.Outcome State Fault Refusal :=
  finish s do
    let r ← s.readRegs [a] (some d)
    let x ← r.blockOperand (r.g a.r) 64 64 0
    let ty := Memory.load r.here.pad x 1
    let width := match ty with | 0x03 | 0x13 | 0x14 | 0x15 => 8 | 0x04 => 4 | _ => 0
    let count := if blockReserved [.ofNat 8 ty] then 0 else 62
    let t ← r.writeReg d (.ofNat 64 (width * 2 ^ 24 + count * 65536 + Memory.load r.here.pad (x + 1) 1 * 256 + ty))
    let flags : FFlags := { nv := blockReserved [.ofNat 8 ty] }
    return (t.modCur fun c => { c with fpc := c.fpc ||| flags.bits }).advance 4

/-- DSEXP: 8 times each weight, as I16 lanes (R185). -/
def execDsexp (h : Bool) (d : Reg) (a : Src) (s : State) : Host.Outcome State Fault Refusal :=
  finish s (s.compute [a] d 4 fun r =>
    ofLanes 16 ((List.range 4).map fun j => (ds8Eighths (lane 8 (r.g a.r) ((if h then 4 else 0) + j)) % (65536 : Int)).toNat))

/-- BLOCK_OPERATION_COMPLETE: the block of context x of core g is written and the flags are set (R186). [log 104, DESIGN CHOICE] -/
def execBlockOperationComplete (s : State) : Host.Outcome State Fault Refusal :=
  let x := ctxNo s.ev.x
  match (s.ctxAt s.ev.g x).st, (s.ctxAt s.ev.g x).req with
  | .parked _, some (.block d bs fl) =>
    event s (some ((s.modCore s.ev.g fun c => { c with pad := Memory.putAll c.pad d bs }).modCtx s.ev.g x fun c =>
      ({ c with fpc := c.fpc ||| fl } : Ctx).retire))
  | _, _ => event s none

end Sys2Proof.Machine
end

