-- ==== Sys2Proof/Machine/Gydon.lean ====
section
/-! DEFINITION. The Gydon bootstrap set: windows, instructions, the emission checker, the check of DONE, the ends of a translation
(02 R24 to R53), and the steps of an illegal encoding and of a fetch fault (03 R60, R66). -/

namespace Sys2Proof.Machine

/-! ### Records of the chip table -/

/-- The bits of a record's present fields (R33). -/
def Rec.fieldMask (r : Rec) : Nat :=
  [(0, 4), (8, 4), (16, 4), (24, 8)].foldl (fun m (e : Nat × Nat) =>
    let b := natBits r.fdesc e.1 8
    if natBit b 7 then m ||| ((2 ^ e.2 - 1) * 2 ^ (b % 32)) else m) 0

/-- HALF, BR, FLO and FW (R34). -/
def Rec.half (r : Rec) : Bool := natBit r.attr 17
def Rec.br (r : Rec) : Bool := natBit r.attr 18
def Rec.flo (r : Rec) : Nat := natBits r.attr 11 5
def Rec.fw (r : Rec) : Nat := natBits r.attr 6 5

/-- The fixed mask (R35). -/
def Rec.fixedMask (r : Rec) : Nat :=
  (if r.half then 2 ^ 16 - 1 else 2 ^ 32 - 1) &&& ((2 ^ 32 - 1) ^^^ (r.fieldMask ||| ((2 ^ r.fw - 1) * 2 ^ r.flo)))

/-- A word matches a record (R35). -/
def Rec.fits (r : Rec) (w : Nat) : Bool := w &&& r.fixedMask == r.tmpl &&& r.fixedMask

/-- The record that a variant of a word or halfword would have in this package's first firmware (R35, R68). -/
def firstRec (half : Bool) (w : Nat) : Option Rec :=
  if half then halfRec (natBits w 1 4)
  else match fmtOfMajor (natBits w 1 6) with
    | some f => wordRec (variantOf f w) (natBits w 1 6) (functionOf f w)
    | none => none

/-- The record that a word matches (R35, R47). -/
def State.recOfWord (s : State) (half : Bool) (w : Nat) : Option Rec :=
  if s.bootImage = 0 then (firstRec half w).filter fun r => r.fits w else s.recs.find? fun r => r.half == half && r.fits w

/-- The record with a key that this package's first firmware would have (R68, R90). -/
def firstRecOf (key : Nat) : Option Rec :=
  if 0x18000 ≤ key ∧ key < 0x18010 then halfRec (key - 0x18000) else wordRec (key / 2 ^ 17) (natBits key 5 6) (key % 32)

/-- The chip table has a record with a key (R45, R68, R90). -/
def State.hasKey (s : State) (key : Nat) : Bool :=
  if s.bootImage = 0 then (match firstRecOf key with | some r => r.key == key | none => false) else s.recs.any fun r => r.key == key

/-! ### Operands, ends, the common step -/

/-- The fields of a Gydon halfword (R37). -/
def gD (w : Nat) : Fin 8 := Fin.ofNat 8 (w / 256)
def gA (w : Nat) : Fin 8 := Fin.ofNat 8 (w / 32)
def gB (w : Nat) : Fin 8 := Fin.ofNat 8 (w / 4)
def gX (w : Nat) : Nat := w % 4
def gImm (w : Nat) : Nat := w % 256
def gOff (w : Nat) : Nat := w % 32

/-- How a translation ends without success (R53): a fault with its subcode, or FAIL with its reason. -/
inductive GEnd where
  | fault (c : FaultCode) (sub : Nat)
  | fail (reason : Nat)
deriving DecidableEq, Repr

/-- What a Gydon instruction does to the registers and the translation. -/
abbrev GAct := Except GEnd (Gydon × Xlat)

/-- A register as a number. -/
def Gydon.at (k : Gydon) (r : Fin 8) : Nat := (k.b[r]).toNat

/-- A register written; the pc moves on (R40). -/
def Gydon.put (k : Gydon) (r : Fin 8) (v : BitVec 32) : Gydon := { k with b := k.b.set r v, pc := k.pc + 1 }

/-- The pc moves on (R40). -/
def Gydon.next (k : Gydon) : Gydon := { k with pc := k.pc + 1 }

/-- A branch (R44); a target below the image is far beyond its end, too. -/
def Gydon.jump (k : Gydon) (off : Int) : Gydon := { k with pc := (((k.pc : Int) + off) % 2 ^ 32).toNat }

/-- The translation in context x of core g ends with nothing cached (R53): code, subcode or reason, counts. A FAIL is paid for. -/
def State.endXlat (s : State) (g : Nat) (t : Xlat) (k : Gydon) (e : GEnd) : State :=
  match e with
  | .fault c sub => s.refuseXlat (s.partNo g) t c.code sub 0 (t.budget - k.meter) k.pc k.outLen
  | .fail reason => s.refuseXlat (s.partNo g) t 0xF0 0 reason (t.budget - k.meter + 1) k.pc k.outLen

/-- The instruction of a context of core g completes: registers, translation, charge (R40). -/
def State.putXlat (s : State) (g : Nat) (x : Fin 16) (cost : Nat) (k : Gydon) (t : Xlat) : State :=
  (s.modPart (s.partNo g) fun p => { p with xlat := some t }).modCtx g x fun c =>
    { c with gyd := { k with meter := k.meter - cost } }

/-- The common step of R40 after Decode: the meter, then what the instruction does. -/
def State.gydonStep (s : State) (cost : Nat) (f : Xlat → State) : Host.Outcome State Fault Refusal :=
  match s.curPart.xlat with
  | none => .next s
  | some t => if s.cur.gyd.meter < cost then .next (s.endXlat s.core t s.cur.gyd (.fault .emeter 0)) else .next (f t)

/-- An instruction that never parks (R41, R42, R44, R48). -/
def State.gydonPure (s : State) (f : Nat → Gydon → Xlat → GAct) : Host.Outcome State Fault Refusal :=
  s.gydonStep 1 fun t =>
    match f s.cur.iword.toNat s.cur.gyd t with
    | .ok (k, t) => (s.putXlat s.core s.ctx 1 k t).modCur Ctx.done
    | .error e => s.endXlat s.core t s.cur.gyd e

/-- An instruction that parks for an access (R43, R45 to R47): the checks that need no access are made at once. -/
def State.gydonPark (s : State) (cost : Nat) (check : Nat → Gydon → Xlat → Except GEnd (Option Nat)) : Host.Outcome State Fault Refusal :=
  s.gydonStep cost fun t =>
    match check s.cur.iword.toNat s.cur.gyd t with
    | .ok va => s.hold .mem (.gydon va) 0
    | .error e => s.endXlat s.core t s.cur.gyd e

/-! ### Immediates, arithmetic, branches (R41, R42, R44) -/

/-- A register instruction of two operands (R42). -/
def gydonOp (f : BitVec 32 → BitVec 32 → BitVec 32) (w : Nat) (k : Gydon) (t : Xlat) : GAct :=
  .ok (k.put (gD w) (f k.b[gA w] k.b[gB w]), t)

/-- A branch on two registers (R44). -/
def gydonBranch (f : BitVec 32 → BitVec 32 → Bool) (w : Nat) (k : Gydon) (t : Xlat) : GAct :=
  .ok (if f k.b[gD w] k.b[gA w] then k.jump (signedOf 5 (gOff w)) else k.next, t)

/-- LI (R41). -/
def execGydonLi (s : State) : Host.Outcome State Fault Refusal :=
  s.gydonPure fun w k t => .ok (k.put (gD w) ((BitVec.ofNat 8 (gImm w)).signExtend 32), t)

/-- LHI (R41). -/
def execGydonLhi (s : State) : Host.Outcome State Fault Refusal :=
  s.gydonPure fun w k t => .ok (k.put (gD w) (.ofNat 32 (gImm w * 2 ^ 24 + k.at (gD w) % 2 ^ 24)), t)

/-- MV (R41). -/
def execGydonMv (s : State) : Host.Outcome State Fault Refusal :=
  s.gydonPure fun w k t => .ok (k.put (gD w) k.b[gA w], t)

/-- ADD (R42). -/
def execGydonAdd (s : State) : Host.Outcome State Fault Refusal := s.gydonPure (gydonOp (· + ·))

/-- SUB (R42). -/
def execGydonSub (s : State) : Host.Outcome State Fault Refusal := s.gydonPure (gydonOp (· - ·))

/-- AND (R42). -/
def execGydonAnd (s : State) : Host.Outcome State Fault Refusal := s.gydonPure (gydonOp (· &&& ·))

/-- OR (R42). -/
def execGydonOr (s : State) : Host.Outcome State Fault Refusal := s.gydonPure (gydonOp (· ||| ·))

/-- XOR (R42). -/
def execGydonXor (s : State) : Host.Outcome State Fault Refusal := s.gydonPure (gydonOp (· ^^^ ·))

/-- SHL (R42). -/
def execGydonShl (s : State) : Host.Outcome State Fault Refusal := s.gydonPure (gydonOp fun a b => a <<< (b.toNat % 32))

/-- SHR (R42). -/
def execGydonShr (s : State) : Host.Outcome State Fault Refusal := s.gydonPure (gydonOp fun a b => a >>> (b.toNat % 32))

/-- BEQ (R44). -/
def execGydonBeq (s : State) : Host.Outcome State Fault Refusal := s.gydonPure (gydonBranch (· == ·))

/-- BNE (R44). -/
def execGydonBne (s : State) : Host.Outcome State Fault Refusal := s.gydonPure (gydonBranch (· != ·))

/-- BLT (R44). -/
def execGydonBlt (s : State) : Host.Outcome State Fault Refusal := s.gydonPure (gydonBranch fun a b => a.slt b)

/-- JMP (R44). -/
def execGydonJmp (s : State) : Host.Outcome State Fault Refusal :=
  s.gydonPure fun w k t => .ok (k.jump (signedOf 11 (w % 2048)), t)

/-! ### Windows (R28, R29, R43) -/

/-- A byte of TAB: record i lies at 16 i (R31). -/
def State.tabByte (s : State) (off : Nat) : Byte := ((((s.recs[off / 16]?).map Rec.bytes).getD [])[off % 16]?).getD 0

/-- The readable length of a window, with the number of records; none for a code that selects no window (R28, R29). -/
def Xlat.winLen (t : Xlat) (k : Gydon) (recs w : Nat) : Option Nat :=
  match w with
  | 1 => some t.plen
  | 2 => some (16 * recs)
  | 3 => some (2 * k.outLen)
  | 4 => some 8192
  | 5 => some t.argl
  | _ => none

/-- The virtual address of a window's byte in the translation area; none for TAB (R51, R57). -/
def Xlat.winVa (t : Xlat) (w off : Nat) : Option Nat :=
  match w with
  | 1 => some (t.vIn + off)
  | 3 => some (t.vOut + off)
  | 4 => some (t.vScr + off)
  | 5 => some (t.vArg + off)
  | _ => none

/-- Check (R29). -/
def Xlat.check (t : Xlat) (k : Gydon) (recs a n : Nat) (store : Bool) : Except GEnd Unit :=
  match t.winLen k recs (a / 2 ^ 28) with
  | none => .error (.fault .eseg 0)
  | some len =>
    if len < a % 2 ^ 28 + n then .error (.fault .eseg 0)
    else if store ∧ a / 2 ^ 28 ≠ 4 then .error (.fault .eseg 0)
    else if a % n ≠ 0 then .error (.fault .ealign 0)
    else .ok ()

/-- The address of a load or of STW (R43). -/
def Gydon.addr (k : Gydon) (w n : Nat) : Nat := (k.at (gA w) + gOff w * n) % 2 ^ 32

/-- The check of an access at issue: its place in the translation area (R29, R43). -/
def State.gydonAccess (s : State) (n : Nat) (store : Bool) (w : Nat) (k : Gydon) (t : Xlat) : Except GEnd (Option Nat) := do
  t.check k s.recs.length (k.addr w n) n store
  return t.winVa (k.addr w n / 2 ^ 28) (k.addr w n % 2 ^ 28)

/-- What a load does with its n bytes as a number (R43). -/
def gydonLoad (w : Nat) (k : Gydon) (v : Nat) : Gydon := k.put (gD w) (.ofNat 32 v)

/-- LDB (R43). -/
def execGydonLdb (s : State) : Host.Outcome State Fault Refusal := s.gydonPark 1 (s.gydonAccess 1 false)

/-- LDH (R43). -/
def execGydonLdh (s : State) : Host.Outcome State Fault Refusal := s.gydonPark 1 (s.gydonAccess 2 false)

/-- LDW (R43). -/
def execGydonLdw (s : State) : Host.Outcome State Fault Refusal := s.gydonPark 1 (s.gydonAccess 4 false)

/-- STW (R43). -/
def execGydonStw (s : State) : Host.Outcome State Fault Refusal := s.gydonPark 1 (s.gydonAccess 4 true)

/-! ### TBL, FIELD, EMIT, ORIG (R45 to R48) -/

/-- The effect of TBL (R45). -/
def State.gydonTbl (s : State) (w : Nat) (k : Gydon) (t : Xlat) : GAct :=
  let i := if s.hasKey (k.at (gA w)) then (s.recIndex (k.at (gA w))).getD 0xFFFFFFFF else 0xFFFFFFFF
  .ok (k.put (gD w) (.ofNat 32 i), t)

/-- The effect of FIELD (R46). -/
def State.gydonField (s : State) (w : Nat) (k : Gydon) (t : Xlat) : GAct :=
  match s.recs[k.at (gA w)]? with
  | none => .error (.fault .eemit 8)
  | some r =>
    let e := natBits r.fdesc (8 * gX w) 8
    let width := if gX w = 3 then 8 else 4
    let v := k.at (gB w)
    if !natBit e 7 then .error (.fault .eemit 8)
    else if 2 ^ width ≤ v then .error (.fault .eemit 7)
    else
      let mask : BitVec 32 := .ofNat 32 ((2 ^ width - 1) * 2 ^ (e % 32))
      .ok (k.put (gD w) ((k.b[gD w] &&& ~~~mask) ||| .ofNat 32 (v * 2 ^ (e % 32))), t)

/-- The effect of EMIT: the check of the word, then OUT and the note of its length and branch span (R47, R49). -/
def State.gydonEmit (s : State) (half : Bool) (w : Nat) (k : Gydon) (t : Xlat) : GAct :=
  let v := k.at (gA w)
  let n := if half then 1 else 2
  if half ∧ 2 ^ 16 ≤ v then .error (.fault .eemit 3)
  else if natBit v 0 = half then .error (.fault .eemit 3)
  else match s.recOfWord half v with
    | none => .error (.fault .eemit 1)
    | some r =>
      if !natBit r.attr 19 then .error (.fault .eemit 2)
      else if t.cap < k.outLen + n then .error (.fault .eemit 4)
      else
        let lo : BitVec 16 := .ofNat 16 v
        let note := if r.br then (k.outLen, n, r.flo, r.fw) else (k.outLen, n, 0, 0)
        .ok ({ k.next with outLen := k.outLen + n },
          { t with out := (if half then [lo] else [.ofNat 16 (v / 65536), lo]) ++ t.out, notes := note :: t.notes })

/-- The effect of ORIG, and the index of the entry that it writes (R48). -/
def gydonOrig (w : Nat) (k : Gydon) (t : Xlat) : Except GEnd (Nat × Gydon × Xlat) :=
  let e := (k.outLen, k.at (gA w))
  let add := fun (r : List (Nat × Nat)) => Except.ok (r.length, { k.next with mapLen := r.length + 1 }, { t with omap := e :: r })
  match t.omap with
  | [] => add []
  | l :: r =>
    if l.1 = k.outLen then add r
    else if 65536 ≤ t.omap.length then .error (.fault .eemit 9)
    else add (l :: r)

/-! ### Accesses of the translation area (R40, R51, R57) -/

/-- The page of an access of a translation is reached, and the access made; a page that is not present parks the context, whose instruction
is issued again (R40, R57); a page that the handler gave up or that lacks a right ends the translation. [log 45, DEDUCED] [log 77, DEDUCED] -/
def State.areaPage (s : State) (g : Nat) (x : Fin 16) (t : Xlat) (va : Nat) (store : Bool) (f : Nat → TlbEnt → State → Option State) :
    Option State :=
  let c := s.ctxAt g x
  if c.giveUp = some (va / 65536) then some (s.endXlat g t c.gyd (.fault .epnp 0))
  else match s.translate g c.comp va { r := !store, w := store } with
    | (.prot, u) => some (u.endXlat g t c.gyd (.fault .eprot 0))
    | (.absent, u) => if u.migrates (u.partNo g) va then none else some (u.pageWait g x 8 va)
    | (.bad pa, u) => some (u.uncorrectable (u.partNo g) pa g)
    | (.ok pa e, u) => f pa e u

/-- n bytes of the area read, within one word (R51). -/
def State.areaLoad (s : State) (g : Nat) (x : Fin 16) (t : Xlat) (va n : Nat) (f : Nat → State → Option State) : Option State :=
  s.areaPage g x t va false fun pa e u =>
    match u.lineFor g pa e with
    | .words w u => f (lineValue w (pa % 64) n) u
    | .wait => none
    | .bad => some (u.uncorrectable (u.partNo g) pa g)

/-- n bytes of the area written, within one word (R51). -/
def State.areaPut (s : State) (g : Nat) (x : Fin 16) (t : Xlat) (va n v : Nat) (f : State → Option State) : Option State :=
  s.areaPage g x t va true fun pa e u =>
    match u.readyScrub (u.partNo g) e with
    | none => none
    | some u => if u.lineLive (pa / 64) then f (u.coreWrite g va pa n v none) else some (u.uncorrectable (u.partNo g) pa g)

/-- TBL (R45). -/
def execGydonTbl (s : State) : Host.Outcome State Fault Refusal := s.gydonPark 1 fun _ _ _ => .ok none

/-- FIELD (R46). -/
def execGydonField (s : State) : Host.Outcome State Fault Refusal := s.gydonPark 1 fun _ _ _ => .ok none

/-- EMIT of 32 bits (R47). -/
def execGydonEmit (s : State) : Host.Outcome State Fault Refusal := s.gydonPark 2 fun _ k t => .ok (some (t.vOut + 2 * k.outLen))

/-- EMIT of 16 bits (R47). -/
def execGydonEmitH (s : State) : Host.Outcome State Fault Refusal := s.gydonPark 2 fun _ k t => .ok (some (t.vOut + 2 * k.outLen))

/-- ORIG waits for a page that is being pulled, or for a scrub record of the page of its map entry (R421, R426). -/
def State.origWait (s : State) (va : Nat) : State :=
  match s.walk (s.partNo s.core) va with
  | .leaf e => s.parkCur .mem (.scrub e.pa)
  | _ => s.parkCur .pnp (.pulled va)

/-- ORIG: its entry of the map is written in the translation area at once (R48, R57). -/
def execGydonOrig (s : State) : Host.Outcome State Fault Refusal :=
  s.gydonStep 1 fun t =>
    match gydonOrig s.cur.iword.toNat s.cur.gyd t with
    | .error e => s.endXlat s.core t s.cur.gyd e
    | .ok (i, k, r) =>
      (s.areaPut s.core s.ctx t (t.vMap + 8 * i) 8 (s.cur.gyd.outLen % 2 ^ 32 + 2 ^ 32 * s.cur.gyd.at (gA s.cur.iword.toNat)) fun u =>
        some ((u.putXlat u.core u.ctx 1 k r).modCur Ctx.done)).getD (s.origWait (t.vMap + 8 * i))

/-- FAIL (R50). -/
def execGydonFail (s : State) : Host.Outcome State Fault Refusal :=
  s.gydonPure fun w k _ => .error (.fail (k.at (gA w) % 65536))

/-- The parked Gydon instruction of context x of core g completes with its effect (R40). -/
def State.gydonCompletes (s : State) (g : Nat) (x : Fin 16) (cost : Nat) (k : Gydon) (t : Xlat) : State :=
  (s.putXlat g x cost k t).modCtx g x Ctx.retire

/-- A load of n bytes returns: from the chip table, or from the translation area (R43, R51). -/
def State.gydonLoads (s : State) (g : Nat) (x : Fin 16) (t : Xlat) (w n : Nat) (va : Option Nat) : Option State :=
  let k := (s.ctxAt g x).gyd
  match va with
  | none => some (s.gydonCompletes g x 1 (gydonLoad w k (ofBytes ((List.range n).map fun i => s.tabByte (k.addr w n % 2 ^ 28 + i)))) t)
  | some a => s.areaLoad g x t a n fun v u => some (u.gydonCompletes g x 1 (gydonLoad w k v) t)

/-- EMIT has been checked: its halfwords are written in OUT, once their pages are there (R47, R57). -/
def State.gydonEmits (s : State) (g : Nat) (x : Fin 16) (t : Xlat) (half : Bool) (w : Nat) : Option State :=
  let k := (s.ctxAt g x).gyd
  match s.gydonEmit half w k t with
  | .error e => some (s.endXlat g t k e)
  | .ok (k', r) =>
    let a := t.vOut + 2 * k.outLen
    let v := k.at (gA w)
    let done := fun (u : State) => some (u.gydonCompletes g x 2 k' r)
    if half then s.areaPut g x t a 2 v done
    else s.areaPage g x t (a + 2) true fun _ _ u =>
      u.areaPut g x t a 2 (v % 65536) fun u => u.areaPut g x t (a + 2) 2 (v / 65536) done

/-- A search or a field of the chip table has been read (R45, R46). -/
def State.gydonTable (s : State) (g : Nat) (x : Fin 16) (t : Xlat) (r : GAct) : State :=
  match r with
  | .error e => s.endXlat g t (s.ctxAt g x).gyd e
  | .ok (k, u) => s.gydonCompletes g x 1 k u

/-- The access for which a Gydon instruction parked returns (R51). [log 77, DEDUCED] -/
def State.gydonReply (s : State) (g : Nat) (x : Fin 16) : Option State :=
  let c := s.ctxAt g x
  let w := c.iword.toNat
  match c.st, c.req, (s.partOf g).xlat with
  | .parked _, some (.gydon va), some t =>
    match decodeGydon w, va with
    | some .gydonLdb, _ => s.gydonLoads g x t w 1 va
    | some .gydonLdh, _ => s.gydonLoads g x t w 2 va
    | some .gydonLdw, _ => s.gydonLoads g x t w 4 va
    | some .gydonStw, some a => s.areaPut g x t a 4 (c.gyd.at (gD w)) fun u => some (u.gydonCompletes g x 1 c.gyd.next t)
    | some .gydonTbl, _ => some (s.gydonTable g x t (s.gydonTbl w c.gyd t))
    | some .gydonField, _ => some (s.gydonTable g x t (s.gydonField w c.gyd t))
    | some .gydonEmit, _ => s.gydonEmits g x t false w
    | some .gydonEmitH, _ => s.gydonEmits g x t true w
    | _, _ => none
  | _, _, _ => none

/-- GYDON_READ_REPLY: the access of the translation in context x of core g returns (R51). -/
def execGydonReadReply (s : State) : Host.Outcome State Fault Refusal := event s (s.gydonReply s.ev.g (ctxNo s.ev.x))

/-! ### DONE (R49, R53, R55) -/

/-- The word of the instruction at a halfword of OUT. -/
def Xlat.wordAt (t : Xlat) (p n : Nat) : Nat :=
  let h := t.out.reverse
  ((h[p]?).getD 0).toNat + if n = 2 then 65536 * ((h[p + 1]?).getD 0).toNat else 0

/-- The subcode of a branch whose target is refused (R49). -/
def Xlat.badBranch (t : Xlat) (e : Nat × Nat × Nat × Nat) : Option Nat :=
  let (p, n, flo, fw) := e
  if fw = 0 then none
  else
    let dst : Int := (p : Int) + signedOf fw (natBits (t.wordAt p n) flo fw)
    if dst < 0 ∨ (t.out.length : Int) ≤ dst then some 5
    else if t.notes.any fun k => k.1 == dst.toNat then none
    else some 6

/-- The check of DONE: the first refused branch (R49). -/
def Xlat.doneCheck (t : Xlat) : Option Nat := t.notes.reverse.findSome? t.badBranch

/-- DONE: the check, then the cache write is awaited (R49). [log 23, DEDUCED] -/
def execGydonDone (s : State) : Host.Outcome State Fault Refusal :=
  s.gydonStep 1 fun t =>
    match t.doneCheck with
    | some sub => s.endXlat s.core t s.cur.gyd (.fault .eemit sub)
    | none => s.hold .mem .gydonDone 0

/-- The control block of the entry: key, lengths, units used; native code and origin map lie in place (R57). [log 119, DESIGN CHOICE] -/
def Xlat.entryBlock (t : Xlat) (units : Nat) : List Byte :=
  toBytes 32 t.key ++ toBytes 4 t.out.length ++ toBytes 4 t.omap.length ++ toBytes 4 units ++ toBytes 20 0

/-- The cache write of DONE completes: the entry is cached, and context 15 returns to the leaf controller; a page that is not present parks
the context further (R49, R55, R57). -/
def State.doneComplete (s : State) (g : Nat) (x : Fin 16) : Option State :=
  let c := s.ctxAt g x
  match c.st, c.req, (s.partOf g).xlat with
  | .parked _, some .gydonDone, some t =>
    let units := t.budget - c.gyd.meter + 1
    match s.cpStores (s.partNo g) ((t.spans[0]?).getD (0, 0)).1 none (t.entryBlock units) with
    | .ok u => some (u.cacheXlat (s.partNo g) t units c.gyd.pc)
    | .error (.absent va) =>
      some (if c.giveUp = some (va / 65536) then s.endXlat g t c.gyd (.fault .epnp 0) else s.pageWait g x 8 va)
    | .error (.wait _) => none
    | .error (.tag e) => s.readyScrub (s.partNo g) e
    | .error (.bad pa) => some (s.uncorrectable (s.partNo g) pa g)
    | .error _ => some (s.endXlat g t c.gyd (.fault .eprot 0))
  | _, _, _ => none

/-- DONE_COMPLETE: the cache write of the translation in context x of core g has completed (R49). [log 23, DEDUCED] -/
def execDoneComplete (s : State) : Host.Outcome State Fault Refusal := event s (s.doneComplete s.ev.g (ctxNo s.ev.x))

/-! ### Illegal encodings and fetch faults -/

/-- ILLEGAL_ENCODING: EILL; in Gydon mode it ends the translation, whatever the meter holds (R39, R40, R66). -/
def execIllegalEncoding (s : State) : Host.Outcome State Fault Refusal :=
  if s.cur.gydonMode then s.gydonStep 0 fun t => s.endXlat s.core t s.cur.gyd (.fault .eill 0)
  else finish s (raise .eill)

/-- FETCH_FAULT: the fetch at the pc raises its fault, or parks for its page; a fault of a translation's fetch (ESEG beyond its image; log 45, DEDUCED)
ends the translation (R26, R40, R57, R60, R281). -/
def execFetchFault (s : State) : Host.Outcome State Fault Refusal :=
  if s.cur.gydonMode then
    match s.gydonFetch with
    | .ok (_, t) => .next t
    | .error (.fault c ..) => s.gydonStep 0 fun t => s.endXlat s.core t s.cur.gyd (.fault c 0)
    | .error e => finish (s.latch 0) (.error e)
  else match s.fetch with
    | .ok (_, _, t) => .next t
    | .error e => finish (s.latch 0) (.error e)

end Sys2Proof.Machine
end

