-- ==== Sys2Proof/Machine/Matrix.lean ====
section
/-! DEFINITION. The matrix engine: shape records, job instructions, accumulator slots, the steps of a running job
(20 R342 to R361). -/

namespace Sys2Proof.Machine

/-! ### Shape records (R344 to R346) -/

/-- The type of a record. -/
def mxFmt (r : Nat) : Option Ty := Ty.ofCode (natBits r 0 8)
/-- Fields of a record. -/
def mxPrec (r : Nat) : Nat := natBits r 8 8
def mxBase (r : Nat) : Nat := natBits r 16 16
def mxRows (r : Nat) : Nat := natBits r 32 8
def mxGlobal (r : Nat) : Bool := natBit r 40
def mxSg (r : Nat) : Fin 8 := Fin.ofNat 8 (natBits r 41 3)
def mxCols (r : Nat) : Nat := natBits r 48 16
def mxPstride (r : Nat) : Nat := let v := natBits r 88 8; if v = 0 then 1 else v
def mxEstride (r : Nat) : Nat := let v := natBits r 80 8; if v = 0 then 1 else v
def mxGoff (r : Nat) : Nat := natBits r 192 64
/-- Element size in bytes. -/
def mxSize (r : Nat) : Nat := match mxFmt r with | some t => Nat.max 1 (tyWidth t / 8) | none => 1
/-- Bytes from one row to the next. -/
def mxRstride (r : Nat) : Nat := let v := natBits r 64 16; if v = 0 then mxCols r * mxEstride r * mxSize r else v
/-- Row i, or K index k, is masked out. -/
def mxRowMasked (r i : Nat) : Bool := natBit (natBits r 96 16) i
def mxKMasked (r k : Nat) : Bool := natBit (natBits r 128 64) k

/-- The roles of a record (R345). -/
inductive MxRole where
  | a | b | dst
deriving DecidableEq, Repr

/-- Types accepted in a role, with PREC (R345). -/
def mxTypeOk (role : MxRole) (t : Ty) (prec : Nat) : Bool :=
  match role with
  | .a => (prec == 0 && [Ty.i8, .n8, .bf16, .f16, .e4m3, .e5m2].contains t)
      || (prec != 0 && prec == tyWidth t && [Ty.i1, .i2, .i4, .i8, .n4, .n8, .bf16, .f16, .e4m3, .e5m2].contains t)
  | .b => prec == 0 && [Ty.i8, .n8, .bf16, .f16, .e4m3, .e5m2, .ds8].contains t
  | .dst => prec == 0 && [Ty.f32, .i32, .f16, .bf16].contains t

/-- A record valid for its role (R345). -/
def mxValid (role : MxRole) (r : Nat) : Bool :=
  let reserved := natBits r 112 16 == 0 && natBits r 44 4 == 0 && (mxGlobal r || mxGoff r == 0)
  let ty := match mxFmt r with | some t => mxTypeOk role t (mxPrec r) | none => false
  let base := mxGlobal r || (natBits r 64 16 % mxSize r == 0 && (if mxPrec r = 0 then mxBase r % mxSize r == 0 else mxBase r % 128 == 0))
  let shape := match role with
    | .a => !mxGlobal r && 1 ≤ mxRows r && mxRows r ≤ 16 && 1 ≤ mxCols r && mxCols r ≤ 64
    | .b => 1 ≤ mxRows r && mxRows r ≤ 64 && 1 ≤ mxCols r && mxCols r ≤ 512 && natBits r 96 16 == 0
    | .dst => 1 ≤ mxRows r && mxRows r ≤ 16 && 1 ≤ mxCols r && mxCols r ≤ 512 && natBits r 128 64 == 0
  reserved && ty && base && shape

/-- An integer format (R343). -/
def mxInteger (r : Nat) : Bool := match mxFmt r with | some t => !tyFloat t | none => false

/-- The formats are a pair of R343. -/
def mxPair (a b : Nat) : Bool := if mxInteger a then mxInteger b || mxFmt b == some .ds8 else !mxInteger b && mxFmt b != some .ds8

/-- ElemAddr as a displacement from BASE or GOFF (R346). -/
def mxDisp (r i j : Nat) : Nat := i * mxRstride r + j * mxEstride r * mxSize r

/-! ### Slots (R342) -/

/-- Word (row, column) of a slot. -/
def CoreSt.accWord (c : CoreSt) (slot m col : Nat) : Nat := (aget c.acc (2048 * slot + 128 * m + col) 0).toNat

/-- The word written. -/
def CoreSt.setAcc (c : CoreSt) (slot m col v : Nat) : CoreSt := { c with acc := aset c.acc (2048 * slot + 128 * m + col) (.ofNat 32 v) }

/-! ### The shape of a job -/

/-- Columns that a product job writes. -/
def MxJob.cols (j : MxJob) : Nat := match j.kind with | .mul n => n | .mulg _ => 16 | _ => 0

/-- Tile row and column of MXMULG (R350, R351). -/
def MxJob.ti (j : MxJob) : Nat := match j.kind with | .mulg _ => bitsOf j.geom 0 16 / bitsOf j.geom 24 8 | _ => 0
def MxJob.tj (j : MxJob) : Nat := match j.kind with | .mulg _ => bitsOf j.geom 0 16 % bitsOf j.geom 24 8 | _ => 0

/-- Element (m, k) of A is present (R346, R351). -/
def MxJob.aHas (j : MxJob) (m k : Nat) : Bool :=
  let edge := match j.kind with | .mulg _ => decide (16 * j.ti + m < bitsOf j.geom 48 16) | _ => true
  decide (m < mxRows j.recA ∧ k < mxCols j.recA) && !mxRowMasked j.recA m && !mxKMasked j.recA k && edge

/-- Element (k, n) of B is present (R346, R351). -/
def MxJob.bHas (j : MxJob) (k n : Nat) : Bool :=
  let col := 16 * j.tj + n
  let edge := match j.kind with | .mulg _ => decide (col < bitsOf j.geom 32 16) | _ => true
  decide (k < mxRows j.recB ∧ col < mxCols j.recB) && !mxKMasked j.recB k && edge

/-- Local address of A's element (m, k), element layout (R346, R351). -/
def MxJob.aAddr (j : MxJob) (m k : Nat) : Nat := mxBase j.recA + mxDisp j.recA m k + 16 * j.ti * mxRstride j.recA

/-- Local address of bank row m of plane p of A (R346, R351). -/
def MxJob.aPlane (j : MxJob) (p m : Nat) : Nat :=
  128 * ((mxBase j.recA + 128 * j.ti * mxPrec j.recA * mxPstride j.recA) / 128 + p * mxPstride j.recA) + 8 * m

/-- Displacement of B's element (k, n) (R346, R351). -/
def MxJob.bDisp (j : MxJob) (k n : Nat) : Nat := mxDisp j.recB k (16 * j.tj + n)

/-- Pairs of indices below two bounds, the second moving fastest. -/
def pairs (a b : Nat) : List (Nat × Nat) := (List.range a).flatMap fun i => (List.range b).map fun j => (i, j)

/-- The elements of A that are present. -/
def MxJob.aList (j : MxJob) : List (Nat × Nat) := (pairs 16 64).filter fun e => j.aHas e.1 e.2
/-- The elements of B that are present. -/
def MxJob.bList (j : MxJob) : List (Nat × Nat) := (pairs 64 j.cols).filter fun e => j.bHas e.1 e.2
/-- The elements of MXREAD's destination (R352). -/
def MxJob.dList (j : MxJob) : List (Nat × Nat) := (pairs (mxRows j.recA) (mxCols j.recA)).filter fun e => !mxRowMasked j.recA e.1

/-- The local ranges that a job reads or writes: address and bytes (R353). -/
def MxJob.ranges (j : MxJob) : List (Nat × Nat) :=
  let a := if mxPrec j.recA = 0 then j.aList.map fun e => (j.aAddr e.1 e.2, mxSize j.recA)
    else if j.aList.isEmpty then [] else (List.range (mxPrec j.recA)).map fun p => (j.aPlane p 0, 128)
  let b := if mxGlobal j.recB then [] else j.bList.map fun e => (mxBase j.recB + j.bDisp e.1 e.2, mxSize j.recB)
  match j.kind with
  | .mul _ | .mulg _ => a ++ b
  | .zero => []
  | .read => if mxGlobal j.recA then [] else j.dList.map fun e => (mxBase j.recA + mxDisp j.recA e.1 e.2, mxSize j.recA)

/-- The global record of a job with the displacements of its elements: B's, or the destination's (R353). -/
def MxJob.globals (j : MxJob) : Option (Nat × Right × List Nat) :=
  match j.kind with
  | .mul _ | .mulg _ => if mxGlobal j.recB then some (j.recB, .r, j.bList.map fun e => j.bDisp e.1 e.2) else none
  | .zero => none
  | .read => if mxGlobal j.recA then some (j.recA, .w, j.dList.map fun e => mxDisp j.recA e.1 e.2) else none

/-! ### Issue (R353) -/

/-- A record read at issue (R353 step 2). -/
def State.mxRecord (s : State) (v : W) : Act Nat := do
  let p := v.toNat
  faultIf (p > 0x5FE0) .eseg 0 p
  faultIf (p % 32 ≠ 0) .ealign 0 p
  s.tileGate p
  return Memory.load s.here.pad p 32

/-- The segment check of a global record over the span of its present elements; ADDR is the virtual address of the lowest one
(R353 step 6, R281). -/
def mxSegment (j : MxJob) : Act Unit :=
  match j.globals with
  | none => .ok ()
  | some (r, right, l) => do
    let z := mxSize r
    let low := mxGoff r + l.foldl Nat.min (l.headD 0)
    let high := mxGoff r + l.foldl Nat.max 0 + z
    let a := (j.sgb.toNat + low) % 2 ^ 64
    faultIf (segKind j.sgl ≠ 0) .eseg 0 a
    faultIf (!l.isEmpty && high > bitsOf j.sgl 0 48) .eseg 0 a
    faultIf (!j.sgl.getLsbD right.bit) .eseg 0 a
    faultIf (mxGoff r % z ≠ 0 ∨ mxRstride r % z ≠ 0 ∨ j.sgb.toNat % z ≠ 0) .ealign 0 a
    faultIf (!l.isEmpty && a + (high - low) > 2 ^ 48) .eprot 0 a

/-- The pad tiles of local ranges, each once (R353 step 7, R356). -/
def tilesOf (l : List (Nat × Nat)) : List Nat :=
  ((l.flatMap fun e => [padTile e.1, padTile (e.1 + e.2 - 1)]).filter (2 ≤ ·)).eraseDups

/-- Every touched tile passes the gate, in ascending order (R353 step 7). -/
def State.mxGates (s : State) : List Nat → Act Unit
  | [] => .ok ()
  | t :: r => do
    s.tileGate (1024 * t)
    s.mxGates r

/-- Steps 5 to 8 of a job instruction, and its entry into the queue (R353). -/
def State.mxEnter (t : State) (q : Bool) (d : Reg) (j : MxJob) : Act State := do
  let l := j.ranges
  match j.kind with
  | .read => faultIf (l.any fun e => decide (e.1 < 0x0800)) .eseg 0 (mxBase j.recA)
  | _ => .ok ()
  match l.find? fun e => decide (e.1 + e.2 > 0x6000) with
  | some e => raiseSub .emx 5 e.1
  | none => .ok ()
  mxSegment j
  let tiles := tilesOf l
  t.mxGates tiles
  if (t.mxJobs t.core).length ≥ 8 then .error (.park .mx .mxRoom)
  else
    let id := t.here.mxId
    let t := (t.modHere fun c => { c with mxQ := c.mxQ ++ [{ j with id := id, claims := tiles }], mxId := if id ≥ 65535 then 1 else id + 1 }).modCluster
      (t.core / 8) fun h => { h with mxIssued := h.mxIssued + 1 }
    if q then return (t.modCur fun c => c.setG d (.ofNat 64 id)).advance 4
    else .error (.held (t.hold .mx (.mxJob d id) 4))

/-- The job of an instruction, before it has an identifier; the segment is that of its global record. -/
def State.mxJob (t : State) (k : MxKind) (na nb ad : Bool) (slot recA recB : Nat) : MxJob :=
  let sg := match k with | .read => mxSg recA | _ => mxSg recB
  { id := 0, kind := k, na := na, nb := nb, ad := ad, slot := slot, recA := recA, recB := recB, sgb := t.cur.sgb[sg], sgl := t.cur.sgl[sg],
    geom := t.cur.geom, ctx := t.ctx.val, pc := t.cur.pc, comp := t.cur.comp, writer := t.cur.writer }

/-- MXMUL and MXMULG up to step 4 (R353). -/
def State.mxProduct (s : State) (grouped q na nb ad : Bool) (slot : Fin 4) (d : Reg) (a b : Src) : Act State := do
  let t ← s.readOps [a, b, plain d] [d] 7
  let ra ← t.mxRecord (t.g a.r)
  let rb ← t.mxRecord (t.g b.r)
  faultIf (!mxValid .a ra || !mxValid .b rb) .emx 1
  faultIf (!mxPair ra rb) .emx 2
  let n := (t.g d).toNat
  if grouped then
    faultIf (n % 16 ≠ 0 ∨ n > 112) .emx 3
    let v := t.cur.geom
    faultIf (bitsOf v 24 8 = 0 ∨ bitsOf v 32 16 = 0 ∨ bitsOf v 48 16 = 0) .emx 6
    t.mxEnter q d (t.mxJob (.mulg n) na nb ad slot.val ra rb)
  else
    faultIf (n % 16 ≠ 0 ∨ n < 16 ∨ n > 512) .emx 3
    faultIf (slot.val + (n + 127) / 128 > 4) .emx 4
    t.mxEnter q d (t.mxJob (.mul n) na nb ad slot.val ra rb)

/-- MXMUL (R347, R348, R353). -/
def execMxmul (q u v w : Bool) (z : Fin 4) (d : Reg) (a b : Src) (s : State) : Host.Outcome State Fault Refusal :=
  finish s (s.mxProduct false q u v w z d a b)

/-- MXMULG (R347, R351, R353). -/
def execMxmulg (q u v w : Bool) (z : Fin 4) (d : Reg) (a b : Src) (s : State) : Host.Outcome State Fault Refusal :=
  finish s (s.mxProduct true q u v w z d a b)

/-- MXZERO (R352). -/
def execMxzero (q : Bool) (z : Fin 4) (d : Reg) (s : State) : Host.Outcome State Fault Refusal :=
  finish s do
    let t ← s.readOps [] [d] 7
    t.mxEnter q d (t.mxJob .zero false false false z.val 0 0)

/-- MXREAD (R352, R353). -/
def execMxread (q : Bool) (z : Fin 4) (d : Reg) (a : Src) (s : State) : Host.Outcome State Fault Refusal :=
  finish s do
    let t ← s.readOps [a] [d] 7
    let r ← t.mxRecord (t.g a.r)
    faultIf (!mxValid .dst r) .emx 1
    faultIf (z.val + (mxCols r + 127) / 128 > 4) .emx 4
    t.mxEnter q d (t.mxJob .read false false false z.val r 0)

/-! ### Statuses (R354) -/

/-- A status word (R354). -/
def mxStatus (id code : Nat) (ovf : Bool) (state : Nat) : W :=
  .ofNat 64 (id * 2 ^ 48 + code * 2 ^ 40 + (if ovf then 2 ^ 16 else 0) + state)

/-- The status of an identifier on core g (R354). -/
def State.mxStatusOf (s : State) (g id : Nat) : W :=
  match (s.coreAt g).mxQ.find? fun j => j.id == id with
  | some _ => mxStatus id 0 false 0
  | none =>
    if (s.mxJobs g).any fun j => j.id == id then mxStatus id 0 false 1
    else match (s.coreAt g).mxStat.find? fun j => j.id == id with
      | some j => mxStatus id j.code j.ovf 2
      | none => 3

/-- The completed matrix jobs of a core that an observation of one shows: it and every earlier one (R362). -/
def CoreSt.mxUpTo (c : CoreSt) (id : Nat) : List Nat := id :: (c.mxEnded.dropWhile (· != id)).drop 1

/-- The context has observed the completion of a matrix job, and of every earlier one of the core (R354, R255, R362). -/
def Ctx.observeMx (c : Ctx) (ids : List Nat) : Ctx :=
  { c with observed := ids.foldl (fun l id => if l.contains (false, id) then l else (false, id) :: l) c.observed }

/-- The executing context has observed the completion of a matrix job (R354, R362). -/
def State.observeMx (s : State) (id : Nat) : State := s.modCur fun c => c.observeMx (s.here.mxUpTo id)

/-- MXWAIT (R354). -/
def execMxwait (d : Reg) (a : Src) (s : State) : Host.Outcome State Fault Refusal :=
  finish s do
    let t ← s.readOps [a] [d] 7
    let id := (t.g a.r).toNat
    if (t.mxJobs t.core).any fun j => j.id == id then .error (.park .mx (.mxDone id))
    else return ((t.observeMx id).modCur fun c => c.setG d (t.mxStatusOf t.core id)).advance 4

/-- MXPOLL (R354). -/
def execMxpoll (d : Reg) (a : Src) (s : State) : Host.Outcome State Fault Refusal :=
  finish s do
    let t ← s.readOps [a] [d] 7
    let id := (t.g a.r).toNat
    let v := t.mxStatusOf t.core id
    let u := if bitsOf v 0 2 = 2 then t.observeMx id else t
    return (u.modCur fun c => c.setG d v).advance 4

/-! ### The effect of a job (R348 to R352) -/

/-- The bits of A's element (m, k) (R346). -/
def MxJob.aBits (j : MxJob) (pad : Memory) (m k : Nat) : Nat :=
  if mxPrec j.recA = 0 then Memory.load pad (j.aAddr m k) (mxSize j.recA)
  else (List.range (mxPrec j.recA)).foldl (fun v p => if natBit (Memory.load pad (j.aPlane p m) 8) k then v + 2 ^ p else v) 0

/-- An integer element; a DS8 weight enters as eight times its weight (R346). -/
def mxInt (r bits : Nat) : Int :=
  match mxFmt r with
  | some .ds8 => ds8Eighths bits
  | some t => if tySigned t then signedOf (tyWidth t) bits else bits
  | none => 0

/-- A floating element, subnormals flushed (R346, R171). -/
def mxFloat (r bits : Nat) : FV := match mxFmt r with | some t => (fmtOf t).decode true bits | none => .nan false

/-- RoundSum (R349): one rounding of the exact sum of the old value and the terms. -/
def roundSum (old : Option Nat) (terms : List FV) : Nat :=
  let f := fmtOf .f32
  let start : FV := match old with | some b => f.decode false b | none => .fin ⟨false, 0, 0⟩
  match terms.foldl (fun a t => (a.add 0 t).1) start with
  | .fin d => if d.m = 0 then 0 else (f.round 0 false d).1
  | v => (f.deliver 0 false v).1

/-- The new word of an output element, and whether an INT32 sum left its range (R348, R349). -/
def MxJob.word (j : MxJob) (old : Nat) (terms : List (Nat × Nat)) : Nat × Bool :=
  if mxInteger j.recA then
    let sum := terms.foldl (fun (v : Int) t =>
      let p := mxInt j.recA t.1 * mxInt j.recB t.2
      v + (if j.na != j.nb then -p else p)) (if j.ad then 0 else signedOf 32 old)
    ((sum % 2 ^ 32).toNat, decide (sum < -(2 : Int) ^ 31 ∨ sum > 2 ^ 31 - 1))
  else
    let neg := fun (b : Bool) (v : FV) => if b then v.negate else v
    (roundSum (if j.ad then none else some old)
      (terms.map fun t => ((neg j.na (mxFloat j.recA t.1)).mul (neg j.nb (mxFloat j.recB t.2))).1), false)

/-- The scratchpad as a running job sees it: a word that it has read already keeps the value it had then (R357). -/
def MxJob.view (j : MxJob) (pad : Memory) : Memory := j.got.foldl (fun m e => Memory.store m (8 * e.1) 8 e.2) pad

/-- The product job's output words written, from the bits of B's present elements by 512 × k + n; OVF (R348). -/
def CoreSt.mxApply (c : CoreSt) (j : MxJob) (b : Array (Option Nat)) : CoreSt × Bool :=
  let pad := j.view c.pad
  let c0 := match j.kind with | .mulg n => n | _ => 0
  (pairs 16 j.cols).foldl (fun (acc : CoreSt × Bool) e =>
    let slot := j.slot + (c0 + e.2) / 128
    let col := (c0 + e.2) % 128
    let terms := (List.range 64).filterMap fun k =>
      match (b[512 * k + e.2]?).join with
      | some v => if j.aHas e.1 k then some (j.aBits pad e.1 k, v) else none
      | none => none
    let (w, o) := j.word (c.accWord slot e.1 col) terms
    (acc.1.setAcc slot e.1 col w, acc.2 || o)) (c, false)

/-- What a running matrix job can do next. -/
inductive MxNext where
  /-- it completes: the state with its effect, and OVF -/
  | done (s : State) (ovf : Bool)
  /-- it ends with a fault: the state with its partial effects, code, address -/
  | fault (s : State) (c : FaultCode) (addr : Nat)
  /-- a page is not present: a record is sent -/
  | page (s : State)
  | wait
deriving DecidableEq, Repr

/-- The running matrix job of a cluster changed. -/
def State.modMx (s : State) (h : Nat) (f : MxJob → MxJob) : State :=
  s.modCluster h fun c => { c with mxRun := c.mxRun.map fun (n, j) => (n, f j) }

/-- A job's access meets a page that is not present (R358, R333). -/
def State.mxPage (s : State) (h g : Nat) (j : MxJob) (va : Nat) : MxNext :=
  if j.gaveUp then .fault s .epnp va
  else if s.migrates (s.partNo g) va then .wait
  else
    let (tok, t) := s.pageFault g 7 j.ctx va j.pc.toNat
    match tok with
    | some k => .page (t.modMx h fun j => { j with page := some k })
    | none => .wait

/-- n bytes within one word of global memory as a running job reads them: from a word that it has read already, or at the home slice
(R357, R358, R382). -/
def State.mxRead (s : State) (g : Nat) (j : MxJob) (va n : Nat) : JobRead :=
  match aget? j.gotG (va / 8) with
  | some w => .val (natBits w (8 * (va % 8)) (8 * n)) s
  | none =>
    match s.jobRead g j.comp va n with
    | .val v t => .val v (t.noteJobRead g j.ctx j.writer va n)
    | r => r

/-- The elements of a global B, in order (R358). -/
def State.mxFetch (s : State) (h g : Nat) (j : MxJob) : List (Nat × Nat) → List (Option Nat) → MxNext ⊕ (State × List (Option Nat))
  | [], acc => .inr (s, acc.reverse)
  | (k, n) :: r, acc =>
    if !j.bHas k n then s.mxFetch h g j r (none :: acc)
    else
      let va := (j.sgb.toNat + mxGoff j.recB + j.bDisp k n) % 2 ^ 64
      let z := mxSize j.recB
      match s.mxRead g j va z with
      | .val v t => t.mxFetch h g j r (some v :: acc)
      | .wait => .inl .wait
      | .absent a => .inl (s.mxPage h g j a)
      | .prot a => .inl (.fault s .eprot a)
      | .bad pa => .inl (.page (s.uncorrectable (s.partNo g) pa g))

/-- The stored bytes of a slot word in a destination's type (R352). -/
def mxStored (r w : Nat) : Nat :=
  match mxFmt r with
  | some .f16 => ((fmtOf .f16).deliver 0 false ((fmtOf .f32).decode false w)).1
  | some .bf16 => ((fmtOf .bf16).deliver 0 false ((fmtOf .f32).decode false w)).1
  | _ => w

/-- The address of an element of MXREAD's destination, local or virtual (R346, R352). -/
def MxJob.dAddr (j : MxJob) (i c : Nat) : Nat :=
  if mxGlobal j.recA then (j.sgb.toNat + mxGoff j.recA + mxDisp j.recA i c) % 2 ^ 64 else mxBase j.recA + mxDisp j.recA i c

/-- The elements of the destination whose words MXREAD has not written yet (R357). -/
def MxJob.dRest (j : MxJob) : List (Nat × Nat) := j.dList.filter fun e => !j.put.contains (j.dAddr e.1 e.2 / 8)

/-- MXREAD writes its elements in order (R352, R358). -/
def State.mxStore (s : State) (h g : Nat) (j : MxJob) : List (Nat × Nat) → MxNext
  | [] => .done s false
  | (i, c) :: r =>
    let w := (s.coreAt g).accWord (j.slot + c / 128) i (c % 128)
    let z := mxSize j.recA
    let v := mxStored j.recA w
    let va := j.dAddr i c
    if mxGlobal j.recA then
      match s.jobMayWrite g j.comp va z 1 with
      | .val _ t => (t.jobWrites g j.comp va z v j.writer 1).mxStore h g j r
      | .wait => .wait
      | .absent a => s.mxPage h g j a
      | .prot a => .fault s .eprot a
      | .bad pa => .page (s.uncorrectable (s.partNo g) pa g)
    else (s.padStore g va z v).mxStore h g j r

/-- The first element of a global destination whose page is not present. -/
def State.mxAbsent (s : State) (g : Nat) (j : MxJob) : Option Nat :=
  if !mxGlobal j.recA then none
  else j.dRest.findSome? fun e =>
    match s.jobMayWrite g j.comp (j.dAddr e.1 e.2) (mxSize j.recA) 1 with
    | .absent a => some a
    | _ => none

/-- The rest of the running job of cluster h, performed at its completion (R355, R357; log 36, DESIGN CHOICE). -/
def State.mxNext (s : State) (h : Nat) : MxNext :=
  match (s.clusterAt h).mxRun with
  | none => .wait
  | some (n, j) =>
    let g := 8 * h + n
    if (match j.page with | some k => s.tokenOut k && !j.gaveUp | none => false) || s.blockComing g then .wait
    else match j.kind with
    | .zero => .done (s.modCore g fun c => (pairs 16 128).foldl (fun c e => c.setAcc j.slot e.1 e.2 0) c) false
    | .read =>
      match (if j.gaveUp then none else s.mxAbsent g j) with
      | some va => s.mxPage h g j va
      | none => s.mxStore h g j j.dRest
    | _ =>
      let apply := fun (t : State) (b : List (Option Nat)) =>
        let (c, o) := (t.coreAt g).mxApply j b.toArray
        MxNext.done (t.setCore g c) o
      let places := pairs 64 512
      if mxGlobal j.recB then
        match s.mxFetch h g j (places.map fun e => if e.2 < j.cols then e else (64, e.2)) [] with
        | .inl r => r
        | .inr (t, b) => apply t b
      else
        apply s (places.map fun e =>
          if e.2 < j.cols ∧ j.bHas e.1 e.2 then some (Memory.load (j.view (s.coreAt g).pad) (mxBase j.recB + j.bDisp e.1 e.2) (mxSize j.recB)) else none)

/-- The words, by address / 8, that local elements of a product job touch (R353). -/
def MxJob.localWord (j : MxJob) (w : Nat) : Bool := j.ranges.any fun e => decide (8 * w < e.1 + e.2 ∧ e.1 < 8 * w + 8)

/-- An element of a global B lies in a word of virtual memory (R346). -/
def MxJob.globalWord (j : MxJob) (w : Nat) : Bool :=
  mxGlobal j.recB && j.bList.any fun e => (j.sgb.toNat + mxGoff j.recB + j.bDisp e.1 e.2) % 2 ^ 64 / 8 == w

/-- The running job of cluster h reads or writes one aligned word before it completes: a local operand word (kind 1), a word of a global B
(kind 2), a word of the destination (kind 3) (R357; log 36, DESIGN CHOICE). -/
def State.mxWord (s : State) (h kind w : Nat) : Option State :=
  match (s.clusterAt h).mxRun with
  | none => none
  | some (n, j) =>
    let g := 8 * h + n
    match j.kind, kind with
    | .mul _, 1 | .mulg _, 1 =>
      if j.localWord w && (aget? j.got w).isNone && !s.blockComing g then
        some (s.modMx h fun j => { j with got := aset j.got w (Memory.load (s.coreAt g).pad (8 * w) 8) })
      else none
    | .mul _, 2 | .mulg _, 2 =>
      if j.globalWord w && (aget? j.gotG w).isNone then
        match s.jobRead g j.comp (8 * w) 8 with
        | .val v t => some ((t.noteJobRead g j.ctx j.writer (8 * w) 8).modMx h fun j => { j with gotG := aset j.gotG w v })
        | _ => none
      else none
    | .read, 3 =>
      match j.dRest.filter fun e => j.dAddr e.1 e.2 / 8 == w with
      | [] => none
      | l =>
        match s.mxStore h g j l with
        | .done t _ => some (t.modMx h fun j => { j with put := w :: j.put })
        | _ => none
    | _, _ => none

/-- MATRIX_JOB_START: the engine of cluster g takes the oldest queued job of the next core after the one it served last (R355). -/
def execMatrixJobStart (s : State) : Host.Outcome State Fault Refusal :=
  let h := s.ev.g
  let c := s.clusterAt h
  if c.mxRun.isSome then event s none
  else
    match ((List.range 8).map fun i => (c.mxLast + 1 + i) % 8).find? fun n =>
        !(s.coreAt (8 * h + n)).mxQ.isEmpty && !(s.coreAt (8 * h + n)).frozen with
    | some n =>
      match (s.coreAt (8 * h + n)).mxQ with
      | j :: r =>
        let s := s.modCore (8 * h + n) fun k => { k with mxQ := r }
        event s (some (s.setCluster h { c with mxRun := some (n, j), mxLast := n }))
      | [] => event s none
    | none => event s none

/-- The running matrix job of cluster h ends with its status (R353, R354). -/
def State.endMx (s : State) (h : Nat) (ovf : Bool) (fault : Option (FaultCode × Nat)) : State :=
  match (s.clusterAt h).mxRun with
  | none => s
  | some (n, j) =>
    let g := 8 * h + n
    let code := match fault with | some (c, _) => c.code | none => 0
    let addr := match fault with | some (_, a) => a | none => 0
    let s := (s.modCluster h fun c => { c with mxRun := none, mxDone := c.mxDone + 1 }).advanced g
    let s := s.modCore g fun c => { c with
      mxStat := keepStat c.mxStat { id := j.id, code := code, sub := 0, done := 0, ovf := ovf, addr := addr }
      mxEnded := j.id :: c.mxEnded }
    let x := ctxNo j.ctx
    let s := s.countJob g j.ctx 7 j.gone
    match (s.ctxAt g x).served Req.isJob with
    | some (.mxJob d id) =>
      if id = j.id then
        (s.serve g x Req.isJob fun s => some ((s.modCtx g x fun c => c.observeMx ((s.coreAt g).mxUpTo id)).endBlocking g x d
          (mxStatus id code ovf 2) (fault.map fun (c, a) => (c, 0, a)))).getD s
      else s
    | _ => s

/-- MATRIX_JOB_COMPLETE: the running job of cluster g completes; a page that is not present sends a record and the job waits. With n of
1 to 3 the job reads or writes word v on its way there (R355, R357, R358). [log 36, DESIGN CHOICE] -/
def execMatrixJobComplete (s : State) : Host.Outcome State Fault Refusal :=
  if s.ev.n ≠ 0 then event s (s.mxWord s.ev.g s.ev.n s.ev.v)
  else match s.mxNext s.ev.g with
  | .done t ovf => event s (some (t.endMx s.ev.g ovf none))
  | .page t => event s (some t)
  | _ => event s none

/-- MATRIX_JOB_FAULT: the running job of cluster g ends with a fault; the elements written before stand (R358, R333). -/
def execMatrixJobFault (s : State) : Host.Outcome State Fault Refusal :=
  match s.mxNext s.ev.g with
  | .fault t c a => event s (some (t.endMx s.ev.g false (some (c, a))))
  | _ => event s none

end Sys2Proof.Machine
end

