-- ==== Sys2Proof/Machine/Sfu.lean ====
section
/-! DEFINITION. The quad's special-function unit: special functions, divides, their exact values and their rounding
(05 R121, R122; 09 R188 to R195). Irrational values are computed in fixed point with 512 fraction bits, and a sticky bit stands
for the rest. -/

namespace Sys2Proof.Machine

/-! ### Fixed-point values -/

/-- Fraction bits of the fixed-point computations. -/
def fxBits : Nat := 512
/-- One in fixed point. -/
def fxOne : Int := (2 : Int) ^ fxBits
/-- A product in fixed point. -/
def fxMul (a b : Int) : Int := a * b / fxOne

/-- The integer square root: bits below i are still to be tried. -/
def isqrtFrom (n r : Nat) : Nat → Nat
  | 0 => r
  | i + 1 => isqrtFrom n (if (r + 2 ^ i) * (r + 2 ^ i) ≤ n then r + 2 ^ i else r) i
/-- The integer square root. -/
def isqrt (n : Nat) : Nat := isqrtFrom n 0 (bitLen n / 2 + 1)

/-- e^y for a fixed-point y, by its power series; n further terms, the term of index k and the sum so far. -/
def fxExpFrom (y term sum : Int) (k : Nat) : Nat → Int
  | 0 => sum
  | n + 1 => let t := fxMul term y / k; fxExpFrom y t (sum + t) (k + 1) n
/-- e^y in fixed point for |y| below 1. -/
def fxExp (y : Int) : Int := fxExpFrom y fxOne fxOne 1 120

/-- ln 2 in fixed point: the sum of 1 / (k 2^k). -/
def fxLn2 : Int := (List.range 520).foldl (fun a (i : Nat) => a + fxOne / (((i : Int) + 1) * (2 : Int) ^ (i + 1))) 0

/-- atan(1/x) in fixed point: n further terms. -/
def fxAtanFrom (x p sum : Int) (k : Nat) (neg : Bool) : Nat → Int
  | 0 => sum
  | n + 1 => fxAtanFrom x (p / (x * x)) (sum + (if neg then -(p / k) else p / k)) (k + 2) (!neg) n
/-- π in fixed point, by Machin's formula. -/
def fxPi : Int := 16 * fxAtanFrom 5 (fxOne / 5) 0 1 false 230 - 4 * fxAtanFrom 239 (fxOne / 239) 0 1 false 80

/-- The series of sine (from y, k = 2) and cosine (from 1, k = 1): each term is the one before times −y² / (k (k + 1)). -/
def fxTrigFrom (y2 term sum : Int) (k : Nat) : Nat → Int
  | 0 => sum
  | n + 1 => let t := -(fxMul term y2 / (k * (k + 1))); fxTrigFrom y2 t (sum + t) (k + 2) n
/-- sin y in fixed point, y from 0 to 2. -/
def fxSin (y : Int) : Int := fxTrigFrom (fxMul y y) y y 2 80
/-- cos y in fixed point, y from 0 to 2. -/
def fxCos (y : Int) : Int := fxTrigFrom (fxMul y y) fxOne fxOne 1 80

/-- Fraction bits of log2 of a fixed-point x from 1 to 2, by squaring: n further bits after the bits so far. -/
def fxLog2From (x : Int) (bits : Int) : Nat → Int
  | 0 => bits
  | n + 1 =>
    let y := fxMul x x
    if y ≥ 2 * fxOne then fxLog2From (y / 2) (2 * bits + 1) n else fxLog2From y (2 * bits) n

/-- A fixed-point value as a number, with a sticky bit: the exact value is irrational and lies just above. -/
def fxDy (neg : Bool) (v : Int) : Dy := ⟨neg, 2 * v.toNat + 1, -(fxBits : Int) - 1⟩

/-- A dyadic number of small magnitude in fixed point, exactly. -/
def Dy.fx (d : Dy) : Int := d.m * (2 : Int) ^ (d.e + fxBits).toNat

/-! ### Exact values of the functions -/

/-- What a function gives: a special case with its flags (R191), or a number still to be rounded (R190). -/
inductive SVal where
  | special (v : FV) (f : FFlags)
  | num (d : Dy)
deriving DecidableEq, Repr

/-- The quotient of positive magnitudes with a sticky bit. -/
def quotDy (neg : Bool) (a b : Dy) : Dy :=
  let n := a.m * 2 ^ fxBits
  ⟨neg, 2 * (n / b.m) + (if n % b.m = 0 then 0 else 1), a.e - b.e - fxBits - 1⟩

/-- The square root of a magnitude with a sticky bit. -/
def sqrtDy (a : Dy) : Dy :=
  let k : Nat := fxBits + (if a.e % 2 = 0 then 0 else 1)
  let n := a.m * 2 ^ k
  let r := isqrt n
  ⟨false, 2 * r + (if r * r = n then 0 else 1), (a.e - k) / 2 - 1⟩

/-- The reciprocal square root of a magnitude with a sticky bit. -/
def rsqDy (a : Dy) : Dy :=
  let k : Nat := 2 * fxBits + (if a.e % 2 = 0 then 0 else 1)
  let n := 2 ^ k
  let r := isqrt (n / a.m)
  ⟨false, 2 * r + (if r * r * a.m = n then 0 else 1), -((a.e + k) / 2) - 1⟩

/-- The floor of a number and its fraction in fixed point, for numbers whose exponent is not below −512. -/
def Dy.split (d : Dy) : Int × Int :=
  if d.e ≥ 0 then (d.at 0, 0)
  else (d.at d.e / (2 : Int) ^ (-d.e).toNat, (d.at d.e % (2 : Int) ^ (-d.e).toNat) * (2 : Int) ^ (d.e + fxBits).toNat)

/-- 2 to a number; beyond ±1,024 the exponent is cut off, where every format has overflowed or underflowed (R190). -/
def exp2Dy (d : Dy) : Dy :=
  if (⟨false, 1024, 0⟩ : Dy).lt d then ⟨false, 1, 1024⟩
  else if d.lt ⟨true, 1024, 0⟩ then ⟨false, 3, -1025⟩
  else
    let (n, f) := d.split
    if f = 0 then ⟨false, 1, n⟩ else let v := fxDy false (fxExp (fxMul f fxLn2)); { v with e := v.e + n }

/-- log2 of a magnitude (R191 gives powers of two exactly). -/
def log2Dy (d : Dy) : Dy :=
  let k := bitLen d.m - 1
  let ex : Int := d.e + k
  if d.m = 2 ^ k then dyOf ex 0 false
  else
    let x := (d.m : Int) * (2 : Int) ^ fxBits / (2 : Int) ^ k
    let n := ex * (2 : Int) ^ 200 + fxLog2From x 0 200
    if n ≥ 0 then ⟨false, 2 * n.toNat + 1, -201⟩ else ⟨true, 2 * (-n).toNat - 1, -201⟩

/-- The fraction of a magnitude of turns as a quarter and a fixed-point rest of a turn. -/
def turnOf (d : Dy) : Nat × Int :=
  let f := (d.abs.split).2
  ((f / (fxOne / 4)).toNat, f % (fxOne / 4))

/-- sin of a number of turns (R189, R191). -/
def sinVal (d : Dy) : SVal :=
  let (q, r) := turnOf d
  let neg := d.neg != decide (q ≥ 2)
  if r = 0 then
    (if q % 2 = 0 then .special (.fin ⟨d.neg, 0, 0⟩) {} else .special (.fin ⟨neg, 1, 0⟩) {})
  else .num (fxDy neg (if q % 2 = 0 then fxSin (fxMul (2 * fxPi) r) else fxCos (fxMul (2 * fxPi) r)))

/-- cos of a number of turns (R189, R191). -/
def cosVal (d : Dy) : SVal :=
  let (q, r) := turnOf d
  let neg := q == 1 || q == 2
  if r = 0 then
    (if q % 2 = 1 then .special (.fin ⟨false, 0, 0⟩) {} else .special (.fin ⟨neg, 1, 0⟩) {})
  else .num (fxDy neg (if q % 2 = 0 then fxCos (fxMul (2 * fxPi) r) else fxSin (fxMul (2 * fxPi) r)))

/-- tanh of a number: just below it for a small one, just below 1 for a large one (R190). -/
def tanhDy (d : Dy) : Dy :=
  if d.abs.lt ⟨false, 1, -100⟩ then ⟨d.neg, d.m * 2 ^ 64 - 1, d.e - 64⟩
  else if (⟨false, 128, 0⟩ : Dy).lt d.abs then ⟨d.neg, 2 ^ 64 - 1, -64⟩
  else
    let y := d.abs.fx * 2 / 512
    let t := (List.range 9).foldl (fun v _ => fxMul v v) (fxExp (-y))
    fxDy d.neg ((fxOne - t) * fxOne / (fxOne + t))

/-- The value of a special function of one operand (R189 to R191). -/
def sfuOne (op : SfuOp) (a : FV) : SVal :=
  match a with
  | .nan s => .special (.nan false) { nv := s }
  | .inf n =>
    match op with
    | .rcp => .special (.fin ⟨n, 0, 0⟩) {}
    | .rsq => if n then .special (.nan false) { nv := true } else .special (.fin ⟨false, 0, 0⟩) {}
    | .sqrt | .log2 => if n then .special (.nan false) { nv := true } else .special (.inf false) {}
    | .exp2 => if n then .special (.fin ⟨false, 0, 0⟩) {} else .special (.inf false) {}
    | .tanh => .special (.fin ⟨n, 1, 0⟩) {}
    | _ => .special (.nan false) { nv := true }
  | .fin d =>
    if d.m = 0 then
      match op with
      | .rcp | .rsq => .special (.inf d.neg) { dz := true }
      | .sqrt | .tanh | .sin => .special (.fin d) {}
      | .log2 => .special (.inf true) { dz := true }
      | _ => .special (.fin ⟨false, 1, 0⟩) {}
    else
      match op with
      | .rcp => .num (quotDy d.neg ⟨false, 1, 0⟩ d)
      | .rsq => if d.neg then .special (.nan false) { nv := true } else .num (rsqDy d)
      | .sqrt => if d.neg then .special (.nan false) { nv := true } else .num (sqrtDy d)
      | .exp2 => .num (exp2Dy d)
      | .log2 => if d.neg then .special (.nan false) { nv := true } else .num (log2Dy d)
      | .sin => sinVal d
      | .cos => cosVal d
      | .tanh => .num (tanhDy d)
      | _ => .special (.nan false) {}

/-- SFDIV (R191). -/
def sfuDiv (a b : FV) : SVal :=
  let sig := a.sigFlag.or b.sigFlag
  let neg := a.neg != b.neg
  match a, b with
  | .nan _, _ | _, .nan _ => .special (.nan false) sig
  | .inf _, .inf _ => .special (.nan false) { nv := true }
  | .inf _, .fin _ => .special (.inf neg) {}
  | .fin _, .inf _ => .special (.fin ⟨neg, 0, 0⟩) {}
  | .fin x, .fin y =>
    if y.m = 0 then (if x.m = 0 then .special (.nan false) { nv := true } else .special (.inf neg) { dz := true })
    else if x.m = 0 then .special (.fin ⟨neg, 0, 0⟩) {}
    else .num (quotDy neg x y)

/-- A faithful F32 result: an exact one as it stands, else one of the two values that bracket it, the one of greater magnitude when
`up` says so; NX, with OF and UF by the delivered value (R190). [log 11, DESIGN CHOICE] -/
def faithful (up : Bool) (d : Dy) : FRes :=
  let f := fmtOf .f32
  let (b, fl) := f.round 1 false d
  if !fl.nx then (b, fl)
  else
    let mag := b % 2 ^ 31
    if (⟨false, 1, 128⟩ : Dy).le d.abs then (f.signBits d.neg + f.infBits, { ov := true, nx := true })
    else
      let r := if up then mag + 1 else mag
      (f.signBits d.neg + r, { ov := r == f.infBits, uf := decide (r < 2 ^ 23), nx := true })

/-- The result of a request under its rounding mode, with its flags and whether it took a free choice (R121, R189, R190). [log 11, DESIGN CHOICE] -/
def sfuResult (op : SfuOp) (t : Ty) (rm : Nat) (a b : W) (up : Bool) : W × FFlags × Bool :=
  let f := fmtOf t
  let src := fun (x : W) => f.decode false (lowBits (tyWidth t) x)
  let put := fun (r : FRes) (c : Bool) => ((.ofNat 64 r.1 : W), r.2, c)
  match op with
  | .div | .rem =>
    let w := tyWidth t
    let x := tyVal t a
    let y := tyVal t b
    let (q, r) : Int × Int :=
      if y = 0 then ((2 : Int) ^ w - 1, x)
      else if tySigned t ∧ x = -(2 : Int) ^ (w - 1) ∧ y = -1 then (x, 0)
      else (x.tdiv y, x.tmod y)
    (tyPut t (match op with | .div => q | _ => r), {}, false)
  | .sqrt | .fdiv =>
    match (match op with | .sqrt => sfuOne .sqrt (src a) | _ => sfuDiv (src a) (src b)) with
    | .special v fl => let (o, g) := f.deliver rm false v; put (o, fl.or g) false
    | .num d => put (f.round rm false d) false
  | _ =>
    match sfuOne op (src a) with
    | .special v fl => let (o, g) := f.deliver 0 false v; put (o, fl.or g) false
    | .num d => match t with
      | .f32 => put (faithful up d) true
      | _ => put (f.round 0 false d) false

/-! ### The unit (R192) -/

/-- Request a is older than request b: earlier issue, then lower core number (R192). -/
def SfuReq.older (a b : SfuReq) : Bool := decide (a.issued < b.issued ∨ (a.issued = b.issued ∧ a.core < b.core))

/-- A request put into its place by age (R192). -/
def byAge (l : List SfuReq) (e : SfuReq) : List SfuReq := l.filter (fun k => !e.older k) ++ e :: l.filter e.older

/-- A request enters the queue (R192). -/
def Quad.enqueue (q : Quad) (e : SfuReq) : Quad := { q with queue := byAge q.queue e, issued := q.issued + 1 }

/-- Cycles from the start of a request to its token (R122, R193). -/
def sfuLatency (op : SfuOp) (t : Ty) : Nat :=
  match op with
  | .div | .rem => if tyWidth t = 64 then 22 else if tyWidth t = 32 then 14 else 10
  | .rcp | .rsq | .exp2 | .log2 => if t = .f32 then 12 else 8
  | .sqrt | .sin | .cos | .tanh => if t = .f32 then 16 else 12
  | .fdiv => if t = .f32 then 20 else 16

/-- A request enters the quad's queue, with its operand values and FPC.RM; the context parks until its token (R121, R189, R192). -/
def State.askSfu (s : State) (op : SfuOp) (t : Ty) (d : Reg) (a : Src) (b : Option Src) : Act State := do
  let srcs := match b with | some b => [a, b] | none => [a]
  let r ← s.readRegs srcs (some d)
  let y := match b with | some b => r.g b.r | none => 0
  let r := r.modQuad (quadOf r.core) fun q => q.enqueue { core := r.core, ctx := r.ctx.val, issued := r.cycle, lat := sfuLatency op t }
  .error (.held (r.hold .sfu (.sfu d op t (r.g a.r) y (bitsOf r.cur.fpc 0 2) false) 4))

/-- DIV (R121). -/
def execDiv (t : Ty) (d : Reg) (a b : Src) (s : State) : Host.Outcome State Fault Refusal := finish s (s.askSfu .div t d a (some b))
/-- DIVN (R121). -/
def execDivn (t : Ty) (d : Reg) (a b : Src) (s : State) : Host.Outcome State Fault Refusal := finish s (s.askSfu .div t d a (some b))
/-- REM (R121). -/
def execRem (t : Ty) (d : Reg) (a b : Src) (s : State) : Host.Outcome State Fault Refusal := finish s (s.askSfu .rem t d a (some b))
/-- REMN (R121). -/
def execRemn (t : Ty) (d : Reg) (a b : Src) (s : State) : Host.Outcome State Fault Refusal := finish s (s.askSfu .rem t d a (some b))
/-- SRCP (R189). -/
def execSrcp (t : Ty) (d : Reg) (a : Src) (s : State) : Host.Outcome State Fault Refusal := finish s (s.askSfu .rcp t d a none)
/-- SRSQ (R189). -/
def execSrsq (t : Ty) (d : Reg) (a : Src) (s : State) : Host.Outcome State Fault Refusal := finish s (s.askSfu .rsq t d a none)
/-- SSQRT (R189). -/
def execSsqrt (t : Ty) (d : Reg) (a : Src) (s : State) : Host.Outcome State Fault Refusal := finish s (s.askSfu .sqrt t d a none)
/-- SEXP2 (R189). -/
def execSexp2 (t : Ty) (d : Reg) (a : Src) (s : State) : Host.Outcome State Fault Refusal := finish s (s.askSfu .exp2 t d a none)
/-- SLOG2 (R189). -/
def execSlog2 (t : Ty) (d : Reg) (a : Src) (s : State) : Host.Outcome State Fault Refusal := finish s (s.askSfu .log2 t d a none)
/-- SSIN (R189). -/
def execSsin (t : Ty) (d : Reg) (a : Src) (s : State) : Host.Outcome State Fault Refusal := finish s (s.askSfu .sin t d a none)
/-- SCOS (R189). -/
def execScos (t : Ty) (d : Reg) (a : Src) (s : State) : Host.Outcome State Fault Refusal := finish s (s.askSfu .cos t d a none)
/-- STANH (R189). -/
def execStanh (t : Ty) (d : Reg) (a : Src) (s : State) : Host.Outcome State Fault Refusal := finish s (s.askSfu .tanh t d a none)
/-- SFDIV (R189). -/
def execSfdiv (t : Ty) (d : Reg) (a b : Src) (s : State) : Host.Outcome State Fault Refusal := finish s (s.askSfu .fdiv t d a (some b))

/-- No older request can join the queue any more: the request was issued in an earlier cycle, or every lower core of its quad has issued in
this one, or has no READY context (R192). -/
def State.oldestOf (s : State) (e : SfuReq) : Bool :=
  decide (e.issued < s.cycle) || (List.range (e.core % 4)).all fun i =>
    let k := e.core / 4 * 4 + i
    (s.coreAt k).issuedAt == s.cycle + 1 || (s.pick k).isNone

/-- The request of a context has been started. -/
def Req.startSfu : Req → Req
  | .sfu d op t a b rm _ => .sfu d op t a b rm true
  | r => r

/-- A special-function request. -/
def Req.isSfu : Req → Bool
  | .sfu .. => true
  | _ => false

/-- SFU_REQUEST_START: the oldest queued request of quad g starts, in the cycle of its issue or in the first one after that in which nothing
else starts (R192, R193). -/
def execSfuRequestStart (s : State) : Host.Outcome State Fault Refusal :=
  let q := s.quadAt s.ev.g
  match q.queue with
  | e :: r =>
    let t := Nat.max e.issued q.started
    if s.cycle < t || !s.oldestOf e then event s none
    else
      let u := s.setQuad s.ev.g { q with queue := r, busy := q.busy ++ [{ e with due := t + e.lat }], started := t + 1 }
      event s (if e.ctx < 16 then u.serve e.core (ctxNo e.ctx) Req.isSfu fun v =>
          some (v.modCtx e.core (ctxNo e.ctx) fun c => { c with req := c.req.map Req.startSfu })
        else some u)
  | [] => event s none

/-- The token of a request waits in the fabric for a saved core whose inbox is full (R277). -/
def State.tokenWaits (s : State) (e : SfuReq) : Bool :=
  (s.coreAt e.core).away.isSome && decide (256 ≤ (s.coreAt e.core).inbox.length)

/-- The started request of a context of a core whose token may return: it is due, no older one is but those whose tokens wait in the fabric,
and no token has returned in this cycle (R192, R277). -/
def Quad.tokenOf (q : Quad) (cycle g x : Nat) (waits : SfuReq → Bool) : Option SfuReq :=
  if q.returned = cycle + 1 then none
  else q.busy.find? fun e => e.core == g && e.ctx == x && decide (e.due ≤ cycle)
    && !q.busy.any fun k => decide (k.due ≤ cycle) && k.older e && !waits k

/-- RETURN_TOKEN: the token of the started request of context x of core g writes gD and the flags and wakes the context; x = 16
names a request whose context has gone, and its result is discarded (R189, R192, R194). -/
def execReturnToken (s : State) : Host.Outcome State Fault Refusal :=
  let g := s.ev.g
  let q := s.quadAt (quadOf g)
  match q.tokenOf s.cycle g s.ev.x s.tokenWaits with
  | none => event s none
  | some e =>
    let s1 := s.setQuad (quadOf g) { q with busy := q.busy.erase e, done := q.done + 1, returned := s.cycle + 1 }
    if s.ev.x ≥ 16 then event s (some s1)
    else
      let x := ctxNo s.ev.x
      match (s1.ctxAt g x).served Req.isSfu with
      | some (.sfu d op t a b rm true) =>
        let (v, fl, free) := sfuResult op t rm a b (Config.sfuPick s1.freeCnt)
        let s2 : State := { s1 with freeCnt := if free then s1.freeCnt + 1 else s1.freeCnt }
        event s (s2.serve g x Req.isSfu fun u => u.reply g x d v fl.bits true)
      | _ => event s (some s1)

end Sys2Proof.Machine
end

