-- ==== Sys2Proof/Machine/SaveArea.lean ====
section
/-! DEFINITION. The saved image of a context, the save area of a core, pre-emption, resumption on the same core or on the destination of
a migration, the inbox (02 R54; 07 R159; 14 R275 to R277; 25 R425; 26 R430). -/

namespace Sys2Proof.Machine

/-! ### The image of a context (R275) -/

/-- The 40 bytes of a stream port: descriptor, i0, i1, REMAIN; CFG and BOUND stand in the descriptor's two highest bits, which a valid
descriptor leaves zero (R151, R159, R275). [log 103, DESIGN CHOICE] -/
def Port.bytes (p : Port) : List Byte :=
  toBytes 32 (p.desc % 2 ^ 254 + (if p.cfg then 2 ^ 254 else 0) + (if p.bound then 2 ^ 255 else 0)) ++ toBytes 2 p.i0 ++ toBytes 2 p.i1
    ++ toBytes 4 p.remain

/-- A port with what 40 bytes of an image, as a number, hold of it. [log 103, DESIGN CHOICE] -/
def Port.ofImage (p : Port) (m : Nat) : Port :=
  { p with desc := natBits m 0 254, cfg := natBit m 254, bound := natBit m 255, i0 := natBytes m 32 2, i1 := natBytes m 34 2
           remain := natBytes m 36 4 }

/-- The registers of an image: g0 to g15, or a translation's b0 to b7, meter, OUT length and origin map length (R54, R275).
[log 97, DESIGN CHOICE] -/
def Ctx.imageRegs (c : Ctx) : List W :=
  if c.gydonMode then
    (c.gyd.b.toList.map fun v => .ofNat 64 v.toNat) ++ [.ofNat 64 c.gyd.meter, .ofNat 64 c.gyd.outLen, .ofNat 64 c.gyd.mapLen]
      ++ List.replicate 5 0
  else c.g.toList

/-- The pc of an image, in bytes (R54, R275). [log 97, DESIGN CHOICE] -/
def Ctx.imagePc (c : Ctx) : W := if c.gydonMode then .ofNat 64 (2 * c.gyd.pc) else c.pc

/-- The 1,024 bytes of the image of context x of core g (R275). [log 44, DEDUCED] -/
def State.imageOf (s : State) (g : Nat) (x : Fin 16) : List Byte :=
  let c := s.ctxAt g x
  let segs := (List.finRange 8).map fun i => toBytes 8 (c.sgb[i]).toNat ++ toBytes 8 (c.sgl[i]).toNat
  let stack := (c.rstk ++ List.replicate 8 0).take 8
  let gang := match c.gangOld with | some (f, n) => toBytes 4 f ++ toBytes 4 n | none => List.replicate 8 0
  doubles [c.imagePc, s.ctxstat g x, c.fpc, c.geom] ++ toBytes 8 c.stateWord ++ doubles c.imageRegs ++ segs.flatten ++ doubles stack
    ++ toBytes 8 c.rstkWord ++ (c.ports.toList.map Port.bytes).flatten ++ doubles c.trm.toList ++ doubles c.gth.toList ++ c.tokenBytes ++ gang
    ++ toBytes 8 (c.deadline.getD 0) ++ doubles c.cnt.toList ++ List.replicate 336 0

/-- n doubles of an image from a byte offset. -/
def imageWords (m off n : Nat) : Vector W n := .ofFn fun i => .ofNat 64 (natBytes m (off + 8 * i.val) 8)

/-- The reasons of R82 in the order of their numbers. -/
def parkList : List Park :=
  [.none, .full, .mem, .pnp, .store, .drain, .fence, .tile, .stream, .sfu, .sleep, .gang, .hop, .ctx, .truss, .chan, .gate, .copy, .mx,
   .launch, .key, .sfault, .fenced]

/-- The park reason of a number (R82). -/
def Park.ofCode (n : Nat) : Park := (parkList[n]?).getD .none

/-- The pending token that an image holds (R275). -/
def imageToken (m : Nat) : Option Token :=
  if natBit (natBytes m 32 8) 57 then
    let step := natBytes m 596 4
    some { reg := natBytes m 592 2 % 16, flags := .ofNat 64 (natBytes m 594 2), step := step % 2 ^ 31, sfu := natBit step 31
           val := .ofNat 64 (natBytes m 600 8) }
  else none

/-- The Gydon registers that an image holds (R54). [log 97, DESIGN CHOICE] -/
def imageGydon (m : Nat) : Gydon :=
  { b := .ofFn fun i => .ofNat 32 (natBytes m (40 + 8 * i.val) 8), pc := natBytes m 0 8 / 2, meter := natBytes m 104 8
    outLen := natBytes m 112 8, mapLen := natBytes m 120 8 }

/-- The writable bits of an SGL register (R79). -/
def sglMask : W := 0x031FFFFFFFFFFFFF

/-- The bits that FPC has (R83). -/
def fpcBits : W := 0xF903

/-- The bits that a TRM register has (R306). -/
def trmMask : W := 0x8000000000007FFF

/-- The bits that a GTH register has (R404). -/
def gthMask : W := 0xFE000FFFFFFFFFFF

/-- The state of a context after its image has been read back: STOPPED as the image says; a context that waits goes on waiting. -/
def Ctx.imageSt (c : Ctx) (stopped : Bool) : CtxSt :=
  if c.reaping then c.st else if stopped then .stopped else match c.st with | .stopped => .run | st => st

/-- A context with what its image, as a number, holds of it; reserved bits are read as zero (R4, R275). [log 44, DEDUCED] -/
def Ctx.ofImage (c : Ctx) (m : Nat) : Ctx :=
  let stat := natBytes m 32 8
  let rstk := natBytes m 360 8
  let dl := natBytes m 616 8
  let base : Ctx := { c with
    st := c.imageSt (natBit stat 59)
    park := Park.ofCode (natBits stat 48 8)
    clamped := natBit (natBytes m 8 8) 15
    fpc := .ofNat 64 (natBytes m 16 8) &&& fpcBits
    geom := .ofNat 64 (natBytes m 24 8) &&& geomMask
    full := .ofNat 16 stat
    k := .ofFn fun i => .ofNat 8 (natBytes stat (2 + i.val) 1)
    pendWake := natBit stat 56
    token := match imageToken m with | some t => some t | none => c.token
    gangOld := if natBit stat 58 then some (natBytes m 608 4, natBytes m 612 4) else none
    deadline := if dl = 0 then none else some dl
    sgb := .ofFn fun i => .ofNat 64 (natBytes m (168 + 16 * i.val) 8)
    sgl := .ofFn fun i => .ofNat 64 (natBytes m (176 + 16 * i.val) 8) &&& sglMask
    rstk := ((imageWords m 296 8).toList.take (rstk % 16)).map evenPc
    sc := natBits rstk 8 32
    ports := .ofFn fun i => (c.ports[i]).ofImage (natBytes m (368 + 40 * i.val) 40)
    trm := (imageWords m 528 4).map (· &&& trmMask)
    gth := (imageWords m 560 4).map (· &&& gthMask)
    cnt := imageWords m 624 8 }
  if c.gydonMode then { base with gyd := imageGydon m } else { base with pc := evenPc (.ofNat 64 (natBytes m 0 8)), g := imageWords m 40 16 }

/-! ### The contexts of a core that is saved (R275, R276) -/

/-- Context x of core g keeps waiting while its core is saved: SLEEP, a request that has left the core, a blocking job, a fallen lead; a
GTWAIT is issued again (R236, R275, R413). -/
def State.keepsWait (s : State) (g : Nat) (x : Fin 16) : Bool :=
  let c := s.ctxAt g x
  match c.req with
  | some (.sleep _) => true
  | some (.gateBack _ acq ..) => !acq
  | some _ => s.hasLeft g x
  | none => c.park == .fenced

/-- A context without the elements fetched ahead, also among what an abandoned instruction would give back (R159). -/
def Ctx.dropElements (c : Ctx) : Ctx :=
  { c.dropAhead with undo := { c.undo with ports := c.undo.ports.map fun e => (e.1, { e.2.1 with ahead := [] }, e.2.2) } }

/-- A kept request has left the core: its release needs no more (R236). -/
def Ctx.keptRequest (c : Ctx) : Ctx := match c.req with | some (.atomicOut ..) | some (.gateOut ..) => { c with prog := none } | _ => c

/-- Context x of core g as a pre-emption saves it: its gang parts, elements fetched ahead are dropped, a parked instruction that is
reissued is abandoned (R141, R159, R275). -/
def State.suspend (s : State) (g : Nat) (x : Fin 16) : State :=
  let keep := s.keepsWait g x
  let t := (s.partGang g x).modCtx g x fun c => { c.dropElements with gword := none }
  match (s.ctxAt g x).st with
  | .free => s
  | .parked _ =>
    if keep then t.modCtx g x Ctx.keptRequest else (t.withdraw g x.val).modCtx g x fun c => { c.abandon with st := .run }
  | _ => t

/-! ### The rest of the save area (R276) -/

/-- Words behind a list up to a length. -/
def padWords (n : Nat) (l : List Nat) : List Nat := l.take n ++ List.replicate (n - l.length) 0

/-- A flag at a bit. -/
def flagAt (b : Bool) (i : Nat) : Nat := if b then 2 ^ i else 0

/-- The kinds of copy job by number. -/
def copyKinds : List CopyKind := [.fill, .drain, .gath, .scat]

/-- The six words of a tile: entry, JOBS, LAST, stash mode with address space and compartment, mapped address; a mapping's physical address
is not saved. [log 50, DESIGN CHOICE] -/
def TileEnt.words (t : TileEnt) : List Nat :=
  let st := match t.st with | .empty => 0 | .filling => 1 | .ready => 2 | .draining => 3
  let (m, va) := match t.stash with | some m => (1 + 16 * (m.comp % 16) + 256 * m.asid, m.va) | none => (0, 0)
  [st, t.jobs, t.last, m, va, 0]

/-- The twelve words of a queued copy job. [log 50, DESIGN CHOICE] -/
def CopyJob.words (j : CopyJob) : List Nat :=
  let kind := match j.kind with | .fill => 0 | .drain => 1 | .gath => 2 | .scat => 3
  let (l, i) := j.writer.getD (0, 0)
  [j.id % 65536 + 2 ^ 16 * kind + 2 ^ 20 * j.tile + 2 ^ 28 * j.ctx + 2 ^ 32 * (j.comp % 16) + flagAt j.truss.isSome 36 + flagAt j.gone 37
     + flagAt j.writer.isSome 38,
   natBytes j.record 0 8, natBytes j.record 8 8, natBytes j.record 16 8, natBytes j.record 24 8, j.sgb.toNat, j.sgl.toNat, j.truss.getD 0,
   j.pc.toNat, l, i, 0]

/-- The twenty words of a queued matrix job. [log 50, DESIGN CHOICE] -/
def MxJob.words (j : MxJob) : List Nat :=
  let (kind, arg) := match j.kind with | .mul n => (0, n) | .mulg c => (1, c) | .zero => (2, 0) | .read => (3, 0)
  let (l, i) := j.writer.getD (0, 0)
  [j.id % 65536 + 2 ^ 16 * kind + flagAt j.na 18 + flagAt j.nb 19 + flagAt j.ad 20 + 2 ^ 24 * j.slot + 2 ^ 28 * j.ctx + 2 ^ 32 * (j.comp % 16)
     + flagAt j.gone 37 + flagAt j.writer.isSome 38, arg]
    ++ (List.range 4).map (fun k => natBytes j.recA (8 * k) 8) ++ (List.range 4).map (fun k => natBytes j.recB (8 * k) 8)
    ++ [j.sgb.toNat, j.sgl.toNat, j.geom.toNat, j.pc.toNat, l, i, (j.claims.map fun n => 2 ^ n).sum, 0, 0, 0]

/-- The words behind the scratchpad in the save area: window registers at 0, tiles and stash mappings at 8, channels at 160, store-fault
records at 264, queued copy jobs at 336, queued matrix jobs at 440, accumulators at 640 (R276). [log 50, DESIGN CHOICE] -/
def CoreSt.saveWords (c : CoreSt) : List Nat :=
  let flit := fun (m : Flit) => [m.lo.toNat, m.hi.toNat, 16 * m.src + m.ctx]
  padWords 8 (c.win.toList.map (·.toNat))
    ++ padWords 152 (c.tiles.toList.map TileEnt.words).flatten
    ++ padWords 104 (c.chans.toList.map fun l => padWords 25 (l.length :: (l.map flit).flatten)).flatten
    ++ padWords 72 (c.sfq.length :: (c.sfq.map fun r => r.toList.map (·.toNat)).flatten)
    ++ padWords 104 (c.copyQ.length :: (c.copyQ.map CopyJob.words).flatten)
    ++ padWords 200 (c.mxQ.length :: (c.mxQ.map MxJob.words).flatten)
    ++ (List.range 4096).map fun i => (aget c.acc (2 * i) 0).toNat + 2 ^ 32 * (aget c.acc (2 * i + 1) 0).toNat

/-- Word i of a saved part, as a number. -/
def wordAt (m i : Nat) : Nat := natBytes m (8 * i) 8

/-- A tile with what six words from an index hold; the translation of a mapping is not restored. [log 50, DESIGN CHOICE]
[log 117, DESIGN CHOICE] -/
def TileEnt.ofWords (m i : Nat) : TileEnt :=
  let f := wordAt m (i + 3)
  let stash : Option Stash :=
    if natBit f 0 then
      some { va := wordAt m (i + 4) / 1024 * 1024, pa := 0, asid := natBits f 8 16, wright := false, comp := natBits f 4 4, valid := 0
             dirty := 0, stale := true }
    else none
  let st : TileSt := match natBits (wordAt m i) 0 2 with | 0 => .empty | 1 => .filling | 2 => .ready | _ => .draining
  { st := st, jobs := wordAt m (i + 1) % 256, last := wordAt m (i + 2) % 65536, stash := stash }

/-- A queued copy job of twelve words from an index. -/
def CopyJob.ofWords (m i : Nat) : CopyJob :=
  let w := wordAt m i
  { id := natBits w 0 16, kind := (copyKinds[natBits w 16 2]?).getD .fill, tile := natBits w 20 8 % 24, ctx := natBits w 28 4
    comp := natBits w 32 4, gone := natBit w 37, record := natBytes m (8 * (i + 1)) 32, sgb := .ofNat 64 (wordAt m (i + 5))
    sgl := .ofNat 64 (wordAt m (i + 6)), truss := if natBit w 36 then some (wordAt m (i + 7)) else none, pc := .ofNat 64 (wordAt m (i + 8))
    writer := if natBit w 38 then some (wordAt m (i + 9), wordAt m (i + 10)) else none }

/-- A queued matrix job of twenty words from an index. -/
def MxJob.ofWords (m i : Nat) : MxJob :=
  let w := wordAt m i
  let arg := wordAt m (i + 1)
  { id := natBits w 0 16, kind := match natBits w 16 2 with | 0 => .mul arg | 1 => .mulg arg | 2 => .zero | _ => .read
    na := natBit w 18, nb := natBit w 19, ad := natBit w 20, slot := natBits w 24 2, ctx := natBits w 28 4, comp := natBits w 32 4
    gone := natBit w 37, recA := natBytes m (8 * (i + 2)) 32, recB := natBytes m (8 * (i + 6)) 32, sgb := .ofNat 64 (wordAt m (i + 10))
    sgl := .ofNat 64 (wordAt m (i + 11)), geom := .ofNat 64 (wordAt m (i + 12)), pc := .ofNat 64 (wordAt m (i + 13))
    writer := if natBit w 38 then some (wordAt m (i + 14), wordAt m (i + 15)) else none
    claims := (List.range 24).filter fun n => natBit (wordAt m (i + 16)) n }

/-- A core with what the words behind the scratchpad, as a number, hold of it (R276). [log 50, DESIGN CHOICE] -/
def CoreSt.ofWords (c : CoreSt) (m : Nat) : CoreSt :=
  let list := fun (at' step most : Nat) => (List.range (Nat.min (wordAt m at') most)).map fun k => at' + 1 + step * k
  { c with
    win := .ofFn fun i => .ofNat 64 (wordAt m i.val) &&& winMask
    tiles := .ofFn fun t => TileEnt.ofWords m (8 + 6 * t.val)
    chans := .ofFn fun n => (list (160 + 25 * n.val) 3 8).map fun i =>
      { lo := .ofNat 64 (wordAt m i), hi := .ofNat 64 (wordAt m (i + 1)), src := wordAt m (i + 2) / 16, ctx := wordAt m (i + 2) % 16 }
    sfq := (list 264 4 16).map fun i => .ofFn fun k => .ofNat 64 (wordAt m (i + k.val))
    copyQ := (list 336 12 8).map fun i => CopyJob.ofWords m i
    mxQ := (list 440 20 8).map fun i => MxJob.ofWords m i
    acc := (List.range 8192).foldl (fun (a : Assoc (BitVec 32)) i =>
      let v := natBytes m (5120 + 4 * i) 4
      if v = 0 then a else aset a i (.ofNat 32 v)) [] }

/-! ### Pre-emption (R276) -/

/-- Bytes written into partition memory by the device, and entered into the dirty tables (R383). -/
def State.saveBytes (s : State) (p va : Nat) (l : List Byte) : State :=
  let s := s.deviceBytes p va l
  (List.range ((va + l.length + 4095) / 4096 - va / 4096)).foldl (fun s i =>
    let a := Nat.max va ((va / 4096 + i) * 4096)
    match s.walk p a with
    | .leaf e => s.trackWrite (e.phys a) (Nat.min 4096 (va + l.length - a)) none
    | _ => s) s

/-- Offset of the compartment numbers in the save area, behind the 16 images (R276, R430). [log 50, DESIGN CHOICE] -/
def saveComps : Nat := 16384
/-- Offset of the scratchpad in the save area. [log 50, DESIGN CHOICE] -/
def savePad : Nat := 17408
/-- Offset of the other words in the save area. [log 50, DESIGN CHOICE] -/
def saveRest : Nat := 41984

/-- The save area of a core written: images of the contexts that are not FREE, compartment numbers, scratchpad, and the rest (R276, R430). -/
def State.saveCore (s : State) (g area : Nat) : State :=
  let p := s.partNo g
  let s := (List.finRange 16).foldl (fun s x =>
    if (s.ctxAt g x).st = .free then s else s.saveBytes p (area + 1024 * x.val) (s.imageOf g x)) s
  let s := s.saveBytes p (area + saveComps) ((s.coreAt g).ctxs.toList.map fun c => .ofNat 8 c.comp)
  let s := s.saveBytes p (area + savePad) (Memory.bytes (s.coreAt g).pad 0 0x6000)
  s.saveBytes p (area + saveRest) ((s.coreAt g).saveWords.map (toBytes 8)).flatten

/-- A job of core g runs in its cluster's units. -/
def State.jobRuns (s : State) (g : Nat) : Bool :=
  let c := s.clusterAt (g / 8)
  (match c.copyRun with | some (n, _) => n == g % 8 | none => false) || (match c.mxRun with | some (n, _) => n == g % 8 | none => false)

/-- Steps 3 to 5 of a pre-emption: stash tiles written back, contexts and core saved, the data cache emptied, the inbox opened (R276). -/
def State.saveAway (s : State) (g area : Nat) : State :=
  let s := (s.backAll g).modCore g fun c =>
    { c with tiles := c.tiles.map fun t => { t with stash := t.stash.map fun m => { m with valid := 0 } } }
  let s := (List.finRange 16).foldl (fun s x => (s.modCtx g x fun c => c.endLate s.cycle).suspend g x) s
  (s.saveCore g area).modCore g fun c => { c with dcache := [], away := some area, stopping := none, inbox := [] }

/-- PREEMPT: issue of core g stops, for a save area at virtual address v of its partition, aligned to an image; once its buffered stores and
its started jobs are done the core is saved (R276). -/
def execPreempt (s : State) : Host.Outcome State Fault Refusal :=
  let g := s.ev.g
  let c := s.coreAt g
  let area := c.stopping.getD (s.ev.v / 1024 * 1024)
  if c.away.isSome || c.halted || (s.partOfCluster (g / 8)).isNone then event s none
  else if c.sb.isEmpty && !s.jobRuns g then event s (some (s.saveAway g area))
  else event s (some (s.modCore g fun c => { c with stopping := some area }))

/-! ### Resumption and the inbox (R276, R277, R425) -/

/-- What n KiB of the save area hold, as a number; none where some of it cannot be read. -/
def State.areaWords (s : State) (p va : Nat) : Nat → Option Nat
  | 0 => some 0
  | n + 1 => do return (← s.deviceLoad p va 1024) + 2 ^ 8192 * (← s.areaWords p (va + 1024) n)

/-- What the save area gives back: images, compartment numbers, scratchpad, the rest; what cannot be read stays (R276). [log 44, DEDUCED] -/
def State.restoreCore (s : State) (g area : Nat) : State :=
  let p := s.partNo g
  let s := (List.finRange 16).foldl (fun s x =>
    if (s.ctxAt g x).st = .free then s
    else match s.deviceLoad p (area + 1024 * x.val) 1024 with
      | some m => s.modCtx g x fun c => c.ofImage m
      | none => s) s
  let s : State := match s.deviceLoad p (area + saveComps) 16 with
    | some m => (List.finRange 16).foldl (fun (s : State) x =>
        if (s.ctxAt g x).st = .free then s else s.modCtx g x fun c => { c with comp := natBytes m x.val 1 % 16 }) s
    | none => s
  let s := (List.range 24).foldl (fun s k =>
    match s.deviceLoad p (area + savePad + 1024 * k) 1024 with
    | some m => s.padStore g (1024 * k) 1024 m
    | none => s) s
  match s.areaWords p (area + saveRest) 37 with
  | some m => s.modCore g fun c => c.ofWords m
  | none => s

/-- A message of the inbox takes effect (R277). -/
def State.applyMsg (s : State) (g : Nat) (m : Msg) : State :=
  match m with
  | .stx k n => match (s.coreAt k).stxDue n with | some e => s.remoteStore k e | none => s
  | .ldx k x => (s.remoteLoad k (ctxNo x)).getD s
  | .flit k x => (s.flitArrives k (ctxNo x)).getD s
  | .hop k x => (s.hopArrives k (ctxNo x)).getD s
  | .token x => s.settleToken g (ctxNo x)


/-- A core restored from its save area issues again: pending tokens are written, the inbox is applied in order of arrival, SLEEPs whose
limit has passed complete (R266, R272, R276, R277). -/
def State.resumeCore (s : State) (g area : Nat) : State :=
  let inbox := (s.coreAt g).inbox
  let s := (s.restoreCore g area).modCore g fun c => { c with away := none, inbox := [], lastIssuer := 15 }
  let s := (List.finRange 16).foldl (fun (s : State) x =>
    if inbox.contains (.token x.val) || (s.ctxAt g x).st == .free then s else s.settleToken g x) s
  let s := inbox.foldl (fun s m => s.applyMsg g m) s
  (List.finRange 16).foldl (fun (s : State) x => (s.sleepOver g x).getD s) s

/-- A message with the core numbers renamed. -/
def Msg.rename (f : Nat → Nat) : Msg → Msg
  | .stx g k => .stx (f g) k
  | .ldx g x => .ldx (f g) x
  | .flit g x => .flit (f g) x
  | .hop g x => .hop (f g) x
  | .token x => .token x

/-- The special-function requests of core k go on in the unit of core g's quad, as requests of core g, each in its place by age
(R192, R194, R425). -/
def moveRequests (k g : Nat) (m : Assoc Quad) : Assoc Quad :=
  let q := aget m (quadOf k) {}
  let mine := fun (l : List SfuReq) => (l.filter fun e => e.core == k).map fun e => { e with core := g }
  let rest := fun (l : List SfuReq) => l.filter fun e => e.core != k
  let m := aset m (quadOf k) { q with queue := rest q.queue, busy := rest q.busy }
  let r := aget m (quadOf g) {}
  aset m (quadOf g) { r with queue := (mine q.queue).foldl byAge r.queue, busy := r.busy ++ mine q.busy }

/-- Core k of a migration's source becomes core g of its destination wherever a queue or a message names it; the copies that it held and
the probes that it takes part in are gone (R425). [log 111, DEDUCED] -/
def State.moveCore (s : State) (k g : Nat) : State :=
  let f := fun (n : Nat) => if n = k then g else n
  let l := fun (l : List (Nat × Nat)) => l.map fun e => (f e.1, e.2)
  let old := s.coreAt k
  let s : State := { s with cores := s.cores.map fun (n, c) => (n, { c with
    chanQ := l c.chanQ, inbox := c.inbox.map (Msg.rename f), ctxs := c.ctxs.map fun x => { x with cores := x.cores.map f } }) }
  let new := s.coreAt k
  { (s.setCore g { old with chanQ := new.chanQ, inbox := new.inbox, dcache := [], launch := old.launch }).setCore k {} with
    gates := s.gates.map fun (n, c) => (n, { c with queue := l c.queue })
    gateMoves := s.gateMoves.map fun (n, c) => (n, { c with queue := l c.queue })
    parts := s.parts.map fun p => { p with evQ := l p.evQ }
    quads := moveRequests k g s.quads
    hops := s.hops.map fun h => { h with core := f h.core, src := f h.src }
    invals := s.invals.map fun v => { v with src := v.src.map f }
    owners := s.owners.filter fun e => e.2 != k
    probes := s.probes.filter fun p => !(p.dest == k || p.path.any fun e => e.1 == k) }

/-- A saved core that another package has handed over becomes core g of partition p, the cores that it names renamed with it (R425).
[log 111, DEDUCED] -/
def State.peerCore (s : State) (k g p : Nat) : State :=
  match aget? s.peers p with
  | some r =>
    let c := aget r.cores k {}
    let f := fun (n : Nat) => n + 8 * (s.part p).base - 8 * r.part.base
    ({ s with peers := aset s.peers p { r with cores := adel r.cores k } } : State).setCore g { c with
      chanQ := c.chanQ.map fun e => (f e.1, e.2), inbox := c.inbox.map (Msg.rename f), dcache := []
      ctxs := c.ctxs.map fun x => { x with cores := [] } }
  | none => s

/-- The reports of ended blocks that the links still carry concern partition p, to which the launches of partition q have moved (R425, R444). -/
def CmdLink.moved (l : CmdLink) (q p : Nat) : CmdLink :=
  let f := fun (m : CmdMsg) => match m with | .ended r l i => if r = q then .ended p l i else m | _ => m
  { l with sent := l.sent.map f, wait := l.wait.map f }

/-- What system software finds moved with the first core image of a migration to partition p from a partition with record a: launches with
their blocks, the translation and its cache, the waits of the queues; the trace sets are not VALID (R425). [log 111, DEDUCED] -/
def State.movePart (s : State) (a : Part) (q : Option Nat) (p : Nat) : State :=
  let b := s.part p
  if b.nextL ≠ 0 ∨ a.nextL = 0 then s
  else
    let core := fun (g : Nat) => g - 8 * a.base + 8 * b.base
    let launch := fun (l : Launch) =>
      let l := { l with first := l.first - a.base + b.base, live := l.live.map fun e => (e.1, core e.2.1, e.2.2), prepared := l.prepared.map core }
      if l.charge.isEmpty then l else { l with charge := l.cost }
    let t := { b with
      launches := a.launches.map fun e => (e.1, launch e.2), nextL := a.nextL, xcache := a.xcache, xuse := a.xuse
      xlat := a.xlat, xorder := a.xorder, lastQ := a.lastQ, qwait := a.qwait, gwCores := a.gwCores.map core, progress := s.cycle
      evQ := a.evQ.map fun e => (core e.1, e.2) }
    let s := s.setPart p t
    let s : State := match q with
      | some q =>
        { (s.modPart q fun a => { a with launches := [], xcache := [], xlat := none, qwait := .replicate 8 .none, gwCores := [], evQ := []
                                         tsets := .replicate 4 {} }) with
          clusters := s.clusters.map fun (h, c) => (h, { c with up := c.up.moved q p }) }
      | none => s
    (List.finRange 4).foldl (fun s k => s.putSet p k { a.tsets[k] with valid := false }) s

/-- Every page of the save area has been pulled into partition p (R425, R426). -/
def State.areaHere (s : State) (p area : Nat) : Bool :=
  let there := fun (va : Nat) => match s.walk p va with | .absent => false | _ => true
  there area && there (area + saveRest + 37887)

/-- The identity words of core g, where an image has brought another core's; the number of blocks stays (R87, R425). [log 118, DEDUCED] -/
def State.renewWords (s : State) (g : Nat) : State :=
  let blocks := Memory.load (s.coreAt g).pad 56 8
  s.padStore g 0 128 (ofBytes (doubles ((idWords s g blocks).map (.ofNat 64))))

/-- Core g takes the image of a migration's source (R425). [log 111, DEDUCED] [log 118, DEDUCED] -/
def State.migrateCore (s : State) (g : Nat) (o : Origin) : State :=
  let p := s.partNo g
  let s := s.movePart o.regs o.part p
  let s := match o.part with | some _ => s.moveCore o.core g | none => s.peerCore o.core g p
  (s.resumeCore g o.area).renewWords g

/-- RESUME: core g is restored from its own save area, or, as the destination of a migration, from the image of the source's core with the same
index; pages of it that are not there yet are pulled first (R276, R277, R425). [log 111, DEDUCED] -/
def execResume (s : State) : Host.Outcome State Fault Refusal :=
  let g := s.ev.g
  match (s.coreAt g).away, s.sourceCore g with
  | some area, _ => event s (some (s.resumeCore g area))
  | none, some o => event s (if s.areaHere (s.partNo g) o.area then some (s.migrateCore g o) else none)
  | none, none => event s none

/-- INBOX_MESSAGE: a message for a saved core enters its inbox: store v of core g (n = 0), the LDX (1), the flit (2) or the HOP image (3)
of context x of core g (R277). -/
def execInboxMessage (s : State) : Host.Outcome State Fault Refusal :=
  let g := s.ev.g
  let x := ctxNo s.ev.x
  let put := fun (t : Nat) (m : Msg) => if (s.coreAt t).away.isSome then event s (some (s.toInbox t m)) else event s none
  match s.ev.n with
  | 0 => match (s.coreAt g).stxDue s.ev.v with | some e => put (s.coreNo g e.target) (.stx g e.seq) | none => event s none
  | 1 => match (s.ctxAt g x).st, (s.ctxAt g x).req with
    | .parked _, some (.ldx _ _ i _) => put (s.coreNo g i) (.ldx g x.val)
    | _, _ => event s none
  | 2 => match s.sending g x.val with | some (_, t) => put t (.flit g x.val) | none => event s none
  | _ => if s.granted g x then put g (.hop g x.val) else event s none

end Sys2Proof.Machine
end

