-- ==== Sys2Proof/Machine/Dispatch.lean ====
section
/-! DEFINITION. The dispatch of an instruction or step to its meaning: one arm per constructor. -/

namespace Sys2Proof.Machine

/-- The meaning of an instruction or step. -/
def exec (i : Instr) (s : State) : Host.Outcome State Fault Refusal :=
  match i with
  | .add t d a b => Sys2Proof.Machine.execAdd t d a b s
  | .sub t d a b => Sys2Proof.Machine.execSub t d a b s
  | .rsub t d a b => Sys2Proof.Machine.execRsub t d a b s
  | .mul t d a b => Sys2Proof.Machine.execMul t d a b s
  | .mulh t d a b => Sys2Proof.Machine.execMulh t d a b s
  | .mulhn t d a b => Sys2Proof.Machine.execMulhn t d a b s
  | .and d a b => Sys2Proof.Machine.execAnd d a b s
  | .or d a b => Sys2Proof.Machine.execOr d a b s
  | .xor d a b => Sys2Proof.Machine.execXor d a b s
  | .andn d a b => Sys2Proof.Machine.execAndn d a b s
  | .shl t d a b => Sys2Proof.Machine.execShl t d a b s
  | .shr t d a b => Sys2Proof.Machine.execShr t d a b s
  | .sar t d a b => Sys2Proof.Machine.execSar t d a b s
  | .rol t d a b => Sys2Proof.Machine.execRol t d a b s
  | .mov d a => Sys2Proof.Machine.execMov d a s
  | .clz t d a => Sys2Proof.Machine.execClz t d a s
  | .ctz t d a => Sys2Proof.Machine.execCtz t d a s
  | .popc t d a => Sys2Proof.Machine.execPopc t d a s
  | .brev t d a => Sys2Proof.Machine.execBrev t d a s
  | .ext e d a b => Sys2Proof.Machine.execExt e d a b s
  | .ins d a b => Sys2Proof.Machine.execIns d a b s
  | .min t d a b => Sys2Proof.Machine.execMin t d a b s
  | .max t d a b => Sys2Proof.Machine.execMax t d a b s
  | .minn t d a b => Sys2Proof.Machine.execMinn t d a b s
  | .maxn t d a b => Sys2Proof.Machine.execMaxn t d a b s
  | .seteq t d a b => Sys2Proof.Machine.execSeteq t d a b s
  | .setne t d a b => Sys2Proof.Machine.execSetne t d a b s
  | .setlt t d a b => Sys2Proof.Machine.execSetlt t d a b s
  | .setge t d a b => Sys2Proof.Machine.execSetge t d a b s
  | .setltn t d a b => Sys2Proof.Machine.execSetltn t d a b s
  | .setgen t d a b => Sys2Proof.Machine.execSetgen t d a b s
  | .sel d a b => Sys2Proof.Machine.execSel d a b s
  | .addConst t d a c => Sys2Proof.Machine.execAddConst t d a c s
  | .rsubConst t d a c => Sys2Proof.Machine.execRsubConst t d a c s
  | .mulConst t d a c => Sys2Proof.Machine.execMulConst t d a c s
  | .andConst d a c => Sys2Proof.Machine.execAndConst d a c s
  | .orConst d a c => Sys2Proof.Machine.execOrConst d a c s
  | .xorConst d a c => Sys2Proof.Machine.execXorConst d a c s
  | .shlConst t d a c => Sys2Proof.Machine.execShlConst t d a c s
  | .shrConst t d a c => Sys2Proof.Machine.execShrConst t d a c s
  | .ldi d imm => Sys2Proof.Machine.execLdi d imm s
  | .ldhi d imm => Sys2Proof.Machine.execLdhi d imm s
  | .lea z d o => Sys2Proof.Machine.execLea z d o s
  | .div t d a b => Sys2Proof.Machine.execDiv t d a b s
  | .divn t d a b => Sys2Proof.Machine.execDivn t d a b s
  | .rem t d a b => Sys2Proof.Machine.execRem t d a b s
  | .remn t d a b => Sys2Proof.Machine.execRemn t d a b s
  | .beq a b p => Sys2Proof.Machine.execBeq a b p s
  | .bne a b p => Sys2Proof.Machine.execBne a b p s
  | .blt a b p => Sys2Proof.Machine.execBlt a b p s
  | .bge a b p => Sys2Proof.Machine.execBge a b p s
  | .bltn a b p => Sys2Proof.Machine.execBltn a b p s
  | .bgen a b p => Sys2Proof.Machine.execBgen a b p s
  | .bz a p => Sys2Proof.Machine.execBz a p s
  | .bnz a p => Sys2Proof.Machine.execBnz a p s
  | .bany a p => Sys2Proof.Machine.execBany a p s
  | .ball a p => Sys2Proof.Machine.execBall a p s
  | .jmp p => Sys2Proof.Machine.execJmp p s
  | .call p => Sys2Proof.Machine.execCall p s
  | .jmpr a => Sys2Proof.Machine.execJmpr a s
  | .callr a => Sys2Proof.Machine.execCallr a s
  | .kand d a b => Sys2Proof.Machine.execKand d a b s
  | .kor d a b => Sys2Proof.Machine.execKor d a b s
  | .kxor d a b => Sys2Proof.Machine.execKxor d a b s
  | .knot d a => Sys2Proof.Machine.execKnot d a s
  | .kmov d a => Sys2Proof.Machine.execKmov d a s
  | .kmovFromG d a => Sys2Proof.Machine.execKmovFromG d a s
  | .kmovToG d a => Sys2Proof.Machine.execKmovToG d a s
  | .couple d a => Sys2Proof.Machine.execCouple d a s
  | .recouple d => Sys2Proof.Machine.execRecouple d s
  | .padd m t d a b => Sys2Proof.Machine.execPadd m t d a b s
  | .psub m t d a b => Sys2Proof.Machine.execPsub m t d a b s
  | .padds m t d a b => Sys2Proof.Machine.execPadds m t d a b s
  | .psubs m t d a b => Sys2Proof.Machine.execPsubs m t d a b s
  | .pmul m t d a b => Sys2Proof.Machine.execPmul m t d a b s
  | .pmulh m t d a b => Sys2Proof.Machine.execPmulh m t d a b s
  | .pmin m t d a b => Sys2Proof.Machine.execPmin m t d a b s
  | .pmax m t d a b => Sys2Proof.Machine.execPmax m t d a b s
  | .pavg m t d a b => Sys2Proof.Machine.execPavg m t d a b s
  | .pabs m t d a => Sys2Proof.Machine.execPabs m t d a s
  | .pshl m t d a b => Sys2Proof.Machine.execPshl m t d a b s
  | .pshr m t d a b => Sys2Proof.Machine.execPshr m t d a b s
  | .pcmpEq t k a b => Sys2Proof.Machine.execPcmpEq t k a b s
  | .pcmpNe t k a b => Sys2Proof.Machine.execPcmpNe t k a b s
  | .pcmpLt t k a b => Sys2Proof.Machine.execPcmpLt t k a b s
  | .pcmpGe t k a b => Sys2Proof.Machine.execPcmpGe t k a b s
  | .psel t d a b => Sys2Proof.Machine.execPsel t d a b s
  | .pshuf d a b => Sys2Proof.Machine.execPshuf d a b s
  | .ppack t d a b => Sys2Proof.Machine.execPpack t d a b s
  | .punpkLo t d a => Sys2Proof.Machine.execPunpkLo t d a s
  | .punpkHi t d a => Sys2Proof.Machine.execPunpkHi t d a s
  | .pmac m t d a b => Sys2Proof.Machine.execPmac m t d a b s
  | .phadd m t d a b => Sys2Proof.Machine.execPhadd m t d a b s
  | .psad m t d a b => Sys2Proof.Machine.execPsad m t d a b s
  | .scfg g a p => Sys2Proof.Machine.execScfg g a p s
  | .sbind p => Sys2Proof.Machine.execSbind p s
  | .sstop p => Sys2Proof.Machine.execSstop p s
  | .scnt d p => Sys2Proof.Machine.execScnt d p s
  | .fadd t d a b => Sys2Proof.Machine.execFadd t d a b s
  | .fsub t d a b => Sys2Proof.Machine.execFsub t d a b s
  | .fmul t d a b => Sys2Proof.Machine.execFmul t d a b s
  | .ffma t d a b => Sys2Proof.Machine.execFfma t d a b s
  | .fmin t d a b => Sys2Proof.Machine.execFmin t d a b s
  | .fmax t d a b => Sys2Proof.Machine.execFmax t d a b s
  | .fabs t d a => Sys2Proof.Machine.execFabs t d a s
  | .fneg t d a => Sys2Proof.Machine.execFneg t d a s
  | .fcmpEq t d a b => Sys2Proof.Machine.execFcmpEq t d a b s
  | .fcmpLt t d a b => Sys2Proof.Machine.execFcmpLt t d a b s
  | .fcmpLe t d a b => Sys2Proof.Machine.execFcmpLe t d a b s
  | .fcmpUn t d a b => Sys2Proof.Machine.execFcmpUn t d a b s
  | .frnd t d a => Sys2Proof.Machine.execFrnd t d a s
  | .fclass t d a => Sys2Proof.Machine.execFclass t d a s
  | .fcvt o t z d a => Sys2Proof.Machine.execFcvt o t z d a s
  | .pfadd m t d a b => Sys2Proof.Machine.execPfadd m t d a b s
  | .pfmul m t d a b => Sys2Proof.Machine.execPfmul m t d a b s
  | .pffma m t d a b => Sys2Proof.Machine.execPffma m t d a b s
  | .pfmax m t d a b => Sys2Proof.Machine.execPfmax m t d a b s
  | .pfcvt o t z d a b => Sys2Proof.Machine.execPfcvt o t z d a b s
  | .baddq t d a b => Sys2Proof.Machine.execBaddq t d a b s
  | .bquant t d a b => Sys2Proof.Machine.execBquant t d a b s
  | .bdesc d a => Sys2Proof.Machine.execBdesc d a s
  | .dsexp h d a => Sys2Proof.Machine.execDsexp h d a s
  | .srcp t d a => Sys2Proof.Machine.execSrcp t d a s
  | .srsq t d a => Sys2Proof.Machine.execSrsq t d a s
  | .ssqrt t d a => Sys2Proof.Machine.execSsqrt t d a s
  | .sexp2 t d a => Sys2Proof.Machine.execSexp2 t d a s
  | .slog2 t d a => Sys2Proof.Machine.execSlog2 t d a s
  | .ssin t d a => Sys2Proof.Machine.execSsin t d a s
  | .scos t d a => Sys2Proof.Machine.execScos t d a s
  | .stanh t d a => Sys2Proof.Machine.execStanh t d a s
  | .sfdiv t d a b => Sys2Proof.Machine.execSfdiv t d a b s
  | .ld z d o => Sys2Proof.Machine.execLd z d o s
  | .st z d o => Sys2Proof.Machine.execSt z d o s
  | .ldro z d o => Sys2Proof.Machine.execLdro z d o s
  | .pref o => Sys2Proof.Machine.execPref o s
  | .ldx z d a b => Sys2Proof.Machine.execLdx z d a b s
  | .ldxW d w => Sys2Proof.Machine.execLdxW d w s
  | .stx z d a b => Sys2Proof.Machine.execStx z d a b s
  | .stxW d w => Sys2Proof.Machine.execStxW d w s
  | .stash l a g => Sys2Proof.Machine.execStash l a g s
  | .stashOff l => Sys2Proof.Machine.execStashOff l s
  | .wback a g => Sys2Proof.Machine.execWback a g s
  | .wbackTile l => Sys2Proof.Machine.execWbackTile l s
  | .discard a g => Sys2Proof.Machine.execDiscard a g s
  | .aaddN32 o z d a g => Sys2Proof.Machine.execAaddN32 o z d a g s
  | .aaddI32 o z d a g => Sys2Proof.Machine.execAaddI32 o z d a g s
  | .aadd64 o z d a g => Sys2Proof.Machine.execAadd64 o z d a g s
  | .aandN32 o z d a g => Sys2Proof.Machine.execAandN32 o z d a g s
  | .aandI32 o z d a g => Sys2Proof.Machine.execAandI32 o z d a g s
  | .aand64 o z d a g => Sys2Proof.Machine.execAand64 o z d a g s
  | .aorN32 o z d a g => Sys2Proof.Machine.execAorN32 o z d a g s
  | .aorI32 o z d a g => Sys2Proof.Machine.execAorI32 o z d a g s
  | .aor64 o z d a g => Sys2Proof.Machine.execAor64 o z d a g s
  | .axorN32 o z d a g => Sys2Proof.Machine.execAxorN32 o z d a g s
  | .axorI32 o z d a g => Sys2Proof.Machine.execAxorI32 o z d a g s
  | .axor64 o z d a g => Sys2Proof.Machine.execAxor64 o z d a g s
  | .aswapN32 o z d a g => Sys2Proof.Machine.execAswapN32 o z d a g s
  | .aswapI32 o z d a g => Sys2Proof.Machine.execAswapI32 o z d a g s
  | .aswap64 o z d a g => Sys2Proof.Machine.execAswap64 o z d a g s
  | .acasN32 o z d a g => Sys2Proof.Machine.execAcasN32 o z d a g s
  | .acasI32 o z d a g => Sys2Proof.Machine.execAcasI32 o z d a g s
  | .acas64 o z d a g => Sys2Proof.Machine.execAcas64 o z d a g s
  | .amin o z t d a g => Sys2Proof.Machine.execAmin o z t d a g s
  | .amax o z t d a g => Sys2Proof.Machine.execAmax o z t d a g s
  | .aminn o z t d a g => Sys2Proof.Machine.execAminn o z t d a g s
  | .amaxn o z t d a g => Sys2Proof.Machine.execAmaxn o z t d a g s
  | .afadd o z d a g => Sys2Proof.Machine.execAfadd o z d a g s
  | .fence o z => Sys2Proof.Machine.execFence o z s
  | .xfence p z => Sys2Proof.Machine.execXfence p z s
  | .trinit a => Sys2Proof.Machine.execTrinit a s
  | .trjoin a => Sys2Proof.Machine.execTrjoin a s
  | .trarrive d a => Sys2Proof.Machine.execTrarrive d a s
  | .trexpect a b => Sys2Proof.Machine.execTrexpect a b s
  | .trwait d a b => Sys2Proof.Machine.execTrwait d a b s
  | .trtest d a => Sys2Proof.Machine.execTrtest d a s
  | .trdrop a => Sys2Proof.Machine.execTrdrop a s
  | .chsend n d a => Sys2Proof.Machine.execChsend n d a s
  | .chrecv n d b => Sys2Proof.Machine.execChrecv n d b s
  | .chrecvFrom n d a => Sys2Proof.Machine.execChrecvFrom n d a s
  | .chpoll n d => Sys2Proof.Machine.execChpoll n d s
  | .cpfill q l d a b => Sys2Proof.Machine.execCpfill q l d a b s
  | .cpdrain q l d a b => Sys2Proof.Machine.execCpdrain q l d a b s
  | .cpgath q l d a b => Sys2Proof.Machine.execCpgath q l d a b s
  | .cpscat q l d a b => Sys2Proof.Machine.execCpscat q l d a b s
  | .cpwait d a => Sys2Proof.Machine.execCpwait d a s
  | .cppoll d a => Sys2Proof.Machine.execCppoll d a s
  | .tlstat l d => Sys2Proof.Machine.execTlstat l d s
  | .tlset l a => Sys2Proof.Machine.execTlset l a s
  | .mxmul q u v w z d a b => Sys2Proof.Machine.execMxmul q u v w z d a b s
  | .mxmulg q u v w z d a b => Sys2Proof.Machine.execMxmulg q u v w z d a b s
  | .mxzero q z d => Sys2Proof.Machine.execMxzero q z d s
  | .mxread q z d a => Sys2Proof.Machine.execMxread q z d a s
  | .mxwait d a => Sys2Proof.Machine.execMxwait d a s
  | .mxpoll d a => Sys2Proof.Machine.execMxpoll d a s
  | .spawn d a b => Sys2Proof.Machine.execSpawn d a b s
  | .reap a => Sys2Proof.Machine.execReap a s
  | .wake a => Sys2Proof.Machine.execWake a s
  | .wakeV n a b => Sys2Proof.Machine.execWakeV n a b s
  | .sleep d a => Sys2Proof.Machine.execSleep d a s
  | .hop d a => Sys2Proof.Machine.execHop d a s
  | .trap n => Sys2Proof.Machine.execTrap n s
  | .eretCtx a => Sys2Proof.Machine.execEretCtx a s
  | .mfs r d => Sys2Proof.Machine.execMfs r d s
  | .mts r a => Sys2Proof.Machine.execMts r a s
  | .sfrec d a => Sys2Proof.Machine.execSfrec d a s
  | .fltinfo imm d a => Sys2Proof.Machine.execFltinfo imm d a s
  | .cntrd d n => Sys2Proof.Machine.execCntrd d n s
  | .cntrdUnit u d => Sys2Proof.Machine.execCntrdUnit u d s
  | .cntcfg e n => Sys2Proof.Machine.execCntcfg e n s
  | .cntstop n => Sys2Proof.Machine.execCntstop n s
  | .lnch d a b => Sys2Proof.Machine.execLnch d a b s
  | .relnch d a b => Sys2Proof.Machine.execRelnch d a b s
  | .dtmark d a g => Sys2Proof.Machine.execDtmark d a g s
  | .dtwave d => Sys2Proof.Machine.execDtwave d s
  | .gtopen r d a => Sys2Proof.Machine.execGtopen r d a s
  | .gtsig v n h d a => Sys2Proof.Machine.execGtsig v n h d a s
  | .gtwait h d a => Sys2Proof.Machine.execGtwait h d a s
  | .gtpoll h d => Sys2Proof.Machine.execGtpoll h d s
  | .gtxfer g h d a b => Sys2Proof.Machine.execGtxfer g h d a b s
  | .gtclose h => Sys2Proof.Machine.execGtclose h s
  | .evreq g d a b => Sys2Proof.Machine.execEvreq g d a b s
  | .kinst g d a => Sys2Proof.Machine.execKinst g d a s
  | .cmpsw d a => Sys2Proof.Machine.execCmpsw d a s
  | .mov16 d a => Sys2Proof.Machine.execMov16 d a s
  | .add16 d a => Sys2Proof.Machine.execAdd16 d a s
  | .sub16 d a => Sys2Proof.Machine.execSub16 d a s
  | .and16 d a => Sys2Proof.Machine.execAnd16 d a s
  | .or16 d a => Sys2Proof.Machine.execOr16 d a s
  | .xor16 d a => Sys2Proof.Machine.execXor16 d a s
  | .ldi16 d imm => Sys2Proof.Machine.execLdi16 d imm s
  | .ldI6416 d a g => Sys2Proof.Machine.execLdI6416 d a g s
  | .stI6416 d a g => Sys2Proof.Machine.execStI6416 d a g s
  | .ldN3216 d a g => Sys2Proof.Machine.execLdN3216 d a g s
  | .stN3216 d a g => Sys2Proof.Machine.execStN3216 d a g s
  | .bz16 d p => Sys2Proof.Machine.execBz16 d p s
  | .bnz16 d p => Sys2Proof.Machine.execBnz16 d p s
  | .movF16 d a => Sys2Proof.Machine.execMovF16 d a s
  | .gydonLi => Sys2Proof.Machine.execGydonLi s
  | .gydonLhi => Sys2Proof.Machine.execGydonLhi s
  | .gydonMv => Sys2Proof.Machine.execGydonMv s
  | .gydonAdd => Sys2Proof.Machine.execGydonAdd s
  | .gydonSub => Sys2Proof.Machine.execGydonSub s
  | .gydonAnd => Sys2Proof.Machine.execGydonAnd s
  | .gydonOr => Sys2Proof.Machine.execGydonOr s
  | .gydonXor => Sys2Proof.Machine.execGydonXor s
  | .gydonShl => Sys2Proof.Machine.execGydonShl s
  | .gydonShr => Sys2Proof.Machine.execGydonShr s
  | .gydonLdb => Sys2Proof.Machine.execGydonLdb s
  | .gydonLdh => Sys2Proof.Machine.execGydonLdh s
  | .gydonLdw => Sys2Proof.Machine.execGydonLdw s
  | .gydonStw => Sys2Proof.Machine.execGydonStw s
  | .gydonBeq => Sys2Proof.Machine.execGydonBeq s
  | .gydonBne => Sys2Proof.Machine.execGydonBne s
  | .gydonBlt => Sys2Proof.Machine.execGydonBlt s
  | .gydonJmp => Sys2Proof.Machine.execGydonJmp s
  | .gydonTbl => Sys2Proof.Machine.execGydonTbl s
  | .gydonField => Sys2Proof.Machine.execGydonField s
  | .gydonEmit => Sys2Proof.Machine.execGydonEmit s
  | .gydonEmitH => Sys2Proof.Machine.execGydonEmitH s
  | .gydonOrig => Sys2Proof.Machine.execGydonOrig s
  | .gydonDone => Sys2Proof.Machine.execGydonDone s
  | .gydonFail => Sys2Proof.Machine.execGydonFail s
  | .gydonReadReply => Sys2Proof.Machine.execGydonReadReply s
  | .doneComplete => Sys2Proof.Machine.execDoneComplete s
  | .ret => Sys2Proof.Machine.execRet s
  | .exit => Sys2Proof.Machine.execExit s
  | .nop => Sys2Proof.Machine.execNop s
  | .decouple => Sys2Proof.Machine.execDecouple s
  | .gangArrival => Sys2Proof.Machine.execGangArrival s
  | .streamElementArrival => Sys2Proof.Machine.execStreamElementArrival s
  | .sfuRequestStart => Sys2Proof.Machine.execSfuRequestStart s
  | .returnToken => Sys2Proof.Machine.execReturnToken s
  | .drain => Sys2Proof.Machine.execDrain s
  | .stashFill => Sys2Proof.Machine.execStashFill s
  | .translationWalkEnd => Sys2Proof.Machine.execTranslationWalkEnd s
  | .migrationPullComplete => Sys2Proof.Machine.execMigrationPullComplete s
  | .loadReply => Sys2Proof.Machine.execLoadReply s
  | .storeComplete => Sys2Proof.Machine.execStoreComplete s
  | .remoteAccess => Sys2Proof.Machine.execRemoteAccess s
  | .atomicAtSlice => Sys2Proof.Machine.execAtomicAtSlice s
  | .atomicReply => Sys2Proof.Machine.execAtomicReply s
  | .revoke => Sys2Proof.Machine.execRevoke s
  | .farCopyInvalidation => Sys2Proof.Machine.execFarCopyInvalidation s
  | .sweepMarker => Sys2Proof.Machine.execSweepMarker s
  | .hioWrite => Sys2Proof.Machine.execHioWrite s
  | .roLineExpiry => Sys2Proof.Machine.execRoLineExpiry s
  | .trwaitDeadline => Sys2Proof.Machine.execTrwaitDeadline s
  | .flitArrival => Sys2Proof.Machine.execFlitArrival s
  | .channelProbeTimer => Sys2Proof.Machine.execChannelProbeTimer s
  | .channelProbe => Sys2Proof.Machine.execChannelProbe s
  | .channelConfirm => Sys2Proof.Machine.execChannelConfirm s
  | .copyJobStart => Sys2Proof.Machine.execCopyJobStart s
  | .copyBankWrite => Sys2Proof.Machine.execCopyBankWrite s
  | .copyGlobalWriteAccept => Sys2Proof.Machine.execCopyGlobalWriteAccept s
  | .copyJobFault => Sys2Proof.Machine.execCopyJobFault s
  | .copyJobComplete => Sys2Proof.Machine.execCopyJobComplete s
  | .gatewaySeed => Sys2Proof.Machine.execGatewaySeed s
  | .matrixJobStart => Sys2Proof.Machine.execMatrixJobStart s
  | .matrixJobComplete => Sys2Proof.Machine.execMatrixJobComplete s
  | .matrixJobFault => Sys2Proof.Machine.execMatrixJobFault s
  | .yield => Sys2Proof.Machine.execYield s
  | .sleepLimit => Sys2Proof.Machine.execSleepLimit s
  | .hopTargetRequest => Sys2Proof.Machine.execHopTargetRequest s
  | .hopImageArrival => Sys2Proof.Machine.execHopImageArrival s
  | .preempt => Sys2Proof.Machine.execPreempt s
  | .resume => Sys2Proof.Machine.execResume s
  | .inboxMessage => Sys2Proof.Machine.execInboxMessage s
  | .eret => Sys2Proof.Machine.execEret s
  | .handlerEntry => Sys2Proof.Machine.execHandlerEntry s
  | .leadRestart => Sys2Proof.Machine.execLeadRestart s
  | .dtforget => Sys2Proof.Machine.execDtforget s
  | .gateTableOperation => Sys2Proof.Machine.execGateTableOperation s
  | .gateReply => Sys2Proof.Machine.execGateReply s
  | .gateTransferComplete => Sys2Proof.Machine.execGateTransferComplete s
  | .gateRefillTick => Sys2Proof.Machine.execGateRefillTick s
  | .gateMigrationSend => Sys2Proof.Machine.execGateMigrationSend s
  | .gateMigrationArrival => Sys2Proof.Machine.execGateMigrationArrival s
  | .evidenceComplete => Sys2Proof.Machine.execEvidenceComplete s
  | .keyInstallComplete => Sys2Proof.Machine.execKeyInstallComplete s
  | .rotationSweepStep => Sys2Proof.Machine.execRotationSweepStep s
  | .exit16 => Sys2Proof.Machine.execExit16 s
  | .ret16 => Sys2Proof.Machine.execRet16 s
  | .launch => Sys2Proof.Machine.execLaunch s
  | .relaunch => Sys2Proof.Machine.execRelaunch s
  | .mark => Sys2Proof.Machine.execMark s
  | .markStore => Sys2Proof.Machine.execMarkStore s
  | .waitval => Sys2Proof.Machine.execWaitval s
  | .waitvalSatisfied => Sys2Proof.Machine.execWaitvalSatisfied s
  | .invalidPacket => Sys2Proof.Machine.execInvalidPacket s
  | .translationStart => Sys2Proof.Machine.execTranslationStart s
  | .launchAdmit => Sys2Proof.Machine.execLaunchAdmit s
  | .seedBlock => Sys2Proof.Machine.execSeedBlock s
  | .waveEnd => Sys2Proof.Machine.execWaveEnd s
  | .launchComplete => Sys2Proof.Machine.execLaunchComplete s
  | .uncorrectableError => Sys2Proof.Machine.execUncorrectableError s
  | .partitionReset => Sys2Proof.Machine.execPartitionReset s
  | .watchdogExpiry => Sys2Proof.Machine.execWatchdogExpiry s
  | .partitionEnable => Sys2Proof.Machine.execPartitionEnable s
  | .partitionDisable => Sys2Proof.Machine.execPartitionDisable s
  | .registerWrite => Sys2Proof.Machine.execRegisterWrite s
  | .pshoot => Sys2Proof.Machine.execPshoot s
  | .pshootComplete => Sys2Proof.Machine.execPshootComplete s
  | .pdrop => Sys2Proof.Machine.execPdrop s
  | .doorbellReissue => Sys2Proof.Machine.execDoorbellReissue s
  | .doorbellGiveUp => Sys2Proof.Machine.execDoorbellGiveUp s
  | .scrubTaggedRequest => Sys2Proof.Machine.execScrubTaggedRequest s
  | .scrubClearLine => Sys2Proof.Machine.execScrubClearLine s
  | .gateCreate => Sys2Proof.Machine.execGateCreate s
  | .gateChange => Sys2Proof.Machine.execGateChange s
  | .gateDestroy => Sys2Proof.Machine.execGateDestroy s
  | .gateMigrate => Sys2Proof.Machine.execGateMigrate s
  | .createCompartment => Sys2Proof.Machine.execCreateCompartment s
  | .setFrameTag => Sys2Proof.Machine.execSetFrameTag s
  | .readCertificate => Sys2Proof.Machine.execReadCertificate s
  | .firmwareUpdate => Sys2Proof.Machine.execFirmwareUpdate s
  | .thermalReading => Sys2Proof.Machine.execThermalReading s
  | .firmwareMessage => Sys2Proof.Machine.execFirmwareMessage s
  | .permitReturn => Sys2Proof.Machine.execPermitReturn s
  | .packageReset => Sys2Proof.Machine.execPackageReset s
  | .pcieLinkTraining => Sys2Proof.Machine.execPcieLinkTraining s
  | .linkPartnerDetect => Sys2Proof.Machine.execLinkPartnerDetect s
  | .linkProbeExchange => Sys2Proof.Machine.execLinkProbeExchange s
  | .linkTrainResult => Sys2Proof.Machine.execLinkTrainResult s
  | .linkFlitReceive => Sys2Proof.Machine.execLinkFlitReceive s
  | .linkRetrainRequest => Sys2Proof.Machine.execLinkRetrainRequest s
  | .illegalEncoding => Sys2Proof.Machine.execIllegalEncoding s
  | .fetchFault => Sys2Proof.Machine.execFetchFault s
  | .blockOperationComplete => Sys2Proof.Machine.execBlockOperationComplete s
  | .stashWriteBackAcknowledged => Sys2Proof.Machine.execStashWriteBackAcknowledged s
  | .sliceSumComplete => Sys2Proof.Machine.execSliceSumComplete s
  | .faultRingRegisterWrite => Sys2Proof.Machine.execFaultRingRegisterWrite s
  | .pstatRead => Sys2Proof.Machine.execPstatRead s
  | .linkLossOfLock => Sys2Proof.Machine.execLinkLossOfLock s

end Sys2Proof.Machine
end

