-- ==== Sys2Proof/Machine/Events.lean ====
section
/-! DEFINITION. The steps of the instruction table that no program issues: what an agent other than an issuing context does. -/

namespace Sys2Proof.Machine

/-- The steps of units, packets and the host, which only the agenda makes happen (log 1). The steps of an illegal encoding and of
a fetch fault belong to the issuing context. -/
def agentSteps : List Instr :=
  [.gydonReadReply, .doneComplete, .gangArrival, .streamElementArrival, .sfuRequestStart, .returnToken, .stashFill,
   .translationWalkEnd, .migrationPullComplete, .loadReply, .storeComplete, .remoteAccess, .atomicAtSlice,
   .atomicReply, .revoke, .farCopyInvalidation, .sweepMarker, .hioWrite, .roLineExpiry, .trwaitDeadline,
   .flitArrival, .channelProbeTimer, .channelProbe, .channelConfirm, .copyJobStart, .copyBankWrite,
   .copyGlobalWriteAccept, .copyJobFault, .copyJobComplete, .gatewaySeed, .matrixJobStart, .matrixJobComplete,
   .matrixJobFault, .sleepLimit, .hopTargetRequest, .hopImageArrival, .preempt, .resume, .inboxMessage,
   .handlerEntry, .leadRestart, .gateTableOperation, .gateReply, .gateTransferComplete, .gateRefillTick,
   .gateMigrationSend, .gateMigrationArrival, .evidenceComplete, .keyInstallComplete, .rotationSweepStep, .launch,
   .relaunch, .mark, .markStore, .waitval, .waitvalSatisfied, .invalidPacket, .translationStart, .launchAdmit,
   .seedBlock, .waveEnd, .launchComplete, .uncorrectableError, .partitionReset, .watchdogExpiry, .partitionEnable,
   .partitionDisable, .registerWrite, .pshoot, .pshootComplete, .pdrop, .doorbellReissue, .doorbellGiveUp,
   .scrubTaggedRequest, .scrubClearLine, .gateCreate, .gateChange, .gateDestroy, .gateMigrate, .createCompartment,
   .setFrameTag, .readCertificate, .firmwareUpdate, .thermalReading, .firmwareMessage, .permitReturn, .packageReset,
   .pcieLinkTraining, .linkPartnerDetect, .linkProbeExchange, .linkTrainResult, .linkFlitReceive,
   .linkRetrainRequest, .blockOperationComplete, .stashWriteBackAcknowledged, .sliceSumComplete,
   .faultRingRegisterWrite, .pstatRead, .linkLossOfLock]

/-- The instruction is a step of an agent. -/
def isAgentStep (i : Instr) : Bool := agentSteps.contains i

end Sys2Proof.Machine
end

