-- ==== Sys2Proof/Machine/Step.lean ====
section
/-! DEFINITION. One step of the package (log 1): a move of the agenda, or one cycle in which the focus core issues. -/

namespace Sys2Proof.Machine

/-- n cycles pass after what a step did. -/
def passAfter (n : Nat) : Host.Outcome State Fault Refusal → Host.Outcome State Fault Refusal
  | .next t => .next (t.pass n)
  | r => r

/-- The executing context fetches, decodes and executes one instruction (R59, R60, R66; 02 R26). -/
def runOne (s : State) : Host.Outcome State Fault Refusal :=
  if s.cur.gydonMode then
    match s.gydonFetch with
    | .ok (w, t) => exec (gydonInstr w) (t.latch w)
    | .error _ => exec .fetchFault s
  else
    match s.fetch with
    | .ok (w, len, t) => exec (nativeInstr w len) (t.latch w)
    | .error _ => exec .fetchFault s

/-- A pending token of the executing context is written, then its next instruction is executed (R275); a member of a gang whose instruction
the token has completed has none until the leader fetches the next one (R140). -/
def runCtx (s : State) : Host.Outcome State Fault Refusal :=
  match s.writeToken with
  | .ok t => if t.gangReady t.core t.ctx then runOne t else .next t
  | .error (.fault c sub addr keep) =>
    .next ((s.modCur fun k => { k with token := none }).takeFault s.core s.ctx c.code sub addr (.ofNat 64 s.cur.iword.toNat) keep)
  | .error (.park p w) => .next (s.parkCur p w)
  | .error (.held t) => .next t
  | .error (.trap _) => .next s

/-- Core g has one cycle: the lead's handler entry when it is due, then the first READY context issues (R266, R283). -/
def issue (s : State) (g : Nat) : Host.Outcome State Fault Refusal :=
  let s := s.enterHandler g
  match s.pick g with
  | some x => runCtx (s.startIssue g x)
  | none => .next s

/-- What a move of the agenda does. [log 1, DESIGN CHOICE] -/
def runMove (m : Move) (s : State) : Host.Outcome State Fault Refusal :=
  match m with
  | .issue g => passAfter 1 (issue { s with core := g } g)
  | .tick n => .next (s.pass n)
  | .event i e => if isAgentStep i then exec i { s with ev := e } else .next s
  | .corrected => .next { s with corrected := s.corrected + 1 }
  | .peer p r => .next (s.takePeer p r)
  | .hio port pa bytes sys => .next
      { s with hioQ := s.hioQ ++ [{ port := port, seq := s.hioSeq, pa := pa, bytes := bytes, sys := sys }], hioSeq := s.hioSeq + 1 }

/-- One step. After a boot ROM stop only a package reset happens (R448). [log 1, DESIGN CHOICE] -/
def step (s : State) : Host.Outcome State Fault Refusal :=
  match s.agenda with
  | [] => if s.booted.isNone then .fault .bootStopped else passAfter 1 (issue s s.core)
  | m :: r =>
    match s.booted, m with
    | none, .event .packageReset e => exec .packageReset { s with agenda := r, ev := e }
    | none, _ => .fault .bootStopped
    | some _, m => runMove m { s with agenda := r }

/-- The executing context is ready to fetch, in the 16 bytes of scratchpad from 0x0800. [log 2, DESIGN CHOICE] -/
def State.withNative (s : State) (w : Nat) : State :=
  let s := { s with agenda := [], core := 0, booted := some 0 }
  let s := s.modCore 0 fun c =>
    { c with lastIssuer := 15, tpend := 0, halted := false, away := none, pad := Memory.store c.pad 0x0800 16 w
             tiles := c.tiles.set 2 {} }
  s.modCtx 0 0 fun c =>
    { c with st := .run, notBefore := 0, yields := [], token := none, gang := none, gydonMode := false, pc := 0,
             sgb := c.sgb.set 0 0x0800, sgl := c.sgl.set 0 0x0104000000000010 }

/-- Context 15 of core 0 is ready to translate, with the halfword as its image, in a page that the port of its cluster holds. [log 2, DESIGN CHOICE] -/
def State.withGydon (s : State) (w : Nat) : State :=
  let s := { s with agenda := [], core := 0, booted := some 0 }
  let s := s.homeStore 16 0 none none none 8 w
  let x : Xlat := { l := 0, key := 0, xlen := 8, plen := 0, argl := 0, cap := 16, budget := 4096,
                    vImage := 0, vIn := 0, vArg := 0, vScr := 64, vOut := 8256, vMap := 8320 }
  let s := s.modPart 0 fun p => { p with en := true, base := 0, len := 1, xlat := some x }
  let s := s.modCluster 0 fun c =>
    { c with tlb := { part := 0, vpage := 0, big := false, pa := 0, r := true, w := true, x := true, unscr := false, leaf := 0 } :: c.tlb }
  let s : State := { s with tags := aset s.tags 0 { world := (s.part 0).world, comp := (s.ctxAt 0 15).comp } }
  let s := s.modCore 0 fun c => { c with lastIssuer := 14, tpend := 0, halted := false, away := none }
  s.modCtx 0 15 fun c =>
    { c with st := .run, notBefore := 0, yields := [], token := none, gang := none, gydonMode := true, role := .translator 0
             gyd := { c.gyd with pc := 0, meter := 4096 } }

/-- The state in which the next step fetches and runs the instruction whose bits are w (log 2): a Gydon halfword at the pc of a
translation, any other in the scratchpad that sg0 of the lead of core 0 names. -/
def State.withFetchWord (s : State) (nbits w : Nat) : State :=
  if nbits = 16 ∧ (decode16 (w % 2 ^ 16)).isNone ∧ (decodeGydon (w % 2 ^ 16)).isSome then s.withGydon (w % 2 ^ 16)
  else s.withNative (w % 2 ^ nbits)

end Sys2Proof.Machine
end

