-- ==== Sys2Proof/Safety.lean ====
section
/-! DEFINITION. What counts as a safe state, and the terms in which the statements are written. They are written from the manual's
own formulas, in the operations of integers and bit vectors, apart from the functions that the machine uses. -/

namespace Sys2Proof.Machine

/-- Every byte memory of the package is in canonical form: rising addresses, no cell that equals what an unlisted one reads as. -/
def State.memWf (s : State) : Bool :=
  s.mem.wf && s.cmdRing.wf && s.cores.all (fun c => c.2.pad.wf) && s.peers.all fun r => r.2.cores.all fun c => c.2.pad.wf

end Sys2Proof.Machine

namespace Sys2Proof.Spec

open Sys2Proof.Machine

/-! ### Values (R111) -/

/-- Val(x) of R111: the low bits of a double, signed for an I type, natural for an N type. -/
def val (t : Ty) (x : W) : Int :=
  if tySigned t then (x.setWidth (tyWidth t)).toInt else ((x.setWidth (tyWidth t)).toNat : Int)

/-- Put(v) of R111: v modulo 2^w, extended to 64 bits by the type (R70). -/
def put (t : Ty) (v : Int) : W :=
  if tySigned t then (BitVec.ofInt (tyWidth t) v).signExtend 64 else (BitVec.ofInt (tyWidth t) v).setWidth 64

/-- Bits(x) of R111 as a number. -/
def bits (t : Ty) (x : W) : Nat := (x.setWidth (tyWidth t)).toNat

/-! ### Operands (R72, R73) -/

/-- The full bits that the synchronised reads among the sources clear (R73). -/
def syncMask (srcs : List Src) : BitVec 16 := srcs.foldr (fun a m => if a.f then m ||| (1#16 <<< a.r.val) else m) 0

/-- No operand is a bound stream register, and every register that is read synchronously is full: the instruction neither parks on
its operands nor takes ESTREAM (R72, R73, R156). -/
structure Ready (s : State) (srcs : List Src) (dsts : List Reg) : Prop where
  /-- sources are no stream registers -/
  src : ∀ a ∈ srcs, s.cur.bound a.r = false
  /-- destinations are no stream registers -/
  dst : ∀ d ∈ dsts, s.cur.bound d = false
  /-- synchronised operands are full -/
  full : ∀ a ∈ srcs, a.f = true → s.cur.isFull a.r = true

/-- The context after it has read its operands: the full bits of the synchronised ones are cleared, and kept to be given back if the
instruction is abandoned (R73, R74). -/
def synced (c : Ctx) (srcs : List Src) : Ctx :=
  { c with full := c.full &&& ~~~(syncMask srcs), undo := { c.undo with full := c.undo.full ||| syncMask srcs } }

/-! ### Completion -/

/-- The state when an instruction completes that only reads registers: the full bits of its synchronised operands are cleared, the
pc moves on, the executing context is otherwise as `f` leaves it, and the instruction is counted (`Ctx.done`: R293 and R295 count
it, a scope clamp is entered, what was kept for a park is dropped). Nothing outside the executing context changes. -/
def completed (s : State) (srcs : List Src) (len : Nat) (f : Ctx → Ctx) : State :=
  s.modCur fun c => (f { c with full := c.full &&& ~~~(syncMask srcs), pc := c.pc + .ofNat 64 len }).done

/-- The same with a result written to gD, whose full bit is set (R73). -/
def wrote (s : State) (srcs : List Src) (d : Reg) (v : W) (len : Nat) : State :=
  completed s srcs len fun c => { c with g := c.g.set d v, full := c.full ||| (1#16 <<< d.val) }

/-- The same with the flags of a floating operation: they are only ever set (R83, R170). -/
def wroteF (s : State) (srcs : List Src) (d : Reg) (r : W × FFlags) : State :=
  completed s srcs 4 fun c => { c with g := c.g.set d r.1, full := c.full ||| (1#16 <<< d.val), fpc := c.fpc ||| r.2.bits }

/-- The state when an instruction has read its operands and its request is in flight: the context is parked with a reason, the pc is
the instruction's own, and `len` is what it will move on by. Nothing outside the executing context changes. -/
def asked (s : State) (srcs : List Src) (p : Park) (r : Req) (len : Nat) : State :=
  s.modCur fun c => { synced c srcs with st := .parked .agent, park := p, parkedAt := s.cycle, req := some r, step := len }

/-- The state when an instruction parks without effect, to be issued again when its wait is over (R73, R82). -/
def waits (s : State) (p : Park) (w : Wait) : State :=
  s.modCur fun c => { c with st := .parked w, park := p, parkedAt := s.cycle }

/-! ### Steps of agents -/

/-- A result can be written into gD of context x of core g now: the core is not saved and not stopped for it, the context is not being
reaped, its request is not set aside, and gD is no stream register (R155, R236, R275, R276, R283). -/
structure Deliverable (s : State) (g : Nat) (x : Fin 16) (d : Reg) : Prop where
  /-- the core is not saved by pre-emption -/
  home : (s.coreAt g).away = none
  /-- issue of the core has not stopped for a pre-emption -/
  going : (s.coreAt g).stopping = none
  /-- the context is not being reaped -/
  alive : (s.ctxAt g x).reaping = false
  /-- the request is not one that is set aside (R283) -/
  now : (s.ctxAt g x).later = false
  /-- the register is no stream register -/
  reg : (s.ctxAt g x).bound d = false

/-- The state when a reply has written gD of context x of core g, with flags, and its instruction has completed: the full bit of gD is
set, the pc has moved past the instruction and a parked context runs again (`Ctx.retire`). Nothing else changes. -/
def delivered (s : State) (g : Nat) (x : Fin 16) (d : Reg) (v : W) (flags : W := 0) (sfu : Bool := false) : State :=
  s.modCtx g x fun c => ((c.unitWrite flags sfu).setG d v).retire

end Sys2Proof.Spec
end

