-- ==== Sys2Proof/Certificates/Slice0/Obligations.lean ====
section
/-! DEFINITION. The statements about the package, for the provers. Each docstring says which rules of the manual it formalises. A
statement of the form "exec answers next of …" says that the instruction completes, what it leaves, and, since the state is given
whole, that nothing else changes. -/

open Sys2Proof Sys2Proof.Machine Sys2Proof.Spec

/-! ### Integer instructions (05) -/

/-- R113: ADD, SUB, RSUB, MUL, MULH and MULHN write Put of the exact result and wrap modulo 2^w; nothing traps, nothing else than
the destination, the full bits and the pc changes. -/
def Obligations.IntegerArithmetic : Prop :=
  ∀ (s : State) (t : Ty) (d : Reg) (a b : Src), Ready s [a, b] [d] →
    let x := s.g a.r
    let y := s.g b.r
    exec (.add t d a b) s = .next (wrote s [a, b] d (put t (val t x + val t y)) 4) ∧
    exec (.sub t d a b) s = .next (wrote s [a, b] d (put t (val t x - val t y)) 4) ∧
    exec (.rsub t d a b) s = .next (wrote s [a, b] d (put t (val t y - val t x)) 4) ∧
    exec (.mul t d a b) s = .next (wrote s [a, b] d (put t (val t x * val t y)) 4) ∧
    exec (.mulh t d a b) s = .next (wrote s [a, b] d (put t (val t x * val t y / 2 ^ tyWidth t)) 4) ∧
    exec (.mulhn t d a b) s = .next (wrote s [a, b] d (put t (val t x * val t y / 2 ^ tyWidth t)) 4)

/-- Number of zero bits above the highest 1 bit of a w-bit number, w for 0 (R115). -/
def Sys2Proof.Spec.zerosAbove (w x : Nat) : Nat := if x = 0 then w else w - 1 - Nat.log2 x

/-- Number of zero bits below the lowest 1 bit of a w-bit number, w for 0 (R115). -/
def Sys2Proof.Spec.zerosBelow (w x : Nat) : Nat := ((List.range w).find? fun i => x.testBit i).getD w

/-- Number of 1 bits of a w-bit number (R115). -/
def Sys2Proof.Spec.oneBits (w x : Nat) : Nat := (List.range w).countP fun i => x.testBit i

/-- A w-bit pattern with bit i moved to bit w − 1 − i (R115). -/
def Sys2Proof.Spec.reversed (w x : Nat) : Nat := ((List.range w).map fun i => if x.testBit i then 2 ^ (w - 1 - i) else 0).sum

/-- R114: the logical instructions work on all 64 bits, the shifts at width w with the count gB mod w. R115: bit counts, bit reversal, and
the bit fields of EXT and INS, cut off at bit 63. -/
def Obligations.LogicAndShifts : Prop :=
  (
  ∀ (s : State) (t : Ty) (d : Reg) (a b : Src), Ready s [a, b] [d] →
    let x := s.g a.r
    let y := s.g b.r
    let n := y.toNat % tyWidth t
    exec (.and d a b) s = .next (wrote s [a, b] d (x &&& y) 4) ∧
    exec (.or d a b) s = .next (wrote s [a, b] d (x ||| y) 4) ∧
    exec (.xor d a b) s = .next (wrote s [a, b] d (x ^^^ y) 4) ∧
    exec (.andn d a b) s = .next (wrote s [a, b] d (x &&& ~~~y) 4) ∧
    exec (.mov d a) s = .next (wrote s [a] d x 4) ∧
    exec (.shl t d a b) s = .next (wrote s [a, b] d (put t (val t x * 2 ^ n)) 4) ∧
    (tySigned t = false → exec (.shr t d a b) s = .next (wrote s [a, b] d (.ofNat 64 (bits t x / 2 ^ n)) 4)) ∧
    (tySigned t = true → exec (.sar t d a b) s = .next (wrote s [a, b] d (put t (val t x / 2 ^ n)) 4)) ∧
    exec (.rol t d a b) s =
      .next (wrote s [a, b] d (put t (((bits t x * 2 ^ n + bits t x / 2 ^ (tyWidth t - n)) % 2 ^ tyWidth t : Nat))) 4)) ∧
  (
  ∀ (s : State) (t : Ty) (d : Reg) (a b : Src), Ready s [a, b] [d] →
    let x := s.g a.r
    let lo := (s.g b.r).toNat % 64
    let n := min (min ((s.g b.r).toNat / 256 % 128) 64) (64 - lo)
    exec (.clz t d a) s = .next (wrote s [a] d (.ofNat 64 (zerosAbove (tyWidth t) (bits t x))) 4) ∧
    exec (.ctz t d a) s = .next (wrote s [a] d (.ofNat 64 (zerosBelow (tyWidth t) (bits t x))) 4) ∧
    exec (.popc t d a) s = .next (wrote s [a] d (.ofNat 64 (oneBits (tyWidth t) (bits t x))) 4) ∧
    exec (.brev t d a) s = .next (wrote s [a] d (put t (reversed (tyWidth t) (bits t x) : Nat)) 4) ∧
    exec (.ext false d a b) s = .next (wrote s [a, b] d ((x.extractLsb' lo n).setWidth 64) 4) ∧
    exec (.ext true d a b) s = .next (wrote s [a, b] d ((x.extractLsb' lo n).signExtend 64) 4) ∧
    (∃ v, exec (.ins d a b) s = .next (wrote s [a, b] d v 4) ∧
      ∀ i, i < 64 → v.getLsbD i = if lo ≤ i ∧ i < lo + n then x.getLsbD (i - lo) else (s.g d).getLsbD i))

/-- R116: minimum, maximum, the SET results 0 and 1, and SEL, which reads gD as its condition. -/
def Obligations.CompareAndSelect : Prop :=
  ∀ (s : State) (t : Ty) (d : Reg) (a b : Src), Ready s [a, b] [d] →
    let x := s.g a.r
    let y := s.g b.r
    exec (.min t d a b) s = .next (wrote s [a, b] d (put t (if val t x ≤ val t y then val t x else val t y)) 4) ∧
    exec (.minn t d a b) s = .next (wrote s [a, b] d (put t (if val t x ≤ val t y then val t x else val t y)) 4) ∧
    exec (.max t d a b) s = .next (wrote s [a, b] d (put t (if val t x ≤ val t y then val t y else val t x)) 4) ∧
    exec (.maxn t d a b) s = .next (wrote s [a, b] d (put t (if val t x ≤ val t y then val t y else val t x)) 4) ∧
    exec (.seteq t d a b) s = .next (wrote s [a, b] d (if bits t x = bits t y then 1 else 0) 4) ∧
    exec (.setne t d a b) s = .next (wrote s [a, b] d (if bits t x = bits t y then 0 else 1) 4) ∧
    exec (.setlt t d a b) s = .next (wrote s [a, b] d (if val t x < val t y then 1 else 0) 4) ∧
    exec (.setltn t d a b) s = .next (wrote s [a, b] d (if val t x < val t y then 1 else 0) 4) ∧
    exec (.setge t d a b) s = .next (wrote s [a, b] d (if val t x < val t y then 0 else 1) 4) ∧
    exec (.setgen t d a b) s = .next (wrote s [a, b] d (if val t x < val t y then 0 else 1) 4) ∧
    exec (.sel d a b) s = .next (wrote s [a, b] d (if s.g d = 0 then y else x) 4)

/-- The sources that a memory operand reads: its index register, if it has one (R64). -/
def Sys2Proof.Spec.indexOf (o : MOff) : List Src := match o.idx with | some a => [a] | none => []

/-- The segment offset of a memory operand whose unit is a number of bytes (R64). -/
def Sys2Proof.Spec.offsetOf (s : State) (o : MOff) (unit : Nat) : W :=
  (match o.idx with | some a => s.g a.r | none => 0) + o.disp.signExtend 64 * .ofNat 64 unit

/-- R117 and R84: the second operand is the constant-window entry, the 64-bit word of the scratchpad at 8 × C8. R118 to R120: LDI, LDHI and
LEA; LEA adds the segment base and checks nothing. -/
def Obligations.ConstantsAndAddresses : Prop :=
  (
  ∀ (s : State) (t : Ty) (d : Reg) (a : Src) (c : Fin 256), Ready s [a] [d] →
    let x := s.g a.r
    let y : W := .ofNat 64 (Memory.load s.here.pad (8 * c.val) 8)
    let n := y.toNat % tyWidth t
    exec (.addConst t d a c) s = .next (wrote s [a] d (put t (val t x + val t y)) 4) ∧
    exec (.rsubConst t d a c) s = .next (wrote s [a] d (put t (val t y - val t x)) 4) ∧
    exec (.mulConst t d a c) s = .next (wrote s [a] d (put t (val t x * val t y)) 4) ∧
    exec (.andConst d a c) s = .next (wrote s [a] d (x &&& y) 4) ∧
    exec (.orConst d a c) s = .next (wrote s [a] d (x ||| y) 4) ∧
    exec (.xorConst d a c) s = .next (wrote s [a] d (x ^^^ y) 4) ∧
    exec (.shlConst t d a c) s = .next (wrote s [a] d (put t (val t x * 2 ^ n)) 4) ∧
    (tySigned t = false → exec (.shrConst t d a c) s = .next (wrote s [a] d (.ofNat 64 (bits t x / 2 ^ n)) 4))) ∧
  (
  ∀ (s : State) (d : Reg),
    (∀ i : BitVec 21, Ready s [] [d] → exec (.ldi d i) s = .next (wrote s [] d (i.signExtend 64) 4)) ∧
    (∀ i : BitVec 21, Ready s [] [d] → exec (.ldhi d i) s = .next (wrote s [] d (s.g d <<< 21 + i.setWidth 64) 4)) ∧
    (∀ (z : SSz) (o : MOff), Ready s (indexOf o) [d] →
      exec (.lea z d o) s = .next (wrote s (indexOf o) d (s.cur.sgb[o.sg] + offsetOf s o (sszBytes z)) 4)))

/-- R90: each 16-bit form that names registers only has the effect of the 32-bit instruction it stands for, and is two bytes long;
the 16-bit MOV with a synchronised read clears the full bit of its source. -/
def Obligations.SixteenBitForms : Prop :=
  ∀ (s : State) (d a : Reg),
    (Ready s [⟨a, false⟩] [d] →
      exec (.mov16 d a) s = .next (wrote s [] d (s.g a) 2) ∧
      exec (.add16 d a) s = .next (wrote s [] d (s.g d + s.g a) 2) ∧
      exec (.sub16 d a) s = .next (wrote s [] d (s.g d - s.g a) 2) ∧
      exec (.and16 d a) s = .next (wrote s [] d (s.g d &&& s.g a) 2) ∧
      exec (.or16 d a) s = .next (wrote s [] d (s.g d ||| s.g a) 2) ∧
      exec (.xor16 d a) s = .next (wrote s [] d (s.g d ^^^ s.g a) 2)) ∧
    (∀ i : BitVec 7, Ready s [] [d] → exec (.ldi16 d i) s = .next (wrote s [] d (i.signExtend 64) 2)) ∧
    (Ready s [⟨a, true⟩] [d] → exec (.movF16 d a) s = .next (wrote s [⟨a, true⟩] d (s.g a) 2))
/-! ### Packed lanes (07 R144 to R148) -/

/-- Lane i of a double at a type's width (R144). -/
def Sys2Proof.Spec.laneBits (t : Ty) (x : W) (i : Nat) : BitVec (tyWidth t) := x.extractLsb' (tyWidth t * i) (tyWidth t)

/-- Val of lane i (R144). -/
def Sys2Proof.Spec.laneInt (t : Ty) (x : W) (i : Nat) : Int :=
  if tySigned t then (laneBits t x i).toInt else ((laneBits t x i).toNat : Int)

/-- Sat of R144 at n bits: signed for an I type, natural for an N type. -/
def Sys2Proof.Spec.clampTo (t : Ty) (n : Nat) (v : Int) : Int :=
  if tySigned t then max (-(2 ^ (n - 1))) (min (2 ^ (n - 1) - 1) v) else max 0 (min (2 ^ n - 1) v)

/-- The instruction writes gD lane by lane: PutLane(i, f i), but for the lanes that a masked form leaves out, which keep gD's old
contents (R144, R145). -/
def Sys2Proof.Spec.WritesLanes (s : State) (i : Instr) (srcs : List Src) (m : Bool) (t : Ty) (d : Reg) (f : Nat → Int) : Prop :=
  ∃ v, exec i s = .next (wrote s srcs d v 4) ∧ ∀ j, j < 64 / tyWidth t →
    laneBits t v j = if m = true ∧ (s.cur.k[(0 : Fin 4)]).getLsbD j = false then laneBits t (s.g d) j else BitVec.ofInt (tyWidth t) (f j)

/-- A packed compare writes kD alone: bit i is the condition for lane i < L, the bits from L to 7 are 0 (R147). -/
def Sys2Proof.Spec.WritesMask (s : State) (i : Instr) (srcs : List Src) (k : Reg) (f : Nat → Bool) : Prop :=
  ∃ v, exec i s = .next (completed s srcs 4 fun c => { c with k := c.k.set (Fin.ofNat 4 k.val) v }) ∧ ∀ j, j < 8 → v.getLsbD j = f j

/-- The lanes over which a sum runs: all, or those whose k0 bit is 1 (R145, R148). -/
def Sys2Proof.Spec.summed (s : State) (m : Bool) (l : List Nat) (f : Nat → Int) : Int :=
  ((l.filter fun i => !m || (s.cur.k[(0 : Fin 4)]).getLsbD i).map f).sum

/-- R144 to R146: the packed instructions of major 0x10, lane by lane; saturation clamps, a shift count of w or more shifts the lane out,
and under `.m` the lanes whose k0 bit is 0 keep their contents. R147 and R148: packed compares, selection by k0, PSHUF, PPACK, PUNPK, PMAC,
PHADD and PSAD. -/
def Obligations.PackedLanes : Prop :=
  (
  ∀ (s : State) (m : Bool) (t : Ty) (d : Reg) (a b : Src), Ready s [a, b] [d] → t ∈ [Ty.i32, .i16, .i8, .n32, .n16, .n8] →
    let x := laneInt t (s.g a.r)
    let y := laneInt t (s.g b.r)
    let n := fun i => (laneBits t (s.g b.r) i).toNat
    let w := tyWidth t
    WritesLanes s (.padd m t d a b) [a, b] m t d (fun i => x i + y i) ∧
    WritesLanes s (.psub m t d a b) [a, b] m t d (fun i => x i - y i) ∧
    WritesLanes s (.padds m t d a b) [a, b] m t d (fun i => clampTo t w (x i + y i)) ∧
    WritesLanes s (.psubs m t d a b) [a, b] m t d (fun i => clampTo t w (x i - y i)) ∧
    WritesLanes s (.pmul m t d a b) [a, b] m t d (fun i => x i * y i) ∧
    WritesLanes s (.pmulh m t d a b) [a, b] m t d (fun i => x i * y i / 2 ^ w) ∧
    WritesLanes s (.pmin m t d a b) [a, b] m t d (fun i => if x i ≤ y i then x i else y i) ∧
    WritesLanes s (.pmax m t d a b) [a, b] m t d (fun i => if x i ≤ y i then y i else x i) ∧
    WritesLanes s (.pavg m t d a b) [a, b] m t d (fun i => (x i + y i + 1) / 2) ∧
    (tySigned t = true → WritesLanes s (.pabs m t d a) [a] m t d (fun i => clampTo t w (if x i < 0 then -x i else x i))) ∧
    WritesLanes s (.pshl m t d a b) [a, b] m t d (fun i => if n i < w then x i * 2 ^ n i else 0) ∧
    WritesLanes s (.pshr m t d a b) [a, b] m t d
      (fun i => if n i < w then x i / 2 ^ n i else if tySigned t ∧ x i < 0 then -1 else 0)) ∧
  (
  ∀ (s : State) (m : Bool) (t : Ty) (d k : Reg) (a b : Src), Ready s [a, b] [d] → t ∈ [Ty.i32, .i16, .i8, .n32, .n16, .n8] →
    let w := tyWidth t
    let lanes := 64 / w
    let x := laneInt t (s.g a.r)
    let y := laneInt t (s.g b.r)
    let k0 := s.cur.k[(0 : Fin 4)]
    WritesMask s (.pcmpEq t k a b) [a, b] k (fun i => decide (i < lanes ∧ x i = y i)) ∧
    WritesMask s (.pcmpNe t k a b) [a, b] k (fun i => decide (i < lanes ∧ x i ≠ y i)) ∧
    WritesMask s (.pcmpLt t k a b) [a, b] k (fun i => decide (i < lanes ∧ x i < y i)) ∧
    WritesMask s (.pcmpGe t k a b) [a, b] k (fun i => decide (i < lanes ∧ y i ≤ x i)) ∧
    (∃ v, exec (.psel t d a b) s = .next (wrote s [a, b] d v 4) ∧
      ∀ i, i < lanes → laneBits t v i = if k0.getLsbD i then laneBits t (s.g a.r) i else laneBits t (s.g b.r) i) ∧
    (∃ v, exec (.pshuf d a b) s = .next (wrote s [a, b] d v 4) ∧
      ∀ j, j < 8 → let c := (s.g b.r).extractLsb' (8 * j) 8
        v.extractLsb' (8 * j) 8 = if c.getLsbD 7 then 0#8 else (s.g a.r).extractLsb' (8 * (c.toNat % 8)) 8) ∧
    (t ∈ [Ty.i16, .i32, .n16, .n32] → ∃ v, exec (.ppack t d a b) s = .next (wrote s [a, b] d v 4) ∧
      ∀ i, i < lanes → v.extractLsb' (w / 2 * i) (w / 2) = BitVec.ofInt (w / 2) (clampTo t (w / 2) (x i)) ∧
        v.extractLsb' (w / 2 * (lanes + i)) (w / 2) = BitVec.ofInt (w / 2) (clampTo t (w / 2) (y i))) ∧
    (∃ v, exec (.punpkLo t d a) s = .next (wrote s [a] d v 4) ∧
      ∀ i, i < lanes / 2 → v.extractLsb' (2 * w * i) (2 * w) = BitVec.ofInt (2 * w) (x i)) ∧
    (∃ v, exec (.punpkHi t d a) s = .next (wrote s [a] d v 4) ∧
      ∀ i, i < lanes / 2 → v.extractLsb' (2 * w * i) (2 * w) = BitVec.ofInt (2 * w) (x (lanes / 2 + i))) ∧
    (t ∈ [Ty.i8, .i16, .n8, .n16] → ∃ v, exec (.pmac m t d a b) s = .next (wrote s [a, b] d v 4) ∧
      ∀ j, j < 2 → v.extractLsb' (32 * j) 32 = if m = true ∧ k0.getLsbD j = false then (s.g d).extractLsb' (32 * j) 32
        else (s.g d).extractLsb' (32 * j) 32
          + BitVec.ofInt 32 (((List.range (lanes / 2)).map fun i => x (lanes / 2 * j + i) * y (lanes / 2 * j + i)).sum)) ∧
    exec (.phadd m t d a b) s = .next (wrote s [a, b] d (s.g b.r + BitVec.ofInt 64 (summed s m (List.range lanes) x)) 4) ∧
    (t ∈ [Ty.i8, .i16, .n8, .n16] → exec (.psad m t d a b) s =
      .next (wrote s [a, b] d (BitVec.ofInt 64 (summed s m (List.range lanes) fun i => ((x i - y i).natAbs : Int))) 4)))
/-! ### Floating point (08) -/

/-- A floating result as the register takes it: the pattern, with zeros above (R173), and its flags. -/
def Sys2Proof.Spec.pattern (r : FRes) : W × FFlags := (.ofNat 64 r.1, r.2)

/-- R173 to R176: the scalar floating instructions write the pattern of the format's operation under FPC.RM and FPC.FZ, with zeros above,
and set FPC flags that stay set; FFMA also reads gD; FABS and FNEG change the sign bit and set no flag; FCMP writes 0 or 1. -/
def Obligations.ScalarFloat : Prop :=
  ∀ (s : State) (t z : Ty) (o : Bool) (d : Reg) (a b : Src), Ready s [a, b] [d] →
    let v := fenv t s.cur.fpc
    let x := bits t (s.g a.r)
    let y := bits t (s.g b.r)
    let truth := fun (r : Bool × FFlags) => ((if r.1 then (1 : W) else 0), r.2)
    exec (.fadd t d a b) s = .next (wroteF s [a, b] d (pattern (v.add x y))) ∧
    exec (.fsub t d a b) s = .next (wroteF s [a, b] d (pattern (v.sub x y))) ∧
    exec (.fmul t d a b) s = .next (wroteF s [a, b] d (pattern (v.mul x y))) ∧
    exec (.ffma t d a b) s = .next (wroteF s [a, b] d (pattern (v.fma x y (bits t (s.g d))))) ∧
    exec (.fmin t d a b) s = .next (wroteF s [a, b] d (pattern (v.pickOf false x y))) ∧
    exec (.fmax t d a b) s = .next (wroteF s [a, b] d (pattern (v.pickOf true x y))) ∧
    exec (.fabs t d a) s = .next (wrote s [a] d (.ofNat 64 (x % 2 ^ (tyWidth t - 1))) 4) ∧
    exec (.fneg t d a) s = .next (wrote s [a] d (.ofNat 64 (x ^^^ 2 ^ (tyWidth t - 1))) 4) ∧
    exec (.fcmpEq t d a b) s = .next (wroteF s [a, b] d (truth (v.cmp .eq x y))) ∧
    exec (.fcmpLt t d a b) s = .next (wroteF s [a, b] d (truth (v.cmp .lt x y))) ∧
    exec (.fcmpLe t d a b) s = .next (wroteF s [a, b] d (truth (v.cmp .le x y))) ∧
    exec (.fcmpUn t d a b) s = .next (wroteF s [a, b] d (truth (v.cmp .un x y))) ∧
    exec (.frnd t d a) s = .next (wroteF s [a] d (pattern (v.rnd x))) ∧
    exec (.fclass t d a) s = .next (wrote s [a] d (.ofNat 64 (classBits (fmtOf t) x)) 4) ∧
    exec (.fcvt o t z d a) s = .next (wroteF s [a] d (convert o t z s.cur.fpc (s.g a.r)))

/-- The instruction delivers, in each lane, the pattern of an operation, but for the lanes that a masked form leaves out, which keep gD's
old contents and set no flag; the flags of the other lanes are set together (R178). -/
def Sys2Proof.Spec.WritesFloatLanes (s : State) (i : Instr) (srcs : List Src) (m : Bool) (t : Ty) (d : Reg) (f : Nat → FRes) : Prop :=
  let on := fun j => !m || (s.cur.k[(0 : Fin 4)]).getLsbD j
  let lanes := List.range (64 / tyWidth t)
  ∃ r : W × FFlags, exec i s = .next (wroteF s srcs d r) ∧
    (∀ j, j < 64 / tyWidth t → laneBits t r.1 j = if on j then BitVec.ofNat (tyWidth t) (f j).1 else laneBits t (s.g d) j) ∧
    (r.2.nv = lanes.any fun j => on j && (f j).2.nv) ∧ (r.2.dz = lanes.any fun j => on j && (f j).2.dz) ∧
    (r.2.ov = lanes.any fun j => on j && (f j).2.ov) ∧ (r.2.uf = lanes.any fun j => on j && (f j).2.uf) ∧
    (r.2.nx = lanes.any fun j => on j && (f j).2.nx)

/-- R178, R179 and R185: PFADD, PFMUL, PFMAX and PFFMA work in every lane as the scalar instruction does; PFCVT converts lanes; DSEXP writes
8 times each DS8 weight as four I16 lanes. -/
def Obligations.PackedFloat : Prop :=
  ∀ (s : State) (m o : Bool) (t z : Ty) (d : Reg) (a b : Src), Ready s [a, b] [d] →
    let v := fenv t s.cur.fpc
    let x := fun i => (laneBits t (s.g a.r) i).toNat
    let y := fun i => (laneBits t (s.g b.r) i).toNat
    let c := fun i => (laneBits t (s.g d) i).toNat
    (t ∈ [Ty.f32, .f16, .bf16] →
      WritesFloatLanes s (.pfadd m t d a b) [a, b] m t d (fun i => v.add (x i) (y i)) ∧
      WritesFloatLanes s (.pfmul m t d a b) [a, b] m t d (fun i => v.mul (x i) (y i)) ∧
      WritesFloatLanes s (.pfmax m t d a b) [a, b] m t d (fun i => v.pickOf true (x i) (y i)) ∧
      WritesFloatLanes s (.pffma m t d a b) [a, b] m t d (fun i => v.fma (x i) (y i) (c i))) ∧
    (pfcvtUsesB t z = true →
      exec (.pfcvt o t z d a b) s = .next (wroteF s [a, b] d (packedConvert o t z s.cur.fpc (s.g a.r) (s.g b.r)))) ∧
    (pfcvtUsesB t z = false →
      exec (.pfcvt o t z d a b) s = .next (wroteF s [a] d (packedConvert o t z s.cur.fpc (s.g a.r) (s.g b.r)))) ∧
    (∃ r, exec (.dsexp o d a) s = .next (wrote s [a] d r 4) ∧ ∀ j, j < 4 →
      r.extractLsb' (16 * j) 16 = BitVec.ofInt 16 (ds8Eighths ((s.g a.r).extractLsb' (8 * ((if o then 4 else 0) + j)) 8).toNat))

/-- A block operand is good: in range, aligned, and its tiles, if any, READY and not in stash mode (R181). -/
def Sys2Proof.Spec.GoodBlock (s : State) (a : W) (n align lo : Nat) : Prop :=
  lo ≤ a.toNat ∧ a.toNat + n ≤ 0x6000 ∧ a.toNat % align = 0 ∧
    ∀ i, i < n → 0x0800 ≤ a.toNat + i → (s.here.tileAt (a.toNat + i)).stash = none ∧ (s.here.tileAt (a.toNat + i)).st = .ready

/-- The 64 bytes of the block at a scratchpad address (R167). -/
def Sys2Proof.Spec.blockAt (s : State) (a : W) : List Byte := Memory.bytes s.here.pad a.toNat 64

/-- The block that BADDQ writes, with its flags: Requant of the 62 exact sums; a reserved source block sets NV
(R168, R182, R183). -/
def Sys2Proof.Spec.blockSum (t : Ty) (p q : List Byte) : List Byte × FFlags :=
  let sums := (List.range 62).map fun i => (blockElem p i).add 0 (blockElem q i)
  let r := requant t none (sums.map (·.1))
  let fl := sums.foldl (fun f v => f.or v.2) r.2
  (r.1, { fl with nv := fl.nv || blockReserved p || blockReserved q })

/-- The block that BQUANT writes, with its flags: Requant of 62 F32 values under the scale byte that gB[7:0] gives where gB[8] is 1
(R182, R183). -/
def Sys2Proof.Spec.blockOf (t : Ty) (s : State) (a b : W) : List Byte × FFlags :=
  let vs := (List.range 62).map fun i => (fmtOf .f32).decode false (Memory.load s.here.pad (a.toNat + 4 * i) 4)
  let r := requant t (if b.getLsbD 8 then some (bitsOf b 0 8) else none) vs
  (r.1, vs.foldl (fun f v => f.or v.sigFlag) r.2)

/-- A block operation completes in two steps: the context parks with its block computed, and BLOCK_OPERATION_COMPLETE for it writes the
64 bytes, sets the flags and moves the context on by 4 (R181, R186). -/
def Sys2Proof.Spec.WritesBlock (s : State) (i : Instr) (srcs : List Src) (d : Nat) (r : List Byte × FFlags) : Prop :=
  r.1.length = 64 ∧ exec i s = .next (asked s srcs s.cur.park (.block d r.1 r.2.bits) 4) ∧
  ∃ u, exec .blockOperationComplete { asked s srcs s.cur.park (.block d r.1 r.2.bits) 4 with ev := { g := s.core, x := s.ctx.val } } = .next u ∧
    (∀ i (h : i < r.1.length), Memory.byte u.here.pad (d + i) = r.1[i]) ∧
    (∀ j, j < d ∨ d + 64 ≤ j → Memory.byte u.here.pad j = Memory.byte s.here.pad j) ∧
    u.cur.fpc = s.cur.fpc ||| r.2.bits ∧ u.cur.pc = s.cur.pc + 4 ∧ u.cur.st = .run ∧ u.cur.req = none ∧ u.cur.g = s.cur.g

/-- R168 and R181 to R186: with good operands BADDQ and BQUANT read their sources and park until the operation completes; then the block
of R182 and R183 stands at gD's address, its flags are set, no other byte of the scratchpad changes and the context goes on; BDESC writes
the type, the scale, the count and the width of the block at gA, and sets NV for a reserved type. What
the manual leaves open here is settled by log 20 (the park reason that the context keeps while the operation runs), by log 104 (its sources are
read at its issue) and by logs 105 to 107 (values of elements and blocks that no format states). -/
def Obligations.BlockOperations : Prop :=
  (∀ (s : State) (t : Ty) (d : Reg) (a b : Src), Ready s [a, b] [d] → GoodBlock s (s.g d) 64 64 0x0800 →
    (GoodBlock s (s.g a.r) 64 64 0 → GoodBlock s (s.g b.r) 64 64 0 →
      WritesBlock s (.baddq t d a b) [a, b] (s.g d).toNat (blockSum t (blockAt s (s.g a.r)) (blockAt s (s.g b.r)))) ∧
    (GoodBlock s (s.g a.r) 248 8 0 → WritesBlock s (.bquant t d a b) [a, b] (s.g d).toNat (blockOf t s (s.g a.r) (s.g b.r)))) ∧
  (∀ (s : State) (d : Reg) (a : Src), Ready s [a] [d] → GoodBlock s (s.g a.r) 64 64 0 →
    let ty := Memory.load s.here.pad (s.g a.r).toNat 1
    let scale := Memory.load s.here.pad ((s.g a.r).toNat + 1) 1
    let known := decide (ty ∈ [0x00, 0x03, 0x04, 0x13, 0x14, 0x15])
    let width := if ty = 0x04 then 4 else if ty ≠ 0 ∧ known then 8 else 0
    exec (.bdesc d a) s =
      .next (wroteF s [a] d (.ofNat 64 (width * 2 ^ 24 + (if known then 62 else 0) * 2 ^ 16 + scale * 2 ^ 8 + ty), { nv := !known }))) ∧
  (∀ (s : State) (w : Wait) (d : Nat) (bs : List Byte) (fl : W),
    let g := s.ev.g
    let x := ctxNo s.ev.x
    (s.ctxAt g x).st = .parked w → (s.ctxAt g x).req = some (.block d bs fl) →
    ∃ t, exec .blockOperationComplete s = .next t ∧
      (∀ i (h : i < bs.length), Memory.byte (t.coreAt g).pad (d + i) = bs[i]) ∧
      (∀ j, j < d ∨ d + bs.length ≤ j → Memory.byte (t.coreAt g).pad j = Memory.byte (s.coreAt g).pad j) ∧
      t.ctxAt g x = Ctx.retire { s.ctxAt g x with fpc := (s.ctxAt g x).fpc ||| fl } ∧
      (∀ y, y ≠ x → t.ctxAt g y = s.ctxAt g y) ∧ (∀ h, h ≠ g → t.coreAt h = s.coreAt h) ∧ t.mem = s.mem)

/-! ### The divide and special-function unit (R121, 09) -/

/-- The state when an operation has been sent to the quad's unit, with its operands and FPC.RM: the request takes its place by age in the
quad's queue and the context is parked, SFU (R189, R192). -/
def Sys2Proof.Spec.sfuAsked (s : State) (srcs : List Src) (d : Reg) (op : SfuOp) (t : Ty) (x y : W) : State :=
  let e : SfuReq := { core := s.core, ctx := s.ctx.val, issued := s.cycle, lat := sfuLatency op t }
  (asked s srcs .sfu (.sfu d op t x y (s.cur.fpc.toNat % 4) false) 4).modQuad (quadOf s.core) fun q =>
    { q with queue := q.queue.filter (fun k => !e.older k) ++ e :: q.queue.filter e.older, issued := q.issued + 1 }

/-- The state after the token of a started request of core g has left its unit: it is the one token of its cycle (R192). -/
def Sys2Proof.Spec.sfuLeft (s : State) (g : Nat) (e : SfuReq) : State :=
  s.modQuad (quadOf g) fun q => { q with busy := q.busy.erase e, done := q.done + 1, returned := s.cycle + 1 }

/-- The quotient of R121: rounded to zero, all ones for a divisor of zero, wrapping for the most negative dividend over −1. -/
def Sys2Proof.Spec.quotient (t : Ty) (a b : W) : W :=
  if val t b = 0 then put t (2 ^ tyWidth t - 1) else put t ((val t a).tdiv (val t b))

/-- The remainder of R121: with the dividend's sign, the dividend itself for a divisor of zero. -/
def Sys2Proof.Spec.remainder (t : Ty) (a b : W) : W :=
  if val t b = 0 then put t (val t a) else put t ((val t a).tmod (val t b))

/-- R121, R189: DIV, DIVN, REM, REMN and the special functions read their operands, join the quad's queue and park, SFU. R192, R193: a
quad's unit starts its oldest request, in the cycle of its issue or in the first one after it in which nothing else starts, and the request's
token is due a fixed number of cycles later. R121, R192,
R194: the oldest token that is due, one in a cycle, writes gD with its flags and the context goes on. A quotient and a remainder are those of
R121; an F32 special function that is not exact is a free choice between its two neighbours (log 11), whatever it is. -/
def Obligations.SfuRequests : Prop :=
  (
  (∀ (s : State) (t : Ty) (d : Reg) (a b : Src), Ready s [a, b] [d] →
    let x := s.g a.r
    let y := s.g b.r
    exec (.div t d a b) s = .next (sfuAsked s [a, b] d .div t x y) ∧
    exec (.divn t d a b) s = .next (sfuAsked s [a, b] d .div t x y) ∧
    exec (.rem t d a b) s = .next (sfuAsked s [a, b] d .rem t x y) ∧
    exec (.remn t d a b) s = .next (sfuAsked s [a, b] d .rem t x y) ∧
    exec (.sfdiv t d a b) s = .next (sfuAsked s [a, b] d .fdiv t x y)) ∧
  (∀ (s : State) (t : Ty) (d : Reg) (a : Src), Ready s [a] [d] →
    let x := s.g a.r
    exec (.srcp t d a) s = .next (sfuAsked s [a] d .rcp t x 0) ∧
    exec (.srsq t d a) s = .next (sfuAsked s [a] d .rsq t x 0) ∧
    exec (.ssqrt t d a) s = .next (sfuAsked s [a] d .sqrt t x 0) ∧
    exec (.sexp2 t d a) s = .next (sfuAsked s [a] d .exp2 t x 0) ∧
    exec (.slog2 t d a) s = .next (sfuAsked s [a] d .log2 t x 0) ∧
    exec (.ssin t d a) s = .next (sfuAsked s [a] d .sin t x 0) ∧
    exec (.scos t d a) s = .next (sfuAsked s [a] d .cos t x 0) ∧
    exec (.stanh t d a) s = .next (sfuAsked s [a] d .tanh t x 0))) ∧
  (
  (∀ (s : State) (q : Quad) (e : SfuReq) (r : List SfuReq) (d : Reg) (op : SfuOp) (t : Ty) (a b : W) (rm : Nat) (st : Bool),
    let n := Nat.max e.issued q.started
    s.quadAt s.ev.g = q → q.queue = e :: r → n ≤ s.cycle → s.oldestOf e = true → e.ctx < 16 →
    (s.ctxAt e.core (ctxNo e.ctx)).req = some (.sfu d op t a b rm st) → (s.ctxAt e.core (ctxNo e.ctx)).aside = none →
    exec .sfuRequestStart s = .next ((s.setQuad s.ev.g
        { q with queue := r, busy := q.busy ++ [{ e with due := n + e.lat }], started := n + 1 }).modCtx e.core (ctxNo e.ctx)
      fun c => { c with req := some (.sfu d op t a b rm true) })) ∧
  (∀ (s : State) (q : Quad) (e : SfuReq) (r : List SfuReq), s.quadAt s.ev.g = q → q.queue = e :: r → s.cycle < Nat.max e.issued q.started →
    exec .sfuRequestStart s = .next s) ∧
  (∀ (s : State) (e : SfuReq) (d : Reg) (op : SfuOp) (t : Ty) (a b : W) (rm : Nat),
    let g := s.ev.g
    let x := s.ev.x
    (s.quadAt (quadOf g)).tokenOf s.cycle g x s.tokenWaits = some e → x < 16 →
    (s.ctxAt g (ctxNo x)).req = some (.sfu d op t a b rm true) → (s.ctxAt g (ctxNo x)).aside = none → Deliverable s g (ctxNo x) d →
    (op = .div → exec .returnToken s = .next (delivered (sfuLeft s g e) g (ctxNo x) d (quotient t a b) 0 true)) ∧
    (op = .rem → exec .returnToken s = .next (delivered (sfuLeft s g e) g (ctxNo x) d (remainder t a b) 0 true)) ∧
    (op ≠ .div → op ≠ .rem →
      let r := sfuResult op t rm a b (Config.sfuPick s.freeCnt)
      exec .returnToken s = .next (delivered { sfuLeft s g e with freeCnt := if r.2.2 then s.freeCnt + 1 else s.freeCnt } g (ctxNo x) d
        r.1 r.2.1.bits true))))

/-! ### Operands: synchronised reads and streams (R72 to R74, R150 to R158) -/

/-- Operands that are no stream registers, of which a synchronised one is not full. -/
structure Sys2Proof.Spec.NotFull (s : State) (srcs : List Src) (dsts : List Reg) : Prop where
  /-- sources are no stream registers -/
  src : ∀ a ∈ srcs, s.cur.bound a.r = false
  /-- destinations are no stream registers -/
  dst : ∀ d ∈ dsts, s.cur.bound d = false
  /-- a synchronised operand is not full -/
  empty : ∃ a ∈ srcs, a.f = true ∧ s.cur.isFull a.r = false

/-- The registers that an instruction reads synchronously, each once. -/
def Sys2Proof.Spec.syncRegs (srcs : List Src) : List Reg := ((srcs.filter (·.f)).map (·.r)).eraseDups

/-- R73: an instruction with a synchronised operand whose full bit is 0 parks, FULL, and has no effect; it may issue again exactly when
every such operand is full. Instructions of the formats R, K, M, B and X show it: of M, an access whose index is read synchronously. -/
def Obligations.SynchronisedReadParks : Prop :=
  (∀ (s : State) (t : Ty) (d : Reg) (a b : Src), NotFull s [a, b] [d] →
    let w := waits s .full (.full (syncRegs [a, b]))
    exec (.add t d a b) s = .next w ∧ exec (.and d a b) s = .next w ∧ exec (.setlt t d a b) s = .next w ∧
    exec (.fadd t d a b) s = .next w ∧ exec (.padd false t d a b) s = .next w ∧ exec (.div t d a b) s = .next w ∧
    exec (.pcmpEq t d a b) s = .next w) ∧
  (∀ (s : State) (t : Ty) (d : Reg) (a : Src) (c : Fin 256), NotFull s [a] [d] →
    exec (.addConst t d a c) s = .next (waits s .full (.full (syncRegs [a])))) ∧
  (∀ (s : State) (d : Reg) (o : MOff) (a : Src), o.idx = some a →
    let w := waits s .full (.full (syncRegs [a]))
    (NotFull s [a] [d] → ∀ (z : LSz) (y : SSz),
      exec (.ld z d o) s = .next w ∧ exec (.ldro z d o) s = .next w ∧ exec (.lea y d o) s = .next w) ∧
    (NotFull s [a, ⟨d, false⟩] [] → ∀ z : SSz, exec (.st z d o) s = .next w)) ∧
  (∀ (s : State) (a b : Src) (p : BitVec 11), NotFull s [a, b] [] →
    exec (.beq a b p) s = .next (waits s .full (.full (syncRegs [a, b])))) ∧
  (∀ (s : State) (a : Src), NotFull s [a] [] → exec (.jmpr a) s = .next (waits s .full (.full (syncRegs [a])))) ∧
  (∀ (s : State) (g : Nat) (x : Fin 16) (rs : List Reg), (s.ctxAt g x).st = .parked (.full rs) →
    (s.active g x = true ↔ ∀ r ∈ rs, (s.ctxAt g x).isFull r = true))

/-- The register of a stream port (R150). -/
def Sys2Proof.Spec.streamReg (p : Fin 4) : Reg := ⟨8 + p.val, by omega⟩

/-- A context that has taken an element: it stands in the stream register, the port is one element further on, event 10 is counted
(R155). -/
def Sys2Proof.Spec.popped (c : Ctx) (p : Fin 4) (v : W) : Ctx :=
  ({ c with ports := c.ports.set p (c.ports[p]).advance }.setG (streamReg p) v).bump 10 1

/-- A local access of n bytes at a segment offset that passes every check of R78, and its address. -/
structure Sys2Proof.Spec.LocalAccess (s : State) (sg : Fin 8) (o : W) (n : Nat) (rights : List Right) (addr : Nat) : Prop where
  /-- a local segment -/
  kind : segKind s.cur.sgl[sg] = 1
  /-- within the limit -/
  limit : o.toNat + n ≤ bitsOf s.cur.sgl[sg] 0 48
  /-- with the rights -/
  right : ∀ q ∈ rights, s.cur.sgl[sg].getLsbD q.bit = true
  /-- within the scratchpad -/
  pad : s.cur.sgb[sg].toNat + o.toNat + n ≤ 0x6000
  /-- the address: base plus offset -/
  eq : addr = (s.cur.sgb[sg] + o).toNat
  /-- aligned -/
  aligned : addr % n = 0

/-- The bytes at a local address may be accessed: the constant window, or a tile that is READY and not in stash mode (R201). -/
def Sys2Proof.Spec.TileOpen (s : State) (addr : Nat) : Prop :=
  addr < 0x0800 ∨ ((s.here.tileAt addr).stash = none ∧ (s.here.tileAt addr).st = .ready)

/-- R155 and R156 for a source, by MOV and ADD: reading a register bound to a read stream takes the next element; with none there yet the
instruction parks, STREAM; with none left it raises ESTREAM 4; a synchronised read of a stream raises 5, a read of a write stream 6. R155
and R156 for a destination, by MOV: a register bound to a write stream takes no value of its own accord: the value is stored as the next
element, the port moves on, event 10 is counted; with none left ESTREAM 4; a destination bound to a read stream raises 6. That the register
itself shows all 64 bits of a pushed value is the model's choice (log 102). -/
def Obligations.StreamOperands : Prop :=
  (
  ∀ (s : State) (t : Ty) (d : Reg) (p : Fin 4) (b : Reg), (s.cur.ports[p]).bound = true → s.cur.bound d = false → s.cur.bound b = false →
    let q := s.cur.ports[p]
    let a : Src := ⟨streamReg p, false⟩
    let fault := fun (sub : Nat) => s.takeFault s.core s.ctx 11 sub 0 (.ofNat 64 s.cur.iword.toNat)
    (∀ v r, q.writes = false → q.remain ≠ 0 → q.ahead = .val v :: r →
      exec (.mov d a) s = .next (s.modCur fun c => (((popped c p v).setG d v).advance 4).done) ∧
      exec (.add t d a ⟨b, false⟩) s =
        .next (s.modCur fun c => (((popped c p v).setG d (put t (val t v + val t (s.g b)))).advance 4).done)) ∧
    (q.writes = false → q.remain ≠ 0 → q.ahead = [] →
      exec (.mov d a) s = .next (waits s .stream (.element p.val)) ∧ exec (.add t d a ⟨b, false⟩) s = .next (waits s .stream (.element p.val))) ∧
    (q.writes = false → q.remain = 0 → exec (.mov d a) s = .next (fault 4) ∧ exec (.add t d a ⟨b, false⟩) s = .next (fault 4)) ∧
    (exec (.mov d ⟨streamReg p, true⟩) s = .next (fault 5) ∧ exec (.add t d ⟨streamReg p, true⟩ ⟨b, false⟩) s = .next (fault 5)) ∧
    (q.writes = true → exec (.mov d a) s = .next (fault 6) ∧ exec (.add t d a ⟨b, false⟩) s = .next (fault 6))) ∧
  (
  ∀ (s : State) (p : Fin 4) (a : Reg), (s.cur.ports[p]).bound = true → s.cur.bound a = false →
    let q := s.cur.ports[p]
    let d := streamReg p
    let fault := fun (sub : Nat) => s.takeFault s.core s.ctx 11 sub 0 (.ofNat 64 s.cur.iword.toNat)
    (q.writes = true → q.remain ≠ 0 → ∀ addr, LocalAccess s q.sg (q.offset q.i0 q.i1) (szBytes q.sz) [.w] addr → TileOpen s addr →
      0x0800 ≤ addr →
      exec (.mov d ⟨a, false⟩) s = .next ((s.padStore s.core addr (szBytes q.sz) ((s.g a).toNat % 2 ^ (8 * szBytes q.sz))).modCur fun c =>
        ((({ c with ports := c.ports.set p q.advance }.setG d (s.g a)).bump 10 1).advance 4).done)) ∧
    (q.writes = true → q.remain = 0 → exec (.mov d ⟨a, false⟩) s = .next (fault 4)) ∧
    (q.writes = false → exec (.mov d ⟨a, false⟩) s = .next (fault 6)))

/-- An element as the SZ code extends it (R63, R152). -/
def Sys2Proof.Spec.elementValue (z n : Nat) : W :=
  let w := 8 * 2 ^ (z % 4)
  if 4 ≤ z then (BitVec.ofNat w n).signExtend 64 else (BitVec.ofNat w n).setWidth 64

/-- R154: SCFG reads the descriptor from a local segment, or leaves a request to read it from memory; SBIND, SSTOP and SCNT; SCFG and SBIND
on a bound port raise ESTREAM 1, SBIND on one that is not configured raises 2. R155, R157: a bound read stream fetches elements ahead of
the program, at most 8 and no more than remain; one from a local segment is the element after those that are there, and a context that
waits for it may issue again. -/
def Obligations.Streams : Prop :=
  (
  ∀ (s : State) (k : Reg) (p : Fin 4), p = Fin.ofNat 4 k.val →
    let q := s.cur.ports[p]
    let fault := fun (sub : Nat) => s.takeFault s.core s.ctx 11 sub 0 (.ofNat 64 s.cur.iword.toNat)
    (∀ (sg : Fin 8) (a : Src), Ready s [a] [] → q.bound = false →
      (∀ addr, LocalAccess s sg (s.g a.r) 32 [.r] addr → TileOpen s addr → streamDescOk (Memory.load s.here.pad addr 32) = true →
        let d := Memory.load s.here.pad addr 32
        exec (.scfg sg a k) s = .next (completed s [a] 4 fun c =>
          { c with ports := c.ports.set p { cfg := true, desc := d, remain := natBits d 64 16 * natBits d 80 16 } })) ∧
      (∀ addr, s.seg sg (s.g a.r) 32 32 [.r] = .ok (false, addr) → s.here.stashAt s.cur.comp addr = none → s.cur.giveUp ≠ some (addr / 65536) →
        s.held s.core addr = none → exec (.scfg sg a k) s = .next (asked s [a] .mem (.desc p.val addr .walk) 4))) ∧
    (∀ (sg : Fin 8) (a : Src), Ready s [a] [] → q.bound = true → exec (.scfg sg a k) s = .next (fault 1)) ∧
    (q.bound = true → exec (.sbind k) s = .next (fault 1)) ∧
    (q.bound = false → q.cfg = false → exec (.sbind k) s = .next (fault 2)) ∧
    (q.bound = false → q.cfg = true →
      exec (.sbind k) s = .next (completed s [] 4 fun c => { c with ports := c.ports.set p { q with bound := true, ahead := [], gone := none, page := none } })) ∧
    (q.bound = true → exec (.sstop k) s = .next (completed s [] 4 fun c =>
      { c with ports := c.ports.set p { q with bound := false, ahead := [], gone := none, page := none }, full := c.full ||| (1#16 <<< (8 + p.val)) })) ∧
    (q.bound = false → exec (.sstop k) s = .next (completed s [] 4 id)) ∧
    (∀ d : Reg, Ready s [] [d] → exec (.scnt d k) s = .next (wrote s [] d (.ofNat 64 q.remain) 4))) ∧
  (
  (∀ (s : State) (p : Fin 4),
    let g := s.ev.g
    let x := ctxNo s.ev.x
    let f := s.focus g x
    let q := (s.ctxAt g x).ports[p]
    (s.ctxAt g x).st ≠ .free → (s.coreAt g).away = none → p = Fin.ofNat 4 s.ev.n → q.bound = true → q.writes = false → q.ahead.length < 8 → q.ahead.length < q.remain →
    ∀ addr, (let i := q.skip q.ahead.length (q.i0, q.i1)
             LocalAccess f q.sg (q.offset i.1 i.2) (szBytes q.sz) [.r] addr) → TileOpen f addr →
      let e := Elem.val (elementValue q.sz (Memory.load (s.coreAt g).pad addr (szBytes q.sz)))
      exec .streamElementArrival s =
        .next (s.modCtx g x fun c => { c with ports := c.ports.set p { q with ahead := q.ahead ++ [e], gone := none, page := none } })) ∧
  (∀ (s : State) (g : Nat) (x : Fin 16) (p : Fin 4), (s.ctxAt g x).st = .parked (.element p.val) →
    (s.active g x = true ↔ ((s.ctxAt g x).ports[p]).ahead ≠ [])))

/-! ### Control flow (06) -/

/-- No member of the executing context's gang has completed the current instruction with another outcome or target (R141). -/
def Sys2Proof.Spec.Agrees (s : State) (taken : Bool) (pc : W) : Prop :=
  ∀ first n m o, s.cur.gang = some (first, n) → m ∈ s.members s.core first n → m ≠ s.core → (s.ctxAt m s.ctx).gang = some (first, n) →
    (s.ctxAt m s.ctx).gout = some o → o = (taken, pc)

/-- A coupled context notes the outcome and the target of its transfer, for the members that complete the instruction later (R141). -/
def Sys2Proof.Spec.noted (s : State) (taken : Bool) (pc : W) : State :=
  s.modCur fun c => { c with gout := if c.gang.isSome then some (taken, pc) else c.gout }

/-- The state when a control transfer completes: the pc is the target. -/
def Sys2Proof.Spec.jumped (s : State) (srcs : List Src) (pc : W) : State := completed s srcs 0 fun c => { c with pc := pc }

/-- The instruction goes to the target when the condition holds, else to the next instruction; whichever it is, a coupled context whose
gang has gone another way parts from it first (R126, R141). -/
def Sys2Proof.Spec.BranchesTo (s : State) (i : Instr) (srcs : List Src) (taken : Bool) (pc : W) : Prop :=
  (Agrees s taken pc → exec i s = .next (jumped (noted s taken pc) srcs pc)) ∧
  (¬Agrees s taken pc → exec i s = .next (jumped ((noted s taken pc).partGang s.core s.ctx) srcs pc))

/-- R126 to R129, R90: conditional branches compare all 64 bits or a mask; displacements count halfwords from the instruction itself;
JMPR goes to a register's value, and raises EALIGN when it is odd; NOP only moves on. -/
def Obligations.Branches : Prop :=
  (∀ (s : State) (a b : Src) (p : BitVec 11), Ready s [a, b] [] →
    let x := s.g a.r
    let y := s.g b.r
    let goes := fun (i : Instr) (srcs : List Src) (c : Bool) => BranchesTo s i srcs c (if c then s.cur.pc + 2 * p.signExtend 64 else s.cur.pc + 4)
    goes (.beq a b p) [a, b] (decide (x = y)) ∧
    goes (.bne a b p) [a, b] (decide (x ≠ y)) ∧
    goes (.blt a b p) [a, b] (decide (x.toInt < y.toInt)) ∧
    goes (.bge a b p) [a, b] (decide (y.toInt ≤ x.toInt)) ∧
    goes (.bltn a b p) [a, b] (decide (x.toNat < y.toNat)) ∧
    goes (.bgen a b p) [a, b] (decide (y.toNat ≤ x.toNat)) ∧
    goes (.bz a p) [a] (decide (x = 0)) ∧
    goes (.bnz a p) [a] (decide (x ≠ 0))) ∧
  (∀ (s : State) (k : Reg) (p : BitVec 11),
    let m := s.cur.k[Fin.ofNat 4 k.val]
    let goes := fun (i : Instr) (c : Bool) => BranchesTo s i [] c (if c then s.cur.pc + 2 * p.signExtend 64 else s.cur.pc + 4)
    goes (.bany k p) (decide (m ≠ 0)) ∧ goes (.ball k p) (decide (m = 0xFF))) ∧
  (∀ (s : State) (d : Reg) (p : BitVec 7), Ready s [⟨d, false⟩] [] →
    let goes := fun (i : Instr) (c : Bool) => BranchesTo s i [] c (if c then s.cur.pc + 2 * p.signExtend 64 else s.cur.pc + 2)
    goes (.bz16 d p) (decide (s.g d = 0)) ∧ goes (.bnz16 d p) (decide (s.g d ≠ 0))) ∧
  (∀ (s : State) (p : BitVec 25), BranchesTo s (.jmp p) [] true (s.cur.pc + 2 * p.signExtend 64)) ∧
  (∀ (s : State) (a : Src), Ready s [a] [] →
    ((s.g a.r).toNat % 2 = 0 → BranchesTo s (.jmpr a) [a] true (s.g a.r)) ∧
    ((s.g a.r).toNat % 2 = 1 →
      exec (.jmpr a) s = .next (s.takeFault s.core s.ctx 6 0 (s.g a.r).toNat (.ofNat 64 s.cur.iword.toNat)))) ∧
  (∀ s : State, exec .nop s = .next (completed s [] 4 id))

/-- The state when a call completes: the return address on top of the stack, the pc at the target (R132). -/
def Sys2Proof.Spec.called (s : State) (srcs : List Src) (ret target : W) : State :=
  completed s srcs 0 fun c => { c with rstk := ret :: c.rstk.take 7, pc := target }

/-- The reply to a request of the executing context arrives, as the event LOAD_REPLY for it. -/
def Sys2Proof.Spec.replied (s : State) : State := { s with ev := { g := s.core, x := s.ctx.val } }

/-- R128, R129, R132 to R134, R90: CALL and CALLR push pc + 4 and go to the target; a full stack of 8 first spills its oldest entry to offset
8 × SC of sg7, for which the context parks, MEM, and counts it in SC; RET takes the top of the stack, or with no entry left in the hardware
the spilled one, for which it parks too. A return goes to an even pc, which for a filled one is the model's choice (log 91). R133, R136, R269: EXIT,
and RET with nothing to return to, end the context: it waits, DRAIN, while a store of it is buffered; then it is FREE with nothing
left of it but its general registers, and is counted no more; the lead raises ECTX instead. -/
def Obligations.CallsReturnsAndEnds : Prop :=
  (
  (∀ s : State, s.cur.rstk.length < 8 →
    (∀ p : BitVec 25, let target := s.cur.pc + 2 * p.signExtend 64
      Agrees s true target → exec (.call p) s = .next (called (noted s true target) [] (s.cur.pc + 4) target)) ∧
    (∀ a : Src, Ready s [a] [] → (s.g a.r).toNat % 2 = 0 → Agrees s true (s.g a.r) →
      exec (.callr a) s = .next (called (noted s true (s.g a.r)) [a] (s.cur.pc + 4) (s.g a.r)))) ∧
  (∀ (s : State) (p : BitVec 25) (addr : Nat), s.cur.rstk.length = 8 → let target := s.cur.pc + 2 * p.signExtend 64
    0x0800 ≤ addr → LocalAccess s 7 (.ofNat 64 (8 * s.cur.sc)) 8 [.w] addr → TileOpen s addr →
      let t := asked s [] .mem (.spill (s.cur.pc + 4) target addr .here) 4
      exec (.call p) s = .next t ∧
      (s.here.frozen = false → ∃ u, exec .loadReply (replied t) = .next u ∧ u.cur.rstk = (s.cur.pc + 4) :: s.cur.rstk.take 7 ∧ u.cur.sc = s.cur.sc + 1 ∧
        u.cur.pc = target ∧ u.cur.st = .run ∧ u.cur.g = s.cur.g ∧ Memory.load u.here.pad addr 8 = (s.cur.rstk.getLastD 0).toNat ∧
        ∀ b, b < addr ∨ addr + 8 ≤ b → Memory.byte u.here.pad b = Memory.byte s.here.pad b)) ∧
  (∀ (s : State) (v : W) (r : List W), s.cur.rstk = v :: r →
    let w : W := .ofNat 64 (v.toNat / 2 * 2)
    Agrees s true w →
    exec .ret s = .next (completed (noted s true w) [] 0 fun c => { c with rstk := r, pc := w }) ∧
    exec .ret16 s = .next (completed (noted s true w) [] 0 fun c => { c with rstk := r, pc := w })) ∧
  (∀ (s : State) (addr : Nat), s.cur.rstk = [] → s.cur.sc ≠ 0 → LocalAccess s 7 (.ofNat 64 (8 * (s.cur.sc - 1))) 8 [.r] addr →
    TileOpen s addr →
      let t := fun n => asked s [] .mem (.fill addr .here) n
      exec .ret s = .next (t 4) ∧ exec .ret16 s = .next (t 2) ∧
      ∀ n, s.here.frozen = false → ∃ u, exec .loadReply (replied (t n)) = .next u ∧ u.cur.sc = s.cur.sc - 1 ∧
        u.cur.pc = .ofNat 64 (Memory.load s.here.pad addr 8 / 2 * 2) ∧ u.cur.st = .run ∧ u.cur.g = s.cur.g ∧ u.here.pad = s.here.pad)) ∧
  (
  (∀ s : State, s.ctx ≠ 0 → s.here.storesOf s.ctx.val = false →
    let e := s.endCtx s.core s.ctx false
    let t := (e.1.wakeRecouple 1024 e.2).modCur Ctx.done
    exec .exit s = .next t ∧ exec .exit16 s = .next t ∧
    (s.cur.rstk = [] → s.cur.sc = 0 → exec .ret s = .next t ∧ exec .ret16 s = .next t) ∧
    e.1.ctxAt s.core s.ctx = { g := (s.ctxAt s.core s.ctx).g } ∧
    (∀ y, y ≠ s.ctx → (∀ d a b, (s.ctxAt s.core y).req ≠ some (.trwait d a b)) → (e.1.ctxAt s.core y).g = (s.ctxAt s.core y).g)) ∧
  (∀ s : State, s.ctx ≠ 0 → s.here.storesOf s.ctx.val = true →
    exec .exit s = .next (waits s .drain .drained) ∧ exec .exit16 s = .next (waits s .drain .drained)) ∧
  (∀ s : State, s.ctx = 0 →
    let t := s.takeFault s.core s.ctx 20 0 0 (.ofNat 64 s.cur.iword.toNat)
    exec .exit s = .next t ∧ exec .exit16 s = .next t))

/-- R137: the mask operations; a mask from a general register is its low byte, a general register from a mask is zero-extended. -/
def Obligations.Masks : Prop :=
  ∀ (s : State) (d a b : Reg),
    let m := fun (r : Reg) => s.cur.k[Fin.ofNat 4 r.val]
    let set := fun (srcs : List Src) (v : BitVec 8) => completed s srcs 4 fun c => { c with k := c.k.set (Fin.ofNat 4 d.val) v }
    exec (.kand d a b) s = .next (set [] (m a &&& m b)) ∧
    exec (.kor d a b) s = .next (set [] (m a ||| m b)) ∧
    exec (.kxor d a b) s = .next (set [] (m a ^^^ m b)) ∧
    exec (.knot d a) s = .next (set [] (~~~m a)) ∧
    exec (.kmov d a) s = .next (set [] (m a)) ∧
    (∀ x : Src, Ready s [x] [] → exec (.kmovFromG d x) s = .next (set [x] ((s.g x.r).setWidth 8))) ∧
    (Ready s [] [d] → exec (.kmovToG d a) s = .next (wrote s [] d ((m a).setWidth 64) 4))

/-- R139, R142: COUPLE and RECOUPLE check their conditions and wait for the others, GANG; the arrival of the last member forms the gang: gD of
each is its rank, each is coupled in the gang and goes on. R141: DECOUPLE parts the gang in every member; in a context
that is not coupled it only moves on, which is the model's choice (log 96). -/
def Obligations.Gangs : Prop :=
  (∀ (s : State) (d : Reg) (a : Src), Ready s [a] [d] →
    let n := (s.g a.r).toNat
    let p := s.coreIndex s.core
    let first := p - p % n
    let ecx := s.takeFault s.core s.ctx 20 0 0 (.ofNat 64 s.cur.iword.toNat)
    (n ∈ [2, 4, 8, 16, 32, 64] → s.cur.gang = none → s.ctx ≠ 0 → first + n ≤ s.coreCount s.core →
      dieOf (s.coreNo s.core first) = dieOf (s.coreNo s.core (first + n - 1)) →
      exec (.couple d a) s = .next (asked s [a] .gang (.gang d false first n) 4)) ∧
    ((n ∉ [2, 4, 8, 16, 32, 64] ∨ s.cur.gang ≠ none ∨ s.ctx = 0) → exec (.couple d a) s = .next ecx)) ∧
  (∀ (s : State) (d : Reg), Ready s [] [d] →
    (∀ first n, s.cur.gang = none → s.cur.gangOld = some (first, n) → s.cur.gangLost = false →
      exec (.recouple d) s = .next (asked s [] .gang (.gang d true first n) 4)) ∧
    ((s.cur.gang ≠ none ∨ s.cur.gangOld = none ∨ s.cur.gangLost = true) →
      exec (.recouple d) s = .next (s.takeFault s.core s.ctx 20 0 0 (.ofNat 64 s.cur.iword.toNat)))) ∧
  (∀ s : State, ∃ t, exec .decouple s = .next t ∧ t.cur.pc = s.cur.pc + 4 ∧ t.cur.g = s.cur.g ∧
    ∀ first n m, s.cur.gang = some (first, n) → m ∈ s.members s.core first n → (s.ctxAt m s.ctx).gang = some (first, n) →
      (t.ctxAt m s.ctx).gang = none ∧ (t.ctxAt m s.ctx).g = (s.ctxAt m s.ctx).g) ∧
  (∀ (s : State) (w : Nat → Wait) (d : Nat → Reg) (re : Nat → Bool) (first n i : Nat),
    let g := s.ev.g
    let x := ctxNo s.ev.x
    let m := fun j => s.coreNo g (first + j)
    0 < n → n ≤ 64 → i < n → g = m i → (∀ j, j < n → s.coreNo (m j) first = m 0) →
    (∀ j, j < n → (s.ctxAt (m j) x).st = .parked (w j) ∧ (s.ctxAt (m j) x).req = some (.gang (d j) (re j) first n (decide (j ≠ i))) ∧
      (s.ctxAt (m j) x).pc = (s.ctxAt g x).pc ∧ s.launchFor (m j) x = s.launchFor g x ∧ Deliverable s (m j) x (d j)) →
    (∀ j, n ≤ j → j < 64 → (s.ctxAt (m j) x).req = none) →
    ∃ t, exec .gangArrival s = .next t ∧ ∀ j, j < n →
      (t.ctxAt (m j) x).gang = some (first, n) ∧ (t.ctxAt (m j) x).gangOld = some (first, n) ∧ (t.ctxAt (m j) x).st = .run ∧
      (t.ctxAt (m j) x).g = ((s.ctxAt (m j) x).g).set (d j) (.ofNat 64 j) ∧
      (t.ctxAt (m j) x).pc = (s.ctxAt (m j) x).pc + .ofNat 64 (s.ctxAt (m j) x).step)

/-! ### Loads and stores (10) -/

/-- A loaded number as the access size extends it (R63). -/
def Sys2Proof.Spec.loadValue (z : LSz) (n : Nat) : W :=
  match z with
  | .n8 => (BitVec.ofNat 8 n).setWidth 64
  | .n16 => (BitVec.ofNat 16 n).setWidth 64
  | .n32 => (BitVec.ofNat 32 n).setWidth 64
  | .n64 => BitVec.ofNat 64 n
  | .i8 => (BitVec.ofNat 8 n).signExtend 64
  | .i16 => (BitVec.ofNat 16 n).signExtend 64
  | .i32 => (BitVec.ofNat 32 n).signExtend 64

/-- A global access of n bytes, to be aligned to `al`, at a segment offset that passes every check of R78, and its address. -/
structure Sys2Proof.Spec.GlobalAccess (s : State) (sg : Fin 8) (o : W) (n al : Nat) (rights : List Right) (addr : Nat) : Prop where
  /-- a global segment -/
  kind : segKind s.cur.sgl[sg] = 0
  /-- within the limit -/
  limit : o.toNat + n ≤ bitsOf s.cur.sgl[sg] 0 48
  /-- with the rights -/
  right : ∀ q ∈ rights, s.cur.sgl[sg].getLsbD q.bit = true
  /-- the address: base plus offset -/
  eq : addr = (s.cur.sgb[sg] + o).toNat
  /-- aligned -/
  aligned : addr % al = 0
  /-- 48 bits -/
  top : addr < 2 ^ 48

/-- The translation that an access of the executing context leaves with: one that the port holds and that grants it, or a walk to come;
its page has not been given up (R198, R290). -/
def Sys2Proof.Spec.Translation (s : State) (addr : Nat) (need : Need) (xl : Xl) : Prop :=
  s.cur.giveUp ≠ some (addr / 65536) ∧
    ((s.held s.core addr = none ∧ xl = .walk) ∨
      ∃ e pa, s.held s.core addr = some e ∧ s.grant s.core s.cur.comp addr need e = .ok pa e ∧ xl = .ready pa)

/-- R199 to R201, R90: a local load writes the extended bytes of the scratchpad, after TileGate; its address is the segment base plus the
index register plus the displacement in units of the access size. R200, R202, R206, R90: a global load is served by the core when the data
cache or buffered stores hold its bytes; else it parks, MEM, with its request and its translation. LDRO always parks and needs a global
segment. PREF completes whatever its access meets. -/
def Obligations.Loads : Prop :=
  (
  (∀ (s : State) (z : LSz) (d : Reg) (o : MOff) (addr : Nat), Ready s (indexOf o) [d] →
    LocalAccess s o.sg (offsetOf s o (lszBytes z)) (lszBytes z) [.r] addr →
    (TileOpen s addr → exec (.ld z d o) s = .next (wrote s (indexOf o) d (loadValue z (Memory.load s.here.pad addr (lszBytes z))) 4)) ∧
    (0x0800 ≤ addr → (s.here.tileAt addr).stash = none → (s.here.tileAt addr).st ≠ .ready →
      exec (.ld z d o) s = .next (waits s .tile (.tileReady (addr / 1024)))) ∧
    (0x0800 ≤ addr → (s.here.tileAt addr).stash ≠ none →
      exec (.ld z d o) s = .next (s.takeFault s.core s.ctx 10 2 addr (.ofNat 64 s.cur.iword.toNat)))) ∧
  (∀ (s : State) (d a : Reg) (sg : Fin 8) (addr : Nat), Ready s [⟨a, false⟩] [d] → TileOpen s addr →
    (LocalAccess s sg (s.g a) 8 [.r] addr → exec (.ldI6416 d a sg) s = .next (wrote s [] d (.ofNat 64 (Memory.load s.here.pad addr 8)) 2)) ∧
    (LocalAccess s sg (s.g a) 4 [.r] addr → exec (.ldN3216 d a sg) s = .next (wrote s [] d (.ofNat 64 (Memory.load s.here.pad addr 4)) 2)))) ∧
  (
  (∀ (s : State) (z : LSz) (d : Reg) (o : MOff) (addr : Nat), Ready s (indexOf o) [d] →
    GlobalAccess s o.sg (offsetOf s o (lszBytes z)) (lszBytes z) (lszBytes z) [.r] addr →
    (s.here.stashAt s.cur.comp addr = none → s.here.foreign s.cur.comp addr (lszBytes z) = false →
      (∀ v, s.here.quick s.cur.comp s.curPart.asid addr (lszBytes z) = some v →
        exec (.ld z d o) s = .next (wrote (s.served addr (lszBytes z)) (indexOf o) d (loadValue z v) 4)) ∧
      (∀ xl, s.here.quick s.cur.comp s.curPart.asid addr (lszBytes z) = none → Translation s addr { r := true } xl →
        exec (.ld z d o) s = .next (asked s (indexOf o) .mem (.load d z addr xl) 4))) ∧
    (∀ xl, Translation s addr { r := true } xl → exec (.ldro z d o) s = .next (asked s (indexOf o) .mem (.ldro d z addr xl) 4)) ∧
    (∀ e, s.here.stashAt s.cur.comp addr = none → s.here.foreign s.cur.comp addr (lszBytes z) = false →
      s.here.quick s.cur.comp s.curPart.asid addr (lszBytes z) = none → s.cur.giveUp ≠ some (addr / 65536) →
      s.held s.core addr = some e → s.grant s.core s.cur.comp addr { r := true } e = .prot →
      exec (.ld z d o) s = .next (s.takeFault s.core s.ctx 4 0 addr (.ofNat 64 s.cur.iword.toNat)))) ∧
  (∀ (s : State) (z : LSz) (d : Reg) (o : MOff) (addr : Nat), Ready s (indexOf o) [d] →
    LocalAccess s o.sg (offsetOf s o (lszBytes z)) (lszBytes z) [.r] addr →
    exec (.ldro z d o) s = .next (s.takeFault s.core s.ctx 3 0 addr (.ofNat 64 s.cur.iword.toNat))) ∧
  (∀ (s : State) (d a : Reg) (sg : Fin 8) (addr : Nat) (xl : Xl), Ready s [⟨a, false⟩] [d] → s.here.stashAt s.cur.comp addr = none →
    Translation s addr { r := true } xl → s.here.sb = [] → s.here.dcache = [] →
    (GlobalAccess s sg (s.g a) 8 8 [.r] addr → exec (.ldI6416 d a sg) s = .next (asked s [] .mem (.load d .n64 addr xl) 2)) ∧
    (GlobalAccess s sg (s.g a) 4 4 [.r] addr → exec (.ldN3216 d a sg) s = .next (asked s [] .mem (.load d .n32 addr xl) 2))) ∧
  (∀ (s : State) (o : MOff), Ready s (indexOf o) [] →
    (∀ addr, GlobalAccess s o.sg (offsetOf s o 64) 64 64 [] addr → exec (.pref o) s = .next (completed (s.prefetch addr) (indexOf o) 4 id)) ∧
    ((∀ addr, ¬GlobalAccess s o.sg (offsetOf s o 64) 64 64 [] addr) → exec (.pref o) s = .next (completed s (indexOf o) 4 id))))

/-- A store into a local address: the bytes of the scratchpad there, nothing else (R200, R201); the constant window admits the lead
alone, from c16 on (R85). -/
def Sys2Proof.Spec.StoresLocally (s : State) (i : Instr) (srcs : List Src) (n : Nat) (d : Reg) (addr len : Nat) : Prop :=
  (TileOpen s addr → (0x0800 ≤ addr ∨ (s.ctx = 0 ∧ 128 ≤ addr)) →
    exec i s = .next (completed (s.padStore s.core addr n ((s.g d).toNat % 2 ^ (8 * n))) srcs len id)) ∧
  (addr < 0x0800 → (s.ctx ≠ 0 ∨ addr < 128) →
    exec i s = .next (s.takeFault s.core s.ctx 3 0 addr (.ofNat 64 s.cur.iword.toNat)))

/-- The entry that a store makes in the store buffer (R202). -/
def Sys2Proof.Spec.entryOf (s : State) (va : Nat) (z : SSz) (v : W) : SbEntry :=
  { seq := s.here.sbSeq, ctx := s.ctx.val, pc := s.cur.pc, src := .st, va := va, sz := z, data := v, comp := s.cur.comp,
    writer := s.cur.writer, priv := s.privOf s.core s.cur s.cur.pc }

/-- A store into global memory: it enters the store buffer and event 5 is counted, or with no room it parks, STORE (R200, R202). -/
def Sys2Proof.Spec.StoresGlobally (s : State) (i : Instr) (srcs : List Src) (z : SSz) (d : Reg) (addr len : Nat) : Prop :=
  (s.here.hasRoom s.ctx.val = true → exec i s = .next (completed
    ((s.modHere fun c => { c with sb := c.sb ++ [entryOf s addr z (s.g d)], sbSeq := c.sbSeq + 1 }).modCur fun c => c.bump 5 1) srcs len id)) ∧
  (s.here.hasRoom s.ctx.val = false → exec i s = .next (waits s .store .room))

/-- R199 to R202, R85, R90: ST and its 16-bit forms, into the scratchpad or into the store buffer. -/
def Obligations.Stores : Prop :=
  (∀ (s : State) (z : SSz) (d : Reg) (o : MOff) (addr : Nat), Ready s (indexOf o ++ [⟨d, false⟩]) [] →
    (LocalAccess s o.sg (offsetOf s o (sszBytes z)) (sszBytes z) [.w] addr → StoresLocally s (.st z d o) (indexOf o) (sszBytes z) d addr 4) ∧
    (GlobalAccess s o.sg (offsetOf s o (sszBytes z)) (sszBytes z) (sszBytes z) [.w] addr → s.here.stashMap addr = none →
      StoresGlobally s (.st z d o) (indexOf o) z d addr 4)) ∧
  (∀ (s : State) (d a : Reg) (sg : Fin 8) (addr : Nat), Ready s [⟨a, false⟩, ⟨d, false⟩] [] →
    (LocalAccess s sg (s.g a) 8 [.w] addr → StoresLocally s (.stI6416 d a sg) [] 8 d addr 2) ∧
    (LocalAccess s sg (s.g a) 4 [.w] addr → StoresLocally s (.stN3216 d a sg) [] 4 d addr 2) ∧
    (GlobalAccess s sg (s.g a) 8 8 [.w] addr → s.here.stashMap addr = none → StoresGlobally s (.stI6416 d a sg) [] .n64 d addr 2) ∧
    (GlobalAccess s sg (s.g a) 4 4 [.w] addr → s.here.stashMap addr = none → StoresGlobally s (.stN3216 d a sg) [] .n32 d addr 2)) ∧
  (∀ s : State,
    (s.here.storesOf s.ctx.val = false → exec .drain s = .next (completed s [] 4 id)) ∧
    (s.here.storesOf s.ctx.val = true → exec .drain s = .next (s.modCur fun c =>
      { c with draining := true, st := .parked .drained, park := .drain, parkedAt := s.cycle })))

/-- The first check of R78 that an access fails, by the number of its fault code; none when it passes them all. -/
def Sys2Proof.Spec.failedCheck (sgb sgl o : W) (n al : Nat) (rights : List Right) : Option Nat :=
  let kind := (sgl >>> 56).toNat % 4
  let limit := sgl.toNat % 2 ^ 48
  let addr := (sgb.toNat + o.toNat) % 2 ^ 64
  if 2 ≤ kind then some 3
  else if limit < o.toNat + n then some 3
  else if ∃ q ∈ rights, sgl.getLsbD q.bit = false then some 3
  else if kind = 1 ∧ 0x6000 < sgb.toNat + o.toNat + n then some 3
  else if addr % al ≠ 0 then some 6
  else if kind = 0 ∧ 2 ^ 48 ≤ addr then some 4
  else none

/-- R78: the checks of an access, in their order: a load, a store, an LDRO, a descriptor read and a STASH that fail one take its fault,
precise, with the address, and have no other effect. -/
def Obligations.AccessChecks : Prop :=
  ∀ (s : State) (sg : Fin 8) (c : Nat),
    let f := fun (o : W) => s.takeFault s.core s.ctx c 0 (s.cur.sgb[sg] + o).toNat (.ofNat 64 s.cur.iword.toNat)
    let bad := fun (o : W) (n al : Nat) (rights : List Right) => failedCheck s.cur.sgb[sg] s.cur.sgl[sg] o n al rights = some c
    (∀ (z : LSz) (d : Reg) (o : MOff), o.sg = sg → Ready s (indexOf o) [d] →
      bad (offsetOf s o (lszBytes z)) (lszBytes z) (lszBytes z) [.r] →
      exec (.ld z d o) s = .next (f (offsetOf s o (lszBytes z))) ∧ exec (.ldro z d o) s = .next (f (offsetOf s o (lszBytes z)))) ∧
    (∀ (z : SSz) (d : Reg) (o : MOff), o.sg = sg → Ready s (indexOf o ++ [⟨d, false⟩]) [] →
      bad (offsetOf s o (sszBytes z)) (sszBytes z) (sszBytes z) [.w] →
      exec (.st z d o) s = .next (f (offsetOf s o (sszBytes z)))) ∧
    (∀ (a : Src) (k : Reg), Ready s [a] [] → (s.cur.ports[Fin.ofNat 4 k.val]).bound = false → bad (s.g a.r) 32 32 [.r] →
      exec (.scfg sg a k) s = .next (f (s.g a.r))) ∧
    (∀ (l : Tile) (a : Src) (k : Reg), 2 ≤ l.val → sg = Fin.ofNat 8 k.val → Ready s [a] [] → bad (s.g a.r) 1024 1024 [.r] →
      exec (.stash l a k) s = .next (f (s.g a.r)))

/-! ### Remote accesses and stash tiles (10 R208 to R216) -/

/-- A window of core t admits an access of n bytes from a local address by core g: it is enabled, allows the direction, covers the bytes, and g
lies in its scope; and the tile there, if any, is READY and not in stash mode (R214 to R216). -/
def Sys2Proof.Spec.WindowAdmits (s : State) (g t l n : Nat) (write : Bool) : Prop :=
  (∃ i : Fin 4, winCovers ((s.coreAt t).win[i]) l n write = true ∧ inScope s (scopeOf (bitsOf ((s.coreAt t).win[i]) 32 4)) t g = true) ∧
    (l < 0x0800 ∨ (((s.coreAt t).tileAt l).st = .ready ∧ ((s.coreAt t).tileAt l).stash = none))

/-- R214, R215: the issuer's side of a remote access: LDX leaves a request and STX enters the store buffer, after the checks; LDX.W reads a
window register and STX.W, for the lead, writes one. R215, R216, R277: at its target an access that a window admits is performed: the bytes
of an STX are written and its entry leaves the buffer, an LDX returns its bytes; one that no window covers takes ENACK 1, and event 11 is
counted; at a core that is away it goes to the inbox. -/
def Obligations.RemoteAccesses : Prop :=
  (
  (∀ (s : State) (z : LSz) (d : Reg) (a b : Src), Ready s [a, b] [d] →
    let c := (s.g a.r).toNat
    let l := (s.g b.r).toNat
    let fault := fun (code : Nat) => s.takeFault s.core s.ctx code 0 l (.ofNat 64 s.cur.iword.toNat)
    (c < s.coreCount s.core → l + lszBytes z ≤ 0x6000 → l % lszBytes z = 0 →
      exec (.ldx z d a b) s = .next (asked s [a, b] .mem (.ldx d z c l) 4)) ∧
    ((s.coreCount s.core ≤ c ∨ 0x6000 < l + lszBytes z) → exec (.ldx z d a b) s = .next (fault 3)) ∧
    (c < s.coreCount s.core → l + lszBytes z ≤ 0x6000 → l % lszBytes z ≠ 0 → exec (.ldx z d a b) s = .next (fault 6))) ∧
  (∀ (s : State) (z : SSz) (d : Reg) (a b : Src), Ready s [a, b, ⟨d, false⟩] [] →
    let c := (s.g a.r).toNat
    let l := (s.g b.r).toNat
    let e := { entryOf s l z (s.g d) with src := .stx, target := c }
    (c < s.coreCount s.core → l + sszBytes z ≤ 0x6000 → l % sszBytes z = 0 → 0x0800 ≤ l → s.here.hasRoom s.ctx.val = true →
      exec (.stx z d a b) s = .next (completed
        ((s.modHere fun c => { c with sb := c.sb ++ [e], sbSeq := c.sbSeq + 1 }).modCur fun c => c.bump 5 1) [a, b] 4 id)) ∧
    (c < s.coreCount s.core → l % sszBytes z = 0 → l < 0x0800 →
      exec (.stx z d a b) s = .next (s.takeFault s.core s.ctx 3 0 l (.ofNat 64 s.cur.iword.toNat)))) ∧
  (∀ (s : State) (d w : Reg),
    (Ready s [] [d] → exec (.ldxW d w) s = .next (wrote s [] d s.here.win[Fin.ofNat 4 w.val] 4)) ∧
    (Ready s [⟨d, false⟩] [] → s.ctx = 0 → winBad (s.g d) = false →
      exec (.stxW d w) s =
        .next (completed (s.modHere fun c => { c with win := c.win.set (Fin.ofNat 4 w.val) (s.g d &&& winMask) }) [] 4 id)) ∧
    (Ready s [⟨d, false⟩] [] → s.ctx = 0 → winBad (s.g d) = true →
      exec (.stxW d w) s = .next (s.takeFault s.core s.ctx 3 0 0 (.ofNat 64 s.cur.iword.toNat))) ∧
    (s.ctx ≠ 0 → exec (.stxW d w) s = .next (s.takeFault s.core s.ctx 20 0 0 (.ofNat 64 s.cur.iword.toNat))))) ∧
  (
  (∀ (s : State) (w : Wait) (d : Reg) (z : LSz) (c l : Nat),
    let g := s.ev.g
    let x := ctxNo s.ev.x
    let t := s.coreNo g c
    s.ev.n ≠ 1 → (s.ctxAt g x).st = .parked w → (s.ctxAt g x).req = some (.ldx d z c l) →
    ((s.coreAt t).away = none → WindowAdmits s g t l (lszBytes z) false → Deliverable s g x d →
      exec .remoteAccess s = .next (delivered s g x d (loadValue z (Memory.load (s.coreAt t).pad l (lszBytes z))))) ∧
    ((s.coreAt t).away = none → (s.coreAt g).frozen = false → (∀ i : Fin 4, winCovers ((s.coreAt t).win[i]) l (lszBytes z) false = false) →
      exec .remoteAccess s = .next ((s.modCtx g x fun c => c.bump 11 1).failReq g x .enack 1 l)) ∧
    ((s.coreAt t).away ≠ none → (s.coreAt t).inbox.length < 256 → Msg.ldx g x.val ∉ (s.coreAt t).inbox →
      exec .remoteAccess s = .next (s.modCore t fun c => { c with inbox := c.inbox ++ [.ldx g x.val] }))) ∧
  (∀ (s : State) (e : SbEntry),
    let g := s.ev.g
    let t := s.coreNo g e.target
    s.ev.n = 1 → (s.coreAt g).stxDue s.ev.v = some e → (s.coreAt t).away = none →
    (WindowAdmits s g t e.va (sszBytes e.sz) true →
      exec .remoteAccess s = .next ((s.padStore t e.va (sszBytes e.sz) (e.data.toNat % 2 ^ (8 * sszBytes e.sz))).storeGone g e.seq e.ctx)) ∧
    ((∀ i : Fin 4, winCovers ((s.coreAt t).win[i]) e.va (sszBytes e.sz) true = false) →
      exec .remoteAccess s = .next ((s.modCtx g (ctxNo e.ctx) fun c => c.bump 11 1).recordStore g e .enack 1))))

/-- R209 to R212: STASH asks for the walk of its address once the tile is idle; STASH.OFF and WBACK complete at once when no word is dirty
and otherwise wait for the write-backs, and WBACK through a scratchpad segment raises ESEG (R219); DISCARD asks for its walk once the context's stores to the line have left. R209 to R211: STASH_FILL,
behind the core's buffered stores to the line, gives the line's invalid words the slice's values, makes them valid, and the waiting instruction is issued again; an acknowledged
write-back leaves its word clean. The park reason MEM of these instructions is the model's reading (log 24), and so is the walk that a stale
mapping makes again (log 117). -/
def Obligations.Stashes : Prop :=
  (
  (∀ (s : State) (l : Tile) (a : Src) (k : Reg) (va : Nat), Ready s [a] [] → 2 ≤ l.val →
    GlobalAccess s (Fin.ofNat 8 k.val) (s.g a.r) 1024 1024 [.r] va → (s.here.tiles[l]).stash = none → s.here.stashOver va = false →
    (s.waitOver s.core s.ctx (.tileIdle l.val) = true → exec (.stash l a k) s = .next (asked s [a] .mem (.stash l.val va) 4)) ∧
    (s.waitOver s.core s.ctx (.tileIdle l.val) = false → exec (.stash l a k) s = .next (waits s .tile (.tileIdle l.val)))) ∧
  (∀ (s : State) (l : Tile),
    let fault := fun (sub : Nat) => s.takeFault s.core s.ctx 10 sub 0 (.ofNat 64 s.cur.iword.toNat)
    (l.val < 2 → exec (.stashOff l) s = .next (fault 1) ∧ exec (.wbackTile l) s = .next (fault 1)) ∧
    (2 ≤ l.val → (s.here.tiles[l]).stash = none → exec (.stashOff l) s = .next (fault 6) ∧ exec (.wbackTile l) s = .next (fault 6)) ∧
    (∀ m, 2 ≤ l.val → (s.here.tiles[l]).stash = some m → m.dirty = 0 →
      exec (.stashOff l) s = .next (completed (s.modHere fun c => c.unstash l) [] 4 id) ∧
      exec (.wbackTile l) s = .next (completed s [] 4 id)) ∧
    (∀ m, 2 ≤ l.val → (s.here.tiles[l]).stash = some m → m.dirty ≠ 0 →
      exec (.stashOff l) s = .next (asked s [] .mem (.wback l.val none true) 4) ∧
      exec (.wbackTile l) s = .next (asked s [] .mem (.wback l.val none false) 4))) ∧
  (∀ (s : State) (a : Src) (k : Reg) (va : Nat), Ready s [a] [] →
    (GlobalAccess s (Fin.ofNat 8 k.val) (s.g a.r) 64 64 [] va →
      (∀ t m, s.here.stashMap va = some (t, m) → m.owes (some ((va - m.va) / 64)) = true →
        exec (.wback a k) s = .next (asked s [a] .mem (.wback t.val (some ((va - m.va) / 64)) false) 4)) ∧
      ((∀ t m, s.here.stashMap va = some (t, m) → m.owes (some ((va - m.va) / 64)) = false) →
        exec (.wback a k) s = .next (completed s [a] 4 id))) ∧
    (LocalAccess s (Fin.ofNat 8 k.val) (s.g a.r) 64 [] va →
      exec (.wback a k) s = .next (s.takeFault s.core s.ctx 3 0 va (.ofNat 64 s.cur.iword.toNat))) ∧
    (GlobalAccess s (Fin.ofNat 8 k.val) (s.g a.r) 64 64 [.w] va → (∀ e ∈ s.here.sb, e.ctx = s.ctx.val → e.src = .stx ∨ e.va / 64 ≠ va / 64) →
      exec (.discard a k) s = .next (asked s [a] .mem (.discard va) 4)))) ∧
  (
  (∀ (s : State) (w : Wait) (k : Fin 24) (line : Nat) (m : Stash) (ws : Vector W 8) (u : State),
    let g := s.ev.g
    let x := ctxNo s.ev.x
    let va := m.va + 64 * line
    let pa := m.pa + 64 * line
    (s.ctxAt g x).st = .parked w → (s.ctxAt g x).req = some (.stashFill k.val line) → line < 16 →
    ((s.coreAt g).tiles[k]).stash = some m → (s.coreAt g).storesLine (va / 64) = false → m.stale = false →
    s.lineFor g pa (s.leafOf g va pa) = .words ws u → ∃ t, exec .stashFill s = .next t ∧ (t.ctxAt g x).st = .run ∧ (t.ctxAt g x).req = none ∧ (t.ctxAt g x).pc = (s.ctxAt g x).pc ∧
      (∀ i : Fin 8, Memory.load (t.coreAt g).pad (1024 * k.val + 64 * line + 8 * i.val) 8 =
        if m.valid.getLsbD (8 * line + i.val) then Memory.load (s.coreAt g).pad (1024 * k.val + 64 * line + 8 * i.val) 8 else (ws[i]).toNat) ∧
      (∀ j, j < 1024 * k.val + 64 * line ∨ 1024 * k.val + 64 * line + 64 ≤ j →
        Memory.byte (t.coreAt g).pad j = Memory.byte (s.coreAt g).pad j) ∧
      ((t.coreAt g).tiles[k]).stash = some { m with valid := m.valid ||| (0xFF#128 <<< (8 * line)) }) ∧
  (∀ (s u : State) (w : Wait) (k : Fin 24) (line : Nat) (m : Stash),
    let g := s.ev.g
    let x := ctxNo s.ev.x
    (s.ctxAt g x).st = .parked w → (s.ctxAt g x).req = some (.stashFill k.val line) → ((s.coreAt g).tiles[k]).stash = some m → m.stale = true →
    s.translate g m.comp m.va { r := true } = (.prot, u) → exec .stashFill s = .next (u.failReq g x .eprot 0 m.va)) ∧
  (∀ (s : State) (k : Fin 24) (m : Stash) (i : Nat),
    let g := s.ev.g
    k = Fin.ofNat 24 s.ev.n → i = s.ev.v % 128 → ((s.coreAt g).tiles[k]).stash = some m → m.dirty.getLsbD i = true →
    s.lineLive (m.pa / 64 + i / 8) = true → (∃ x : Fin 16, ((s.coreAt g).ctxs[x]).wantsBack k.val i = true) →
    ∃ t, exec .stashWriteBackAcknowledged s = .next t ∧ t = (s.writeBack g k m i).endBacks g ∧
      ((s.writeBack g k m i).coreAt g).tiles[k].stash.map (fun m => m.dirty.getLsbD i) = some false))

/-! ### What completes memory accesses (10 R198, R202, R203; 12 R239; 13 R254) -/

/-- R198: a walk ends: a granted request keeps its physical address, a refused one is EPROT, one that meets a table line that fails its check
is an uncorrectable error (R291, R429), and one that meets no page waits with a token and is issued again after the answer; STASH then maps its tile, and a buffered store is settled or recorded likewise (R203, R209). R200,
R202, R206: the reply of a load writes gD with the bytes read, extended, and the context goes on; an LDRO's comes from the read-only path;
a descriptor's configures its port, or raises ESTREAM 3; a core that is saved or stopped for it takes no reply (R275). That a load takes its
value at its reply, after a second look at the buffer and the cache, is the model's reading (log 6). -/
def Obligations.WalksAndReplies : Prop :=
  (
  (∀ (s : State) (w : Wait) (r : Req) (va access : Nat) (need : Need) (t : State),
    let g := s.ev.g
    let x := ctxNo s.ev.x
    s.ev.n ≠ 1 → (s.ctxAt g x).st = .parked w → (s.ctxAt g x).req = some r → r.walks = some (va, need, access) → s.mayWalk g x r = true →
    (s.ctxAt g x).giveUp ≠ some (va / 65536) → (s.ctxAt g x).aside = none →
    (∀ pa e, s.translate g (s.ctxAt g x).comp va need = (.ok pa e, t) →
      ((∀ l v, r ≠ .stash l v) → (∀ v, r ≠ .discard v) →
        exec .translationWalkEnd s = .next (t.modCtx g x fun c => { c with req := some (r.settled pa) })) ∧
      (∀ l : Fin 24, r = .stash l.val va → ((t.coreAt g).tiles[l]).stash = none → (t.coreAt g).stashOver va = false →
        t.waitOver g x (.tileIdle l.val) = true →
        ∃ u, exec .translationWalkEnd s = .next u ∧ ∃ m, ((u.coreAt g).tiles[l]).stash = some m ∧ m.va = va ∧ m.pa = pa ∧ m.wright = (e.w && !(t.tagOf pa).sealed) ∧
          m.valid = 0 ∧ m.dirty = 0 ∧ ((u.coreAt g).tiles[l]).st = .ready ∧ u.ctxAt g x = (t.ctxAt g x).retire) ∧
      (r = .discard va → exec .translationWalkEnd s = .next ((t.discardLine g va pa (t.ctxAt g x).writer).modCtx g x Ctx.retire))) ∧
    (s.translate g (s.ctxAt g x).comp va need = (.prot, t) → exec .translationWalkEnd s = .next (t.failReq g x .eprot 0 va)) ∧
    (∀ pa, s.translate g (s.ctxAt g x).comp va need = (.bad pa, t) → exec .translationWalkEnd s = .next (t.uncorrectable (t.partNo g) pa g)) ∧
    (s.translate g (s.ctxAt g x).comp va need = (.absent, t) → t.migrates (t.partNo g) va = false →
      exec .translationWalkEnd s = .next (t.pageWait g x access va))) ∧
  (∀ (s : State) (e : SbEntry) (t : State),
    let g := s.ev.g
    s.ev.n = 1 → (s.coreAt g).sb.find? (fun k => k.seq == s.ev.v) = some e → e.src ≠ .stx → e.fault = none → e.xl = .walk → e.gaveUp = false →
    e.page = none →
    (∀ pa f, s.translate g e.comp e.va { w := true } = (.ok pa f, t) → exec .translationWalkEnd s =
      .next (t.modCore g fun c => { c with sb := c.sb.map fun k => if k.seq == s.ev.v then { k with xl := .ready pa, page := none } else k })) ∧
    (s.translate g e.comp e.va { w := true } = (.prot, t) → exec .translationWalkEnd s = .next (t.recordStore g e .eprot 0)))) ∧
  (
  ∀ (s t : State) (w : Wait),
    let g := s.ev.g
    let x := ctxNo s.ev.x
    (s.ctxAt g x).st = .parked w →
    ((s.coreAt g).frozen = true → exec .loadReply s = .next s) ∧
    ((s.coreAt g).frozen = false →
    (∀ d z va pa v, (s.ctxAt g x).req = some (.load d z va (.ready pa)) → s.coreLoad g x va pa (lszBytes z) = .val v t → Deliverable t g x d →
      exec .loadReply s = .next (delivered t g x d (loadValue z v))) ∧
    (∀ d z va pa ws, (s.ctxAt g x).req = some (.ldro d z va (.ready pa)) →
      s.roRead g (s.ctxAt g x).comp pa (s.leafOf g va pa) = .words ws t → Deliverable (t.noteRead g x va (lszBytes z)) g x d →
      exec .loadReply s = .next (delivered (t.noteRead g x va (lszBytes z)) g x d
        (loadValue z ((ws[Fin.ofNat 8 (pa % 64 / 8)]).toNat / 2 ^ (8 * (pa % 8)) % 2 ^ (8 * lszBytes z))))) ∧
    (∀ p va pa v, (s.ctxAt g x).req = some (.desc p va (.ready pa)) → s.coreLoads g x va pa 4 = .val v t →
      (streamDescOk v = true → exec .loadReply s = .next (t.modCtx g x fun c =>
        Ctx.retire { c with ports := c.ports.set (Fin.ofNat 4 p) { cfg := true, desc := v, remain := natBits v 64 16 * natBits v 80 16 } })) ∧
      (streamDescOk v = false → exec .loadReply s = .next (t.failReq g x .estream 3 va)))))

/-- R203, R239, R240, R254: a settled store that is the oldest of its word is written at its slice and leaves the buffer, its writer then owning
the word, or the line fails its check, which is an uncorrectable error; a revoke takes the word from another owner first; a line of the read-only cache is given up 65,536 cycles after its fill. -/
def Obligations.StoreEvents : Prop :=
  (∀ (s t : State) (e : SbEntry) (pa : Nat),
    let g := s.ev.g
    (s.coreAt g).storeDue s.ev.v = some (e, pa) → s.readyScrub (s.partNo g) (s.leafOf g e.va pa) = some t →
    (t.lineLive (pa / 64) = true → exec .storeComplete s =
      .next ((t.coreWrite g e.va pa (sszBytes e.sz) (e.data.toNat % 2 ^ (8 * sszBytes e.sz)) e.writer).storeGone g e.seq e.ctx)) ∧
    (t.lineLive (pa / 64) = false → exec .storeComplete s = .next (t.uncorrectable (t.partNo g) pa g))) ∧
  (∀ (s : State) (q : Nat), aget? s.owners s.ev.v = some q → q ≠ s.ev.g → s.writesWord s.ev.g s.ev.v = true →
    ∃ t, exec .revoke s = .next t ∧ aget? t.owners s.ev.v = none ∧ t.mem = s.mem ∧ t.lines = s.lines ∧
      ((t.coreAt q).dcache.map DLine.words = (s.coreAt q).dcache.map DLine.words) ∧
      ∀ l ∈ (t.coreAt q).dcache, l.pline = s.ev.v / 8 → l.owned.getLsbD (s.ev.v % 8) = false) ∧
  (∀ s : State, exec .roLineExpiry s = .next (s.modCluster s.ev.g fun c =>
    { c with ro := c.ro.filter fun l => !(l.line == s.ev.v && decide (l.filled + 65536 ≤ s.cycle)) }))

/-- R203: bytes written at their home within one aligned word are read back from there, whichever lines the slices hold, and the writer owns the
word (R239); where the line fails its tag check the write leaves everything as it was (R429, and log 94 for the model's choice). -/
def Obligations.HomeReadBack : Prop :=
  ∀ (s : State) (p pa : Nat) (o : Nat) (src die : Option Nat) (n v : Nat), pa % 8 + n ≤ 8 → 0 < n →
    let t := s.homeStore p pa (some o) src die n v
    (s.lineLive (pa / 64) = true → t.homeLoad pa n = v % 256 ^ n ∧ aget? t.owners (pa / 8) = some o) ∧
    (s.lineLive (pa / 64) = false → t = s)

/-! ### Atomics (12) -/

/-- The scope of an instruction in its partition: a guest's scopes above PART are clamped to PART (R241). -/
def Sys2Proof.Spec.clampTo' (s : State) (sc : Scope) : Scope :=
  if s.curPart.guest = true ∧ sc ∈ [Scope.pkg, .host, .link, .sys] then .part else sc

/-- The state that remembers a clamp: CLAMPED and event 9 are entered when the instruction completes (R241). -/
def Sys2Proof.Spec.noteClamp (s : State) (sc : Scope) : State :=
  if s.curPart.guest = true ∧ sc ∈ [Scope.pkg, .host, .link, .sys] then s.modCur fun c => { c with undo := { c.undo with clamp := true } } else s

/-- The scope raises no ESCOPE (R241). -/
def Sys2Proof.Spec.ScopeAllowed (s : State) (sc : Scope) : Prop :=
  s.curPart.guest = true → sc ∈ [Scope.pkg, .host, .link, .sys] → s.curPart.strap = false

/-- ReleaseActions of the executing context have nothing to wait for (R238, R260). -/
def Sys2Proof.Spec.ReleaseDone (s : State) (sc : Scope) : Prop := s.released s.core (s.cur.prog.getD (s.newProg s.core)).seq sc = true

/-- Op of R231 and R232 on w-bit values: the old value, the operand, and the new value of ACAS. -/
def Sys2Proof.Spec.atomicValue (op : AOp) (w old v n : Nat) : Nat :=
  let signed := fun (x : Nat) => (BitVec.ofNat w x).toInt
  match op with
  | .add => (old + v) % 2 ^ w
  | .and => old &&& v
  | .or => old ||| v
  | .xor => old ^^^ v
  | .swap => v
  | .cas => if old = v then n else old
  | .min => if signed old ≤ signed v then old else v
  | .max => if signed v ≤ signed old then old else v
  | .minn => if old ≤ v then old else v
  | .maxn => if v ≤ old then old else v
  | .fadd => (({ f := fmtOf .f32, rm := 0, fz := false } : FEnv).add old v).1

/-- Width of an atomic (R228). -/
def Sys2Proof.Spec.widthOf (w64 : Bool) : Nat := if w64 then 64 else 32

/-- The old value as the destination receives it: extended by the type (R230). -/
def Sys2Proof.Spec.oldValue (w64 sx : Bool) (old : Nat) : W :=
  if sx then (BitVec.ofNat (widthOf w64) old).signExtend 64 else (BitVec.ofNat (widthOf w64) old).setWidth 64

/-- What an atomic reads synchronously or plainly: gA, gD, and g(D + 1) for ACAS (R230). -/
def Sys2Proof.Spec.atomicReads (op : AOp) (a : Src) (d : Reg) : List Src :=
  a :: ⟨d, false⟩ :: (if op = .cas then [⟨d + 1, false⟩] else [])

/-- The operand of an atomic, and the new value of ACAS. -/
def Sys2Proof.Spec.atomicArgs (s : State) (op : AOp) (w64 : Bool) (d : Reg) : Nat × Nat :=
  ((s.g d).toNat % 2 ^ widthOf w64, if op = .cas then (s.g (d + 1)).toNat % 2 ^ widthOf w64 else 0)

/-- What an atomic of a kind does, at every ordering and scope. In a local segment it is one action on the scratchpad: gD receives the
old value, the bytes change when the value does, and the acquire actions are taken; at a scope with cross-die actions the old value is kept
until the sweep is over. In a global segment it leaves a request and parks, MEM. -/
def Sys2Proof.Spec.AtomicMeans (mk : Ord → Scope → Reg → Src → Reg → Instr) (op : AOp) (w64 sx : Bool) : Prop :=
  ∀ (s : State) (ord : Ord) (sc0 : Scope) (d : Reg) (a : Src) (k : Reg) (addr : Nat), Ready s (atomicReads op a d) [d] → ScopeAllowed s sc0 →
    let sc := clampTo' s sc0
    let u := noteClamp s sc0
    let n := widthOf w64 / 8
    let v := atomicArgs s op w64 d
    (LocalAccess s (Fin.ofNat 8 k.val) (s.g a.r) n [.a, .w, .r] addr → TileOpen s addr → 0x0800 ≤ addr →
      (ord = .rel ∨ ord = .ar → ReleaseDone s sc) →
      let old := Memory.load s.here.pad addr n
      let new := atomicValue op (widthOf w64) old v.1 v.2
      let done := if new ≠ old then u.padStore s.core addr n new else u
      (ord = .rlx ∨ ord = .rel → exec (mk ord sc0 d a k) s = .next (wrote done [a] d (oldValue w64 sx old) 4)) ∧
      (ord = .acq ∨ ord = .ar → s.crossDie s.core sc = false →
        exec (mk ord sc0 d a k) s = .next (wrote (done.acquire s.core s.ctx sc) [a] d (oldValue w64 sx old) 4)) ∧
      (ord = .acq ∨ ord = .ar → s.crossDie s.core sc = true →
        exec (mk ord sc0 d a k) s = .next ((asked done [a] .mem (.atomicBack d w64 sx (.ofNat 64 old) ord sc (some s.markers)) 4).modCur fun c =>
          { c with prog := some (s.newProg s.core) }))) ∧
    (GlobalAccess s (Fin.ofNat 8 k.val) (s.g a.r) n n [.a, .w, .r] addr → s.here.stashMap addr = none →
      exec (mk ord sc0 d a k) s =
        .next ((asked u [a] .mem (.atomicOut d op w64 sx (.ofNat 64 v.1) (.ofNat 64 v.2) addr ord sc .walk) 4).modCur fun c =>
          { c with prog := some (s.newProg s.core) }))

/-- R228, R230 to R234, R238, R241: every atomic. -/
def Obligations.Atomics : Prop :=
  AtomicMeans .aaddN32 .add false false ∧ AtomicMeans .aaddI32 .add false true ∧ AtomicMeans .aadd64 .add true false ∧
  AtomicMeans .aandN32 .and false false ∧ AtomicMeans .aandI32 .and false true ∧ AtomicMeans .aand64 .and true false ∧
  AtomicMeans .aorN32 .or false false ∧ AtomicMeans .aorI32 .or false true ∧ AtomicMeans .aor64 .or true false ∧
  AtomicMeans .axorN32 .xor false false ∧ AtomicMeans .axorI32 .xor false true ∧ AtomicMeans .axor64 .xor true false ∧
  AtomicMeans .aswapN32 .swap false false ∧ AtomicMeans .aswapI32 .swap false true ∧ AtomicMeans .aswap64 .swap true false ∧
  AtomicMeans .acasN32 .cas false false ∧ AtomicMeans .acasI32 .cas false true ∧ AtomicMeans .acas64 .cas true false ∧
  (∀ t, AtomicMeans (fun o z d a k => .amin o z t d a k) .min t true) ∧ (∀ t, AtomicMeans (fun o z d a k => .amax o z t d a k) .max t true) ∧
  (∀ t, AtomicMeans (fun o z d a k => .aminn o z t d a k) .minn t false) ∧
  (∀ t, AtomicMeans (fun o z d a k => .amaxn o z t d a k) .maxn t false) ∧ AtomicMeans .afadd .fadd false false

/-- R230, R231, R235, R238: an atomic whose release is over is performed at its word's slice as one read, one computation and a write when the
value changes, the word passing back through the die's far copy to the core (R243, R257); its reply writes the old value to gD after the acquire actions, which wait for the sweep where the scope has one.
An event that cannot happen changes nothing (log 10). -/
def Obligations.AtomicEvents : Prop :=
  (∀ (s : State) (d : Reg) (op : AOp) (w64 sx : Bool) (v n : W) (va : Nat) (ord : Ord) (sc : Scope) (pa : Nat) (t u : State)
      (ws : Vector W 8),
    let g := s.ev.g
    let x := ctxNo s.ev.x
    let p := s.partNo g
    let e := s.leafOf g va pa
    (s.ctxAt g x).reaping = false → (s.ctxAt g x).aside = none →
    (s.ctxAt g x).req = some (.atomicOut d op w64 sx v n va ord sc (.ready pa)) →
    s.mayLeave g x ord sc va = true → s.readyScrub p e = some t → t.readHome p (pa / 64) e.unscr = some (ws, u) →
    let old := (ws[Fin.ofNat 8 (pa % 64 / 8)]).toNat / 2 ^ (8 * (pa % 8)) % 2 ^ widthOf w64
    let new := atomicValue op (widthOf w64) old (v.toNat % 2 ^ widthOf w64) (n.toNat % 2 ^ widthOf w64)
    ∃ r, (new ≠ old →
        r = (u.land p pa (widthOf w64 / 8) new (some g) (some g) (some (dieOf g)) (s.ctxAt g x).writer).ackCore g va pa) ∧
      (new = old → let word := ws[Fin.ofNat 8 (pa / 8)]
        r = (u.passBack (dieOf g) (pa / 8) word).modCore g fun c => c.seen va (s.partOf g).asid pa word) ∧
      (let q := r.noteRead g x va (widthOf w64 / 8)
       exec .atomicAtSlice s = .next (q.modCtx g x fun c =>
        { c with req := some (.atomicBack d w64 sx (.ofNat 64 old) ord sc
                   (if (ord = .acq ∨ ord = .ar) ∧ q.crossDie g sc = true then some q.markers else none)),
                 prog := some (q.newProg g) }))) ∧
  (∀ (s : State) (d : Reg) (w64 sx : Bool) (old : W) (ord : Ord) (sc : Scope) (sweep : Option (List (Nat × Nat))),
    let g := s.ev.g
    let x := ctxNo s.ev.x
    (s.ctxAt g x).req = some (.atomicBack d w64 sx old ord sc sweep) → (s.ctxAt g x).aside = none → Deliverable s g x d →
    (ord = .rlx ∨ ord = .rel → exec .atomicReply s = .next (delivered s g x d (oldValue w64 sx old.toNat))) ∧
    (ord = .acq ∨ ord = .ar → (∀ l, sweep = some l → l = []) → (∀ q, (s.ctxAt g x).prog = some q → scopeHio sc = true → s.hioDone q.hio = true) →
      exec .atomicReply s = .next (delivered (s.acquire g x sc) g x d (oldValue w64 sx old.toNat))) ∧
    (ord = .acq ∨ ord = .ar → (∃ l, sweep = some l ∧ l ≠ []) → exec .atomicReply s = .next s))

/-! ### Fences and paths (13) -/

/-- R238, R250, R255, R260: FENCE and XFENCE with nothing to wait for take the acquire actions, XFENCE also empties the cluster's read-only
cache for RO, and move on; with something to wait for they park, FENCE, and keep what they wait for. R257 to R260, R263, R429, R430: the
oldest invalidation from a die to another drops the far copy there; a sweep's marker returns, to a context or to an image that arrives by HOP,
once every invalidation sent before it is applied; HIO writes are performed at their homes in each port's order, each part of one in its own frame, and a part from
outside world 0 to a tenant's frame is dropped and counted. The model's readings here are log 15 (which
invalidations a marker follows), log 27 (the gateway blocks that an XFENCE awaits), log 31 (an HIO write into a sealed frame is performed) and
log 34 (an acquire reaches the stash tiles from QUAD on).
An event that cannot happen changes nothing (log 10). -/
def Obligations.Fences : Prop :=
  (
  (∀ (s : State) (ord : Ord) (sc0 : Scope), ScopeAllowed s sc0 →
    let sc := clampTo' s sc0
    let u := noteClamp s sc0
    let p := s.cur.prog.getD (s.newProg s.core)
    let swept := s.crossDie s.core sc = false ∨ (p.sweep = some [] ∧ (scopeHio sc = true → s.hioDone p.hio = true))
    ((ord = .rel ∨ ord = .ar → p.sweep ≠ none ∨ ReleaseDone s sc) →
      (ord = .rlx ∨ ord = .rel → exec (.fence ord sc0) s = .next (completed u [] 4 id)) ∧
      (ord = .acq ∨ ord = .ar → swept → exec (.fence ord sc0) s = .next (completed (u.acquire s.core s.ctx sc) [] 4 id)) ∧
      (ord = .acq ∨ ord = .ar → s.crossDie s.core sc = true → p.sweep = none →
        exec (.fence ord sc0) s = .next (waits (s.modCur fun c => { c with prog := some { p with sweep := some s.markers, hio := s.hioSeq } })
          .fence (.fence sc (scopeHio sc))))) ∧
    (ord = .rel ∨ ord = .ar → p.sweep = none → ¬ReleaseDone s sc →
      exec (.fence ord sc0) s = .next (waits (s.modCur fun c => { c with prog := some p }) .fence (.fence sc false)))) ∧
  (∀ (s : State) (paths : BitVec 6) (z : Reg), ScopeAllowed s (scopeOf z.val) →
    let sc := clampTo' s (scopeOf z.val)
    let u := noteClamp s (scopeOf z.val)
    let acq := if paths.getLsbD 0 ∨ paths.getLsbD 4 then atLeastQuad sc else sc
    let p := s.cur.prog.getD { s.newProg s.core with cores := s.cur.cores }
    let swept := s.crossDie s.core acq = false ∨ (p.sweep = some [] ∧ (scopeHio acq = true → s.hioDone p.hio = true))
    (p.sweep ≠ none ∨ s.xReleased s.core p paths sc = true → swept →
      exec (.xfence paths z) s = .next (completed ((if paths.getLsbD 1 then u.emptyRo (s.core / 8) else u).acquire s.core s.ctx acq) [] 4 id)) ∧
    (p.sweep = none → s.xReleased s.core p paths sc = false →
      exec (.xfence paths z) s = .next (waits (s.modCur fun c => { c with prog := some p }) .fence (.xfence paths sc))))) ∧
  (
  (∀ (s : State) (v : Inval), s.invals.find? (fun v => v.home == s.ev.n && v.die == s.ev.p) = some v →
    let t : State := { s with invals := s.invals.filter fun w => w.seq != v.seq }
    (s.findLine v.die v.line = none → exec .farCopyInvalidation s = .next t) ∧
    (∀ l, s.findLine v.die v.line = some l → ∃ u, exec .farCopyInvalidation s = .next u ∧ u.invals = t.invals ∧
      u.findLine v.die v.line = none ∧ (l.dirty = false → u.mem = s.mem))) ∧
  (∀ (s : State) (l : List (Nat × Nat)) (m : Nat × Nat),
    let g := s.ev.g
    let x := ctxNo s.ev.x
    s.granted g x = false → (s.ctxAt g x).aside = none → (s.ctxAt g x).sweeping = some l → l.find? (fun m => m.1 == s.ev.n) = some m →
    (s.markerBack (dieOf g) m = true → ∃ t, exec .sweepMarker s = .next t ∧
      (t.ctxAt g x).sweeping = some (l.filter fun m => m.1 != s.ev.n) ∧ t.invals = s.invals ∧ (t.ctxAt g x).g = (s.ctxAt g x).g) ∧
    (s.markerBack (dieOf g) m = false → exec .sweepMarker s = .next s)) ∧
  (∀ (s : State) (h : Hop) (l : List (Nat × Nat)) (m : Nat × Nat),
    let mine := fun (k : Hop) => decide (k.core = s.ev.g ∧ k.ctx = ctxNo s.ev.x)
    s.hops.find? mine = some h → (s.ctxAt s.ev.g (ctxNo s.ev.x)).aside = none → h.image.sweeping = some l → l.find? (fun m => m.1 == s.ev.n) = some m →
    s.markerBack (dieOf s.ev.g) m = true → exec .sweepMarker s =
      .next { s with hops := s.hops.map fun k => if mine k then { k with image := k.image.unmark s.ev.n } else k }) ∧
  (∀ (s : State) (w : HioWr), s.hioQ.find? (fun w => w.seq == s.ev.v) = some w →
    (∀ k ∈ s.hioQ, k.port = w.port → w.seq ≤ k.seq) →
    let t : State := { s with hioQ := s.hioQ.filter fun k => k.seq != w.seq }
    let k := 65536 - w.pa % 65536
    (w.bytes ≠ [] → w.bytes.length ≤ k → exec .hioWrite s = .next (t.hioPart w.sys w.pa w.bytes)) ∧
    (k < w.bytes.length → w.bytes.length ≤ k + 65536 →
      exec .hioWrite s = .next ((t.hioPart w.sys w.pa (w.bytes.take k)).hioPart w.sys (w.pa + k) (w.bytes.drop k)))) ∧
  (∀ (t : State) (sys : Bool) (pa : Nat) (bytes : List Byte), bytes ≠ [] →
    (sys = false → (t.tagOf pa).world ≠ 0 → (t.tagOf pa).world ≠ 255 → t.hioPart sys pa bytes = { t with hioRefused := t.hioRefused + 1 }) ∧
    ((sys = true ∨ (t.tagOf pa).world = 0 ∨ (t.tagOf pa).world = 255) → ∃ fs : List Nat,
      t.hioPart sys pa bytes = fs.foldl (fun (u : State) f => u.trackWrite (Nat.max (4096 * f) pa)
          (Nat.min (4096 * f + 4096) (pa + bytes.length) - Nat.max (4096 * f) pa) none)
        (t.homeStore 16 pa none none none bytes.length (ofBytes bytes)) ∧
      ∀ f, f ∈ fs ↔ ∃ i, i < bytes.length ∧ f = (pa + i) / 4096)))

/-! ### Trusses and channels (17) -/

/-- A truss object's address in order (R303): 32 bytes of the tiles, aligned, the tile READY and not in stash mode. -/
structure Sys2Proof.Spec.TrussAt (s : State) (v : W) (addr : Nat) : Prop where
  /-- the address -/
  eq : addr = v.toNat
  /-- above the constant window -/
  low : 0x0800 ≤ addr
  /-- within the scratchpad -/
  high : addr + 32 ≤ 0x6000
  /-- aligned -/
  aligned : addr % 32 = 0
  /-- READY -/
  tile : TileOpen s addr

/-- The state when a truss instruction completes that writes its object: the context is as `f` leaves it, the object is `o`, its phase ends
if it is complete, and its waiters wake (R305). -/
def Sys2Proof.Spec.trussed (s : State) (srcs : List Src) (addr : Nat) (o : Truss) (f : Ctx → Ctx) : State :=
  ((s.modCur fun c => f (synced c srcs)).endTruss addr o).modCur fun c => (c.advance 4).done

/-- R303, R306, R308, R309, R313: the truss instructions, with what raises ETRUSS; TRWAIT completes with 1 when the phase has ended, with 0
when its deadline has passed, and else waits, TRUSS, with its deadline kept over a reissue. -/
def Obligations.TrussInstructions : Prop :=
  ∀ (s : State) (a : Src) (addr : Nat), TrussAt s (s.g a.r) addr →
    let o := s.here.truss addr
    let x := s.ctx.val
    let member := s.cur.isMember addr
    let here := natBit o.arr x
    let fault := fun (sub : Nat) => s.takeFault s.core s.ctx 13 sub addr (.ofNat 64 s.cur.iword.toNat)
    (Ready s [a] [] →
      (o.live = false ∨ o.mem = 0 → exec (.trinit a) s =
        .next ((((s.modCur fun c => synced c [a]).modHere fun c => c.trussReset addr s.cycle).endTruss addr
          { phase := false, live := true, bytes := 0, arr := 0, mem := 0 }).modCur fun c => (c.advance 4).done)) ∧
      (o.live = true → o.mem ≠ 0 → exec (.trinit a) s = .next (fault 2)) ∧
      (∀ i : Fin 4, o.live = true → member = false → s.cur.freeTrm = some i → exec (.trjoin a) s =
        .next (trussed s [a] addr { o with mem := o.mem ||| 2 ^ x, arr := o.arr &&& (0xFFFF ^^^ 2 ^ x) } fun c =>
          { c with trm := c.trm.set i (.ofNat 64 (2 ^ 63 + addr)) })) ∧
      (o.live = false → exec (.trjoin a) s = .next (fault 1) ∧ exec (.trdrop a) s = .next (fault 1)) ∧
      (o.live = true → member = true → exec (.trjoin a) s = .next (fault 3)) ∧
      (o.live = true → member = false → s.cur.freeTrm = none → exec (.trjoin a) s = .next (fault 4)) ∧
      (o.live = true → member = true → exec (.trdrop a) s =
        .next (trussed s [a] addr { o with mem := o.mem &&& (0xFFFF ^^^ 2 ^ x), arr := o.arr &&& (0xFFFF ^^^ 2 ^ x) } fun c =>
          { c with trm := c.trm.map fun v => if v.getLsbD 63 && bitsOf v 0 15 == addr then 0 else v })) ∧
      (o.live = true → member = false → exec (.trdrop a) s = .next (fault 5))) ∧
    (∀ d : Reg, Ready s [a] [d] →
      (o.live = true → member = true → here = false → exec (.trarrive d a) s =
        .next (trussed s [a] addr { o with arr := o.arr ||| 2 ^ x } fun c => c.setG d (if o.phase then 1 else 0))) ∧
      (o.live = false → exec (.trarrive d a) s = .next (fault 1)) ∧
      (o.live = true → member = false → exec (.trarrive d a) s = .next (fault 5)) ∧
      (o.live = true → member = true → here = true → exec (.trarrive d a) s = .next (fault 6)) ∧
      exec (.trtest d a) s = .next (trussed s [a] addr o fun c => c.setG d (.ofNat 64 (o.bytes * 2 ^ 32
        + ((List.range 16).filter fun i => natBit o.mem i && !natBit o.arr i).length * 256 + (if o.live then 2 else 0) + (if o.phase then 1 else 0))))) ∧
    (∀ b : Src, Ready s [a, b] [] → o.live = true → member = true →
      (here = false → (BitVec.ofNat 32 o.bytes).toInt + (s.g b.r).toNat ≤ 2 ^ 31 - 1 → exec (.trexpect a b) s =
        .next (trussed s [a, b] addr { o with bytes := (o.bytes + (s.g b.r).toNat) % 2 ^ 32 } id)) ∧
      (here = false → 2 ^ 31 - 1 < (BitVec.ofNat 32 o.bytes).toInt + (s.g b.r).toNat → exec (.trexpect a b) s = .next (fault 7)) ∧
      (here = true → exec (.trexpect a b) s = .next (fault 6))) ∧
    (∀ (d : Reg) (b : Src), Ready s [a, b, ⟨d, false⟩] [d] → o.live = true →
      let tok := (s.g b.r).getLsbD 0
      let limit := (s.g d).toNat
      let deadline := match s.cur.deadline with
        | some v => some v
        | none => if limit = 0 then none else some (s.cycle + limit)
      (member = true → here = false → tok = o.phase → exec (.trwait d a b) s = .next (fault 8)) ∧
      ((member = false ∨ here = true) → tok ≠ o.phase →
        exec (.trwait d a b) s = .next (trussed s [a, b] addr o fun c => { (c.setG d 1).bump 15 1 with deadline := none })) ∧
      ((member = false ∨ here = true) → tok = o.phase → (∃ v, deadline = some v ∧ v < s.cycle) →
        exec (.trwait d a b) s = .next (trussed s [a, b] addr o fun c => { (c.setG d 0).bump 15 1 with deadline := none })) ∧
      ((member = false ∨ here = true) → tok = o.phase → (∀ v, deadline = some v → s.cycle ≤ v) →
        exec (.trwait d a b) s = .next (((asked s [a, b] .truss (.trwait d addr tok) 4).modCur fun c => { c with deadline := deadline }).endTruss addr o)))

/-- R305: when every member has arrived and every byte is there, the phase of a live object turns and its arrivals are cleared; then every
context of the core that waits with a token other than the phase goes on with 1, or with 0 once its deadline lies behind, which a saved core
does not note (R276, R309); the others wait on. The object reads back as it was written. R308, R309, R313: a TRWAIT whose deadline lies behind completes with 0.
An event that cannot happen changes nothing (log 10). -/
def Obligations.TrussPhases : Prop :=
  (
  ∀ (s : State) (addr : Nat) (o : Truss), o.bytes < 2 ^ 32 → o.arr < 2 ^ 16 → o.mem < 2 ^ 16 →
    let t := s.endTruss addr o
    let turns := o.live = true ∧ o.mem &&& (0xFFFF ^^^ o.arr) = 0 ∧ o.bytes = 0
    t.here.truss addr = (if turns then { o with phase := !o.phase, arr := 0 } else o) ∧
    (∀ j, j < addr ∨ addr + 32 ≤ j → Memory.byte t.here.pad j = Memory.byte s.here.pad j) ∧
    (∀ (x : Fin 16) (w : Wait) (d : Reg) (tok : Bool), (s.here.ctxs[x]).st = .parked w → (s.here.ctxs[x]).req = some (.trwait d addr tok) →
      (tok ≠ (t.here.truss addr).phase → (t.here.ctxs[x]).st = .run ∧ (t.here.ctxs[x]).pc = (s.here.ctxs[x]).pc + .ofNat 64 (s.here.ctxs[x]).step ∧
        (t.here.ctxs[x]).g = (s.here.ctxs[x]).g.set d 
          (match (s.here.ctxs[x]).deadline with | some v => if v < s.cycle ∧ s.here.away = none then 0 else 1 | none => 1)) ∧
      (tok = (t.here.truss addr).phase → t.here.ctxs[x] = s.here.ctxs[x])) ∧
    (∀ x : Fin 16, (∀ d tok, (s.here.ctxs[x]).req ≠ some (.trwait d addr tok)) → t.here.ctxs[x] = s.here.ctxs[x])) ∧
  (
  ∀ (s : State) (w : Wait) (d : Reg) (addr : Nat) (tok : Bool) (v : Nat),
    let g := s.ev.g
    let x := ctxNo s.ev.x
    (s.ctxAt g x).st = .parked w → (s.ctxAt g x).req = some (.trwait d addr tok) → (s.ctxAt g x).deadline = some v → (s.coreAt g).away = none →
    (v < s.cycle → ∃ t, exec .trwaitDeadline s = .next t ∧ (t.ctxAt g x).st = .run ∧ (t.ctxAt g x).g = (s.ctxAt g x).g.set d 0 ∧
      (t.ctxAt g x).pc = (s.ctxAt g x).pc + .ofNat 64 (s.ctxAt g x).step ∧ (∀ h, h ≠ g → t.coreAt h = s.coreAt h) ∧
      (t.coreAt g).pad = (s.coreAt g).pad) ∧
    (s.cycle ≤ v → exec .trwaitDeadline s = .next s))

/-- R315 to R318: CHSEND leaves with its two doubles; CHRECV and CHRECV.FROM take the oldest flit that is theirs, with its tag, or wait,
CHAN, behind the receives that wait already; CHPOLL reads the oldest flit's tag and the number of flits and takes none. R317, R277, R319: a
flit is accepted at a channel with a free entry behind no other waiting flit, and its sender goes on; else it waits there in order; at a
core that is away it goes to the inbox. A named receive that has stood for 1,024 cycles sends a probe; a probe is forwarded along the edges
of the core it reaches, starts its confirm pass when it is back at its origin, and the last confirm stops every context of the cycle with
ECHAN, if the whole cycle still stands.
An event that cannot happen changes nothing (log 10). -/
def Obligations.Channels : Prop :=
  (
  (∀ (s : State) (n : Fin 4) (d : Reg) (a : Src), Ready s [a, ⟨d, false⟩, ⟨d + 1, false⟩] [d, d + 1] →
    ((s.g a.r).toNat < s.coreCount s.core →
      exec (.chsend n d a) s = .next (asked s [a] .chan (.send n.val (s.g a.r).toNat (s.g d) (s.g (d + 1))) 4)) ∧
    (s.coreCount s.core ≤ (s.g a.r).toNat →
      exec (.chsend n d a) s = .next (s.takeFault s.core s.ctx 3 0 0 (.ofNat 64 s.cur.iword.toNat)))) ∧
  (∀ (s : State) (n : Fin 4) (d b : Reg) (a : Src),
    let me := (s.core, s.ctx.val)
    let flits := s.here.flitsFor s.core n.val s.ctx.val
    let taken := fun (m : Flit) => s.modHere fun c =>
      { c with chans := c.chans.set n ((c.chans[n]).erase m), chanQ := c.chanQ.filter fun e => e != me }
    let queued := s.modHere fun c => { c with chanQ := if c.chanQ.contains me then c.chanQ else c.chanQ ++ [me] }
    (Ready s [] [d, d + 1, b] →
      (∀ m r, flits = m :: r → exec (.chrecv n d b) s = .next (completed (taken m) [] 4 fun c =>
        ((c.setG d m.lo).setG (d + 1) m.hi).setG b (.ofNat 64 (m.src * 2 ^ 12 + m.ctx * 2 ^ 8)))) ∧
      (flits = [] → exec (.chrecv n d b) s = .next (waits queued .chan (.flit n.val none)))) ∧
    (Ready s [a] [d, d + 1] → (s.g a.r).toNat < s.coreCount s.core →
      let i := (s.g a.r).toNat
      (∀ m, flits.find? (fun m => m.src == i) = some m →
        exec (.chrecvFrom n d a) s = .next (completed (taken m) [a] 4 fun c => (c.setG d m.lo).setG (d + 1) m.hi)) ∧
      ((∀ m ∈ flits, m.src ≠ i) → exec (.chrecvFrom n d a) s = .next (waits queued .chan (.flit n.val (some i))))) ∧
    (Ready s [] [d] → exec (.chpoll n d) s = .next (wrote s [] d (.ofNat 64
      ((match (s.here.chans[n]).head? with | some m => m.src * 2 ^ 12 + m.ctx * 2 ^ 8 | none => 0) * 2 ^ 32 + (s.here.chans[n]).length)) 4)))) ∧
  (
  (∀ (s : State) (w : Wait) (ch : Fin 4) (i : Nat) (lo hi : W),
    let g := s.ev.g
    let x := ctxNo s.ev.x
    let t := s.coreNo g i
    (s.ctxAt g x).st = .parked w → (s.ctxAt g x).req = some (.send ch.val i lo hi) →
    ((s.coreAt t).away = none → ((s.coreAt t).chans[ch]).length < 8 →
      (∀ e ∈ (s.coreAt t).chanQ.takeWhile (fun e => e != (g, x.val)), s.sending e.1 e.2 ≠ some (ch.val, t)) →
      let m : Flit := { lo := lo, hi := hi, src := s.coreIndex g, ctx := x.val }
      exec .flitArrival s = .next ((s.modCore t fun k => { k with
        chans := k.chans.set ch (k.chans[ch] ++ [m]), chanQ := k.chanQ.filter fun e => e != (g, x.val) }).modCtx g x Ctx.retire)) ∧
    ((s.coreAt t).away = none → 8 ≤ ((s.coreAt t).chans[ch]).length → (g, x.val) ∉ (s.coreAt t).chanQ →
      exec .flitArrival s = .next (s.modCore t fun k => { k with chanQ := k.chanQ ++ [(g, x.val)] })) ∧
    ((s.coreAt t).away ≠ none → (s.coreAt t).inbox.length < 256 → Msg.flit g x.val ∉ (s.coreAt t).inbox →
      exec .flitArrival s = .next (s.modCore t fun c => { c with inbox := c.inbox ++ [.flit g x.val] }))) ∧
  (∀ (s : State) (ch i : Nat),
    let g := s.ev.g
    let x := ctxNo s.ev.x
    (s.ctxAt g x).st = .parked (.flit ch (some i)) → (s.coreAt g).away = none → s.waitOver g x (.flit ch (some i)) = false →
    let k := (s.ctxAt g x).parkedAt
    (s.coreAt g).frozen = false →
    (∀ p ∈ s.probes, p.path.head? ≠ some (g, x.val, k)) →
    (k + 1024 ≤ s.cycle → exec .channelProbeTimer s =
      .next { s with probes := s.probes ++ [{ path := [(g, x.val, k)], dest := s.coreNo g i, confirm := none }] }) ∧
    (s.cycle < k + 1024 → exec .channelProbeTimer s = .next s)) ∧
  (∀ (s : State) (p : Probe) (g x k : Nat) (r : List (Nat × Nat × Nat)), s.probes[s.ev.n]? = some p → p.confirm = none →
    p.path = (g, x, k) :: r →
    (s.coreAt p.dest).away = none →
    (p.dest = g → (∃ ch t, s.edge g x = some (ch, t, k)) → exec .channelProbe s =
      .next { s with probes := s.probes.eraseIdx s.ev.n ++ [{ p with confirm := some p.path.reverse }] }) ∧
    (p.dest ≠ g → p.path.length < 4096 → ∃ l, exec .channelProbe s = .next { s with probes := s.probes.eraseIdx s.ev.n ++ l } ∧
      ∀ q, q ∈ l ↔ ∃ y e, y < 16 ∧ s.edge p.dest y = some e ∧ q = { p with path := p.path ++ [(p.dest, y, e.2.2)], dest := e.2.1 })) ∧
  (∀ (s : State) (p : Probe) (g x k : Nat) (r : List (Nat × Nat × Nat)), s.probes[s.ev.n]? = some p →
    p.confirm = some ((g, x, k) :: r) →
    let drop : State := { s with probes := s.probes.eraseIdx s.ev.n }
    (s.edge g x = none → exec .channelConfirm s = .next drop) ∧
    (∀ ch t m, s.edge g x = some (ch, t, m) → t ≠ nextOnPath p.path r.length ∨ m ≠ k → exec .channelConfirm s = .next drop) ∧
    (∀ ch t, s.edge g x = some (ch, t, k) → t = nextOnPath p.path r.length → s.flitComing g ch t false = false →
      s.flitComing g ch t true = false → (∀ m ∈ (s.coreAt g).chans[Fin.ofNat 4 ch], m.src ≠ s.coreIndex t) →
      (r ≠ [] → exec .channelConfirm s = .next { s with probes := s.probes.set s.ev.n { p with confirm := some r } }) ∧
      (r = [] → drop.cycleStands p.path = true →
        exec .channelConfirm s = .next (p.path.foldl (fun (s : State) e => s.failReq e.1 (ctxNo e.2.1) .echan 0 0) drop)) ∧
      (r = [] → drop.cycleStands p.path = false → exec .channelConfirm s = .next drop))))

/-! ### The copy unit (18) -/

/-- The truss operand of a job instruction, when it is named (R328: gB is not g15.f). -/
def Sys2Proof.Spec.named (b : Src) : Bool := b != ⟨15, true⟩

/-- The operands of a job instruction (R328). -/
def Sys2Proof.Spec.jobReadsOf (a b : Src) : List Src := a :: (if named b then [b] else [])

/-- The data side of a job: its segment is global and has the right; for a box, every element from the lowest to the highest lies within the
limit and the 48-bit space, and base, offset and strides are aligned (R329). -/
def Sys2Proof.Spec.CopySpace (s : State) (k : CopyKind) (r : Nat) : Prop :=
  let sgl := s.cur.sgl[recSg r]
  let base := s.cur.sgb[recSg r].toNat
  let off := natBits r 0 64
  let low := (off : Int) + recLow r
  let high := (off : Int) + recHigh r
  segKind sgl = 0 ∧ sgl.getLsbD (if k = .fill ∨ k = .gath then 48 else 49) = true ∧
    (k = .fill ∨ k = .drain → 0 ≤ low ∧ high ≤ bitsOf sgl 0 48 ∧ off % recAlign r = 0 ∧ recStr0 r % recAlign r = 0 ∧ recStr1 r % recAlign r = 0 ∧
      base % recAlign r = 0 ∧ ((base : Int) + low).toNat % 2 ^ 64 < 2 ^ 48 ∧ ((base : Int) + low).toNat % 2 ^ 64 + (high - low).toNat ≤ 2 ^ 48)

/-- A job instruction that passes the checks of R329 up to its record: the record's address, the tile, the record. -/
structure Sys2Proof.Spec.JobRecord (s : State) (k : CopyKind) (l : Tile) (d : Reg) (a b : Src) (r : Nat) : Prop where
  /-- operands in order -/
  ready : Ready s (jobReadsOf a b) [d]
  /-- the record lies in the scratchpad -/
  inPad : (s.g a.r).toNat ≤ 0x5FE0
  /-- aligned -/
  aligned : (s.g a.r).toNat % 32 = 0
  /-- readable -/
  tile : TileOpen s (s.g a.r).toNat
  /-- the constant window takes no data -/
  into : k = .fill ∨ k = .gath → 2 ≤ l.val
  /-- not in stash mode -/
  plain : (s.here.tiles[l]).stash = none
  /-- the record -/
  eq : r = Memory.load s.here.pad (s.g a.r).toNat 32

/-- The remaining checks of R329: a valid record, truss and list clear of the bank bytes, the data side, a tile that admits the job. -/
structure Sys2Proof.Spec.JobAdmitted (s : State) (k : CopyKind) (l : Tile) (b : Src) (r : Nat) : Prop where
  /-- valid for the kind -/
  valid : recValid k r = true
  /-- the truss -/
  truss : named b = true → ∃ v, TrussAt s (s.g b.r) v ∧ overlap v 32 (1024 * l.val + recLoff r) (recSpan r) = false
  /-- the list -/
  list : k = .gath ∨ k = .scat → overlap (recIdx r) (4 * recCnt0 r) (1024 * l.val + recLoff r) (recSpan r) = false
  /-- the data side -/
  space : CopySpace s k r
  /-- the tile -/
  admits : l.val < 2 ∨ s.waitOver s.core s.ctx (.tileFor l.val (k = .fill ∨ k = .gath)) = true

/-- The job that a job instruction puts into the queue. -/
def Sys2Proof.Spec.jobOf (s : State) (k : CopyKind) (l : Tile) (b : Src) (r : Nat) : CopyJob :=
  { id := s.here.copyId, kind := k, tile := l.val, record := r, sgb := s.cur.sgb[recSg r], sgl := s.cur.sgl[recSg r],
    truss := if named b then some (s.g b.r).toNat else none, ctx := s.ctx.val, pc := s.cur.pc, comp := s.cur.comp, writer := s.cur.writer }

/-- The state when a job has entered the queue: it is the youngest, the tile is FILLING or DRAINING with one job more, the next identifier is
the following one modulo 2^16 without 0 (R323, R330). -/
def Sys2Proof.Spec.enqueued (s : State) (k : CopyKind) (l : Tile) (b : Src) (r : Nat) : State :=
  let id := s.here.copyId
  let t : TileEnt := { (s.here.tiles[l]) with
    st := if k = .fill ∨ k = .gath then .filling else .draining, jobs := (s.here.tiles[l]).jobs + 1, last := id }
  (s.modHere fun c => { c with
    copyQ := c.copyQ ++ [jobOf s k l b r], copyId := if 65535 ≤ id then 1 else id + 1,
    tiles := if l.val < 2 then c.tiles else c.tiles.set l t }).modCluster (s.core / 8) fun h => { h with copyIssued := h.copyIssued + 1 }

/-- The status word of R330. -/
def Sys2Proof.Spec.statusWord (id code sub done state : Nat) : W :=
  .ofNat 64 (id * 2 ^ 48 + code * 2 ^ 40 + sub * 2 ^ 32 + done % 65536 * 2 ^ 16 + state)

/-- R323, R325, R328 to R330: the four job instructions: with `.q` gD receives the identifier at once, without it the context waits, COPY,
for the status; an invalid record raises ETILE 3, a full queue parks, COPY. R322, R330, R331: CPWAIT waits for its job and both it and
CPPOLL read its status: 0 queued, 1 running, 2 complete with its fault, or 3 for an identifier not kept; TLSTAT reads a tile-table entry
and TLSET makes an idle tile EMPTY or READY. -/
def Obligations.CopyInstructions : Prop :=
  (
  ∀ (s : State) (k : CopyKind) (q : Bool) (l : Tile) (d : Reg) (a b : Src) (r : Nat), JobRecord s k l d a b r →
    let i := match k with
      | .fill => Instr.cpfill q l d a b
      | .drain => Instr.cpdrain q l d a b
      | .gath => Instr.cpgath q l d a b
      | .scat => Instr.cpscat q l d a b
    (JobAdmitted s k l b r → (s.copyJobs s.core).length < 8 →
      (q = true → exec i s = .next (wrote (enqueued s k l b r) (jobReadsOf a b) d (.ofNat 64 s.here.copyId) 4)) ∧
      (q = false → exec i s = .next (asked (enqueued s k l b r) (jobReadsOf a b) .copy (.copyJob d s.here.copyId) 4))) ∧
    (JobAdmitted s k l b r → 8 ≤ (s.copyJobs s.core).length → exec i s = .next (waits s .copy .copyRoom)) ∧
    (recValid k r = false →
      exec i s = .next (s.takeFault s.core s.ctx 10 3 (s.g a.r).toNat (.ofNat 64 s.cur.iword.toNat)))) ∧
  (
  (∀ (s : State) (d : Reg) (a : Src), Ready s [a] [d] →
    let id := (s.g a.r).toNat
    let seen := fun (u : State) => u.modCur fun c => { c with observed := if c.observed.contains (true, id) then c.observed else (true, id) :: c.observed }
    (∀ j, j ∈ s.copyJobs s.core → j.id = id → exec (.cpwait d a) s = .next (waits s .copy (.copyDone id))) ∧
    ((∀ j ∈ s.copyJobs s.core, j.id ≠ id) →
      (∀ j, s.here.copyStat.find? (fun j => j.id == id) = some j →
        exec (.cpwait d a) s = .next (wrote (seen s) [a] d (statusWord id j.code j.sub j.done 2) 4) ∧
        exec (.cppoll d a) s = .next (wrote (seen s) [a] d (statusWord id j.code j.sub j.done 2) 4)) ∧
      ((∀ j ∈ s.here.copyStat, j.id ≠ id) →
        exec (.cpwait d a) s = .next (wrote (seen s) [a] d 3 4) ∧ exec (.cppoll d a) s = .next (wrote s [a] d 3 4))) ∧
    (∀ j, s.here.copyQ.find? (fun j => j.id == id) = some j → exec (.cppoll d a) s = .next (wrote s [a] d (statusWord id 0 0 0 0) 4)) ∧
    (∀ j, (∀ j ∈ s.here.copyQ, j.id ≠ id) → (s.clusterAt (s.core / 8)).copyRun = some (s.core % 8, j) → j.id = id →
      exec (.cppoll d a) s = .next (wrote s [a] d (statusWord id 0 0 j.done 1) 4))) ∧
  (∀ (s : State) (l : Tile) (d : Reg), Ready s [] [d] →
    let t := s.here.tiles[l]
    let st := match t.st with | .empty => 0 | .filling => 1 | .ready => 2 | .draining => 3
    exec (.tlstat l d) s = .next (wrote s [] d
      (if l.val < 2 then 2 else .ofNat 64 (t.last * 2 ^ 48 + t.jobs * 2 ^ 32 + (if t.stash = none then 0 else 4) + st)) 4)) ∧
  (∀ (s : State) (l : Tile) (a : Src), Ready s [a] [] →
    let fault := fun (sub : Nat) => s.takeFault s.core s.ctx 10 sub 0 (.ofNat 64 s.cur.iword.toNat)
    (s.g a.r ≠ 0 → s.g a.r ≠ 2 → exec (.tlset l a) s = .next (fault 5)) ∧
    (s.g a.r = 0 ∨ s.g a.r = 2 → l.val < 2 → exec (.tlset l a) s = .next (fault 1)) ∧
    (s.g a.r = 0 ∨ s.g a.r = 2 → 2 ≤ l.val → (s.here.tiles[l]).stash ≠ none → exec (.tlset l a) s = .next (fault 2)) ∧
    (s.g a.r = 0 ∨ s.g a.r = 2 → 2 ≤ l.val → (s.here.tiles[l]).stash = none →
      (s.waitOver s.core s.ctx (.tileIdle l.val) = true → exec (.tlset l a) s = .next (completed
        (s.modHere fun c => { c with tiles := c.tiles.set l { (c.tiles[l]) with st := if s.g a.r = 0 then .empty else .ready } }) [a] 4 id)) ∧
      (s.waitOver s.core s.ctx (.tileIdle l.val) = false → exec (.tlset l a) s = .next (waits s .tile (.tileIdle l.val))))))

/-- The exact offset of the next element of a running job (R326, R327, R335): in a box by its strides, in a list by its index word, which is
read once. -/
def Sys2Proof.Spec.jobOffset (s : State) (g : Nat) (j : CopyJob) : Int :=
  (natBits j.record 0 64 : Int) + match j.kind with
  | .fill | .drain => recDisp j.record j.done
  | _ => match j.idx with
    | some n => (n : Int)
    | none => (Memory.load (s.coreAt g).pad (recIdx j.record + 4 * j.done) 4 : Int)

/-- The job waits for nothing more once it has moved an element. -/
def Sys2Proof.Spec.freshJob (j : CopyJob) : CopyJob := { j with page := none, idx := none }

/-- The state with the running job of a cluster one element further on. -/
def Sys2Proof.Spec.oneMore (s : State) (h : Nat) (f : CopyJob → CopyJob) : State :=
  s.modCluster h fun c => { c with copyRun := c.copyRun.map fun e => (e.1, f { e.2 with done := e.2.done + 1 }) }

/-- How the completion of a job reaches the context that issued it: one that waits with the blocking form receives the status in gD and goes
on; one that has gone on is unchanged but for its counters (R329, R353). -/
def Sys2Proof.Spec.JobAnswered (s t : State) (g : Nat) (x : Fin 16) (r : Reg → Req) (status : W) : Prop :=
  (t.coreAt g).pad = (s.coreAt g).pad ∧ t.mem = s.mem ∧
  (∀ w d, (s.ctxAt g x).st = .parked w → (s.ctxAt g x).req = some (r d) → (t.ctxAt g x).st = .run ∧
    (t.ctxAt g x).g = (s.ctxAt g x).g.set d status ∧ (t.ctxAt g x).pc = (s.ctxAt g x).pc + .ofNat 64 (s.ctxAt g x).step) ∧
  ((s.ctxAt g x).req = none → (t.ctxAt g x).g = (s.ctxAt g x).g ∧ (t.ctxAt g x).st = (s.ctxAt g x).st)

/-- The context that issued a job waits for it with a register that can be written, or has gone on; no request of it is set aside. -/
def Sys2Proof.Spec.JobAwaited (s : State) (g : Nat) (x : Fin 16) (r : Reg → Req) : Prop :=
  (s.ctxAt g x).aside = none ∧
    ((∃ w d, (s.ctxAt g x).st = .parked w ∧ (s.ctxAt g x).req = some (r d) ∧ Deliverable s g x d) ∨ (s.ctxAt g x).req = none)

/-- R326, R332 to R334, R310: the copy unit takes the oldest job of the next core in turn; each element of a fill or gather is read at its
home, written into the bank and counted on the truss; each element of a drain or scatter is written at its home and counted; an element
that fails a check ends the job with its fault, and a page that is not present makes it wait with a token. R323, R329 to R333, R255: a job
whose elements are all done completes: the unit is free, the status is kept with those of the 15 jobs before it, the tile has one job less
and is READY, or EMPTY after a drain with REL, once it has none; the context that waits receives the status. -/
def Obligations.CopyJobs : Prop :=
  (
  (∀ (s : State) (i : Nat) (j : CopyJob) (r : List CopyJob),
    let h := s.ev.g
    let c := s.clusterAt h
    let core := fun (i : Nat) => 8 * h + (c.copyLast + 1 + i) % 8
    c.copyRun = none → i < 8 → (s.coreAt (core i)).copyQ = j :: r → (s.coreAt (core i)).frozen = false →
    (∀ k, k < i → (s.coreAt (core k)).copyQ = [] ∨ (s.coreAt (core k)).frozen = true) →
    exec .copyJobStart s = .next ((s.modCore (core i) fun k => { k with copyQ := r }).setCluster h
      { c with copyRun := some ((c.copyLast + 1 + i) % 8, j), copyLast := (c.copyLast + 1 + i) % 8 })) ∧
  (∀ (s : State) (n : Nat) (j : CopyJob) (va : Nat),
    let h := s.ev.g
    let g := 8 * h + n
    let r := j.record
    let e := 2 ^ recEsz r
    (s.clusterAt h).copyRun = some (n, j) → j.done ≠ recTotal r → recPlanes r = false → j.gaveUp = false → j.page = none →
    (j.kind = .fill ∨ s.blockComing g = false) →
    elemCheck j.sgb j.sgl (jobOffset s g j) e (recAlign r) = .ok va →
    (∀ v t, j.kind = .fill ∨ j.kind = .gath → s.jobReads g j.comp va (Nat.min e 8) (e / Nat.min e 8) = .val v t →
      exec .copyBankWrite s = .next ((oneMore ((t.noteJobRead g j.ctx j.writer va e).padStore g
        (1024 * j.tile + recLoff r + j.done * e) e v) h freshJob).arrive g j.truss e)) ∧
    (∀ v t, j.kind = .drain ∨ j.kind = .scat → s.jobMayWrite g j.comp va (Nat.min e 8) (e / Nat.min e 8) = .val v t →
      exec .copyGlobalWriteAccept s = .next ((oneMore (t.jobWrites g j.comp va (Nat.min e 8)
        (Memory.load (t.coreAt g).pad (1024 * j.tile + recLoff r + j.done * e) e) j.writer (e / Nat.min e 8)) h
        freshJob).arrive g j.truss e)) ∧
    (∀ a, j.kind = .fill ∨ j.kind = .gath → s.jobReads g j.comp va (Nat.min e 8) (e / Nat.min e 8) = .prot a →
      exec .copyJobFault s = .next (s.endCopy h (some (.eprot, a)))) ∧
    (∀ a k t, j.kind = .fill ∨ j.kind = .gath → s.jobReads g j.comp va (Nat.min e 8) (e / Nat.min e 8) = .absent a →
      s.migrates (s.partNo g) a = false → s.pageFault g 7 j.ctx a j.pc.toNat = (some k, t) →
      exec .copyBankWrite s = .next (t.modCluster h fun c => { c with copyRun := c.copyRun.map fun e => (e.1, { e.2 with page := some k, idx := some (t.copyIdx g j) }) })) ∧
    (∀ pa, j.kind = .fill ∨ j.kind = .gath → s.jobReads g j.comp va (Nat.min e 8) (e / Nat.min e 8) = .bad pa →
      exec .copyBankWrite s = .next (s.uncorrectable (s.partNo g) pa g))) ∧
  (∀ (s : State) (n : Nat) (j : CopyJob) (va v : Nat) (t : State),
    let h := s.ev.g
    let g := 8 * h + n
    let r := j.record
    (s.clusterAt h).copyRun = some (n, j) → j.done ≠ recTotal r → recPlanes r = true → j.kind = .fill → j.gaveUp = false → j.page = none →
    elemCheck j.sgb j.sgl (jobOffset s g j) (recBytes r) (recAlign r) = .ok va →
    s.jobReads g j.comp va 1 (recBytes r) = .val v t →
    let u := oneMore ((t.noteJobRead g j.ctx j.writer va (recBytes r)).planesRow g r j.tile j.done v) h freshJob
    exec .copyBankWrite s = .next (if j.done + 1 = recTotal r then
      ((List.range (16 - recTotal r)).foldl (fun (s : State) i => s.planesRow g r j.tile (recTotal r + i) 0) u).arrive g j.truss (128 * recPw r)
      else u)) ∧
  (∀ (s : State) (n : Nat) (j : CopyJob) (c : FaultCode) (a : Nat),
    let h := s.ev.g
    let g := 8 * h + n
    (s.clusterAt h).copyRun = some (n, j) → j.done ≠ recTotal j.record →
    elemCheck j.sgb j.sgl (jobOffset s g j) (recBytes j.record) (recAlign j.record) = .error (c, a) →
    exec .copyJobFault s = .next (s.endCopy h (some (c, a))))) ∧
  (
  ∀ (s : State) (n : Nat) (j : CopyJob),
    let h := s.ev.g
    let g := 8 * h + n
    let x := ctxNo j.ctx
    (s.clusterAt h).copyRun = some (n, j) → j.done = recTotal j.record → JobAwaited s g x (fun d => .copyJob d j.id) →
    ∃ t, exec .copyJobComplete s = .next t ∧ (t.clusterAt h).copyRun = none ∧ (t.clusterAt h).copyDone = (s.clusterAt h).copyDone + 1 ∧
      (t.coreAt g).copyStat = ({ id := j.id, code := 0, sub := 0, done := j.done, ovf := false, addr := 0 } :: (s.coreAt g).copyStat).take 16 ∧
      (∀ l : Fin 24, l.val = j.tile → 2 ≤ j.tile →
        ((t.coreAt g).tiles[l]).jobs = ((s.coreAt g).tiles[l]).jobs - 1 ∧
        (((s.coreAt g).tiles[l]).jobs = 1 → ((t.coreAt g).tiles[l]).st =
          if (j.kind = .drain ∨ j.kind = .scat) ∧ recRel j.record = true then .empty else .ready)) ∧
      JobAnswered s t g x (fun d => .copyJob d j.id) (statusWord j.id 0 0 j.done 2))

/-! ### The matrix engine (20) -/

/-- A record in the scratchpad at a register's address (R353 step 2). -/
structure Sys2Proof.Spec.RecordAt (s : State) (v : W) (r : Nat) : Prop where
  /-- in the scratchpad -/
  inPad : v.toNat ≤ 0x5FE0
  /-- aligned -/
  aligned : v.toNat % 32 = 0
  /-- readable -/
  tile : TileOpen s v.toNat
  /-- the record -/
  eq : r = Memory.load s.here.pad v.toNat 32

/-- The job of a matrix instruction (R353). -/
def Sys2Proof.Spec.mxJobOf (s : State) (k : MxKind) (na nb ad : Bool) (z : Fin 4) (ra rb : Nat) : MxJob :=
  let sg := match k with | .read => mxSg ra | _ => mxSg rb
  { id := s.here.mxId, kind := k, na := na, nb := nb, ad := ad, slot := z.val, recA := ra, recB := rb, sgb := s.cur.sgb[sg], sgl := s.cur.sgl[sg],
    geom := s.cur.geom, ctx := s.ctx.val, pc := s.cur.pc, comp := s.cur.comp, writer := s.cur.writer }

/-- Steps 5 to 7 of R353: the elements of a job lie in the scratchpad, a read's outside the constant window; its global record passes its
segment check; every pad tile it touches is READY and not in stash mode. -/
def Sys2Proof.Spec.MxAdmitted (s : State) (j : MxJob) : Prop :=
  (∀ e ∈ j.ranges, e.1 + e.2 ≤ 0x6000 ∧ (j.kind = .read → 0x0800 ≤ e.1)) ∧ mxSegment j = .ok () ∧
    ∀ t ∈ tilesOf j.ranges, TileOpen s (1024 * t)

/-- The state when a matrix job has entered the queue, claiming its pad tiles (R353, R356). -/
def Sys2Proof.Spec.mxEnqueued (s : State) (j : MxJob) : State :=
  (s.modHere fun c => { c with
    mxQ := c.mxQ ++ [{ j with claims := tilesOf j.ranges }],
    mxId := if 65535 ≤ s.here.mxId then 1 else s.here.mxId + 1 }).modCluster (s.core / 8) fun h => { h with mxIssued := h.mxIssued + 1 }

/-- The instruction puts the job into the queue: with `.q` gD receives the identifier, without it the context waits, MX; with 8 jobs it parks,
MX (R353). -/
def Sys2Proof.Spec.IssuesMx (s : State) (i : Bool → Instr) (srcs : List Src) (d : Reg) (j : MxJob) : Prop :=
  MxAdmitted s j →
    ((s.mxJobs s.core).length < 8 →
      exec (i true) s = .next (wrote (mxEnqueued s j) srcs d (.ofNat 64 s.here.mxId) 4) ∧
      exec (i false) s = .next (asked (mxEnqueued s j) srcs .mx (.mxJob d s.here.mxId) 4)) ∧
    (8 ≤ (s.mxJobs s.core).length → ∀ q, exec (i q) s = .next (waits s .mx .mxRoom))

/-- The state in which job j of core g has ended: the engine is free, its status is kept (R353, R354). -/
def Sys2Proof.Spec.MxEnded (s t : State) (h g : Nat) (j : MxJob) (ovf : Bool) : Prop :=
  (t.clusterAt h).mxRun = none ∧ (t.clusterAt h).mxDone = (s.clusterAt h).mxDone + 1 ∧
    (t.coreAt g).mxStat = ({ id := j.id, code := 0, sub := 0, done := 0, ovf := ovf, addr := 0 } :: (s.coreAt g).mxStat).take 16

/-- The pairs of elements whose products output (m, n) of a job sums: those whose A and B elements are both present,
in words that the job has read already as they were then (R348, R350, R357). -/
def Sys2Proof.Spec.termsOf (s : State) (g : Nat) (j : MxJob) (m n : Nat) : List (Nat × Nat) :=
  ((List.range 64).filter fun k => j.aHas m k && j.bHas k n).map fun k =>
    (j.aBits (j.view (s.coreAt g).pad) m k, Memory.load (j.view (s.coreAt g).pad) (mxBase j.recB + j.bDisp k n) (mxSize j.recB))

/-- The output word of R348 and R349: an integer sum wraps to 32 bits, a floating one is rounded once; NA and NB negate, AD starts from zero. -/
def Sys2Proof.Spec.outputWord (j : MxJob) (old : BitVec 32) (terms : List (Nat × Nat)) : BitVec 32 :=
  if mxInteger j.recA then
    BitVec.ofInt 32 ((if j.ad then 0 else old.toInt)
      + (terms.map fun e => (if j.na = j.nb then 1 else -1) * (mxInt j.recA e.1 * mxInt j.recB e.2)).sum)
  else
    let sign := fun (b : Bool) (v : FV) => if b then v.negate else v
    .ofNat 32 (roundSum (if j.ad then none else some old.toNat)
      (terms.map fun e => ((sign j.na (mxFloat j.recA e.1)).mul (sign j.nb (mxFloat j.recB e.2))).1))

/-- R348 to R351, R355, R357: the engine takes the oldest job of the next core in turn; a product job with a local B writes each of its output
words from the old word and its terms, and no other word of the accumulators; a running product job may read a word of
its operands at any moment before that; MXZERO writes zeros into its slot. That the order of a job's words is left to the events is the model's
choice (log 36). -/
def Obligations.MatrixProducts : Prop :=
  (∀ (s : State) (i : Nat) (j : MxJob) (r : List MxJob),
    let h := s.ev.g
    let c := s.clusterAt h
    let core := fun (i : Nat) => 8 * h + (c.mxLast + 1 + i) % 8
    c.mxRun = none → i < 8 → (s.coreAt (core i)).mxQ = j :: r → (s.coreAt (core i)).frozen = false →
    (∀ k, k < i → (s.coreAt (core k)).mxQ = [] ∨ (s.coreAt (core k)).frozen = true) →
    exec .matrixJobStart s = .next ((s.modCore (core i) fun k => { k with mxQ := r }).setCluster h
      { c with mxRun := some ((c.mxLast + 1 + i) % 8, j), mxLast := (c.mxLast + 1 + i) % 8 })) ∧
  (∀ (s : State) (n cols c0 : Nat) (j : MxJob),
    let h := s.ev.g
    let g := 8 * h + n
    let x := ctxNo j.ctx
    let key := fun (m c : Nat) => 2048 * (j.slot + (c0 + c) / 128) + 128 * m + (c0 + c) % 128
    let word := fun (t : State) (k : Nat) => aget (t.coreAt g).acc k 0
    s.ev.n = 0 → (s.clusterAt h).mxRun = some (n, j) → j.page = none → s.blockComing g = false → (j.kind = .mul cols ∧ c0 = 0 ∨ j.kind = .mulg c0 ∧ cols = 16) → cols ≤ 512 →
    mxGlobal j.recB = false → JobAwaited s g x (fun d => .mxJob d j.id) →
    ∃ t ovf, exec .matrixJobComplete s = .next t ∧ MxEnded s t h g j ovf ∧
      JobAnswered s t g x (fun d => .mxJob d j.id) (.ofNat 64 (j.id * 2 ^ 48 + (if ovf then 2 ^ 16 else 0) + 2)) ∧
      (∀ m c, m < 16 → c < cols → word t (key m c) = outputWord j (word s (key m c)) (termsOf s g j m c)) ∧
      (∀ k, (∀ m c, m < 16 → c < cols → k ≠ key m c) → word t k = word s k)) ∧
  (∀ (s : State) (n : Nat) (j : MxJob),
    let h := s.ev.g
    let g := 8 * h + n
    let x := ctxNo j.ctx
    let word := fun (t : State) (k : Nat) => aget (t.coreAt g).acc k 0
    s.ev.n = 0 → (s.clusterAt h).mxRun = some (n, j) → j.page = none → s.blockComing g = false → j.kind = .zero → JobAwaited s g x (fun d => .mxJob d j.id) →
    ∃ t, exec .matrixJobComplete s = .next t ∧ MxEnded s t h g j false ∧
      JobAnswered s t g x (fun d => .mxJob d j.id) (.ofNat 64 (j.id * 2 ^ 48 + 2)) ∧
      (∀ k, word t k = if 2048 * j.slot ≤ k ∧ k < 2048 * (j.slot + 1) then 0 else word s k)) ∧
  (∀ (s : State) (n w : Nat) (j : MxJob),
    let h := s.ev.g
    (s.clusterAt h).mxRun = some (n, j) → j.cols ≠ 0 → s.ev.n = 1 → s.ev.v = w → j.localWord w = true → aget? j.got w = none →
    s.blockComing (8 * h + n) = false →
    exec .matrixJobComplete s = .next (s.modCluster h fun c =>
      { c with mxRun := some (n, { j with got := aset j.got w (Memory.load (s.coreAt (8 * h + n)).pad (8 * w) 8) }) }))

/-- R345, R347, R350, R352, R353: MXMUL, MXMULG, MXZERO and MXREAD, and the subcodes of EMX. R352, R358: MXREAD stores the slot's words, as
the record's type takes them, at its elements in order; a first element of a global record that the tables refuse ends the job with EPROT.
That the completion stores every element that no event has stored before is the model's choice (log 36). -/
def Obligations.MatrixInstructions : Prop :=
  (
  (∀ (s : State) (na nb ad q : Bool) (z : Fin 4) (d : Reg) (a b : Src) (ra rb : Nat), Ready s [a, b, ⟨d, false⟩] [d] →
    RecordAt s (s.g a.r) ra → RecordAt s (s.g b.r) rb →
    let n := (s.g d).toNat
    let geom := s.cur.geom
    let fault := fun (sub : Nat) => s.takeFault s.core s.ctx 12 sub 0 (.ofNat 64 s.cur.iword.toNat)
    (mxValid .a ra = false ∨ mxValid .b rb = false → exec (.mxmul q na nb ad z d a b) s = .next (fault 1) ∧
      exec (.mxmulg q na nb ad z d a b) s = .next (fault 1)) ∧
    (mxValid .a ra = true → mxValid .b rb = true →
      (mxPair ra rb = false → exec (.mxmul q na nb ad z d a b) s = .next (fault 2) ∧ exec (.mxmulg q na nb ad z d a b) s = .next (fault 2)) ∧
      (mxPair ra rb = true →
        (n % 16 = 0 → 16 ≤ n → n ≤ 512 → z.val + (n + 127) / 128 ≤ 4 →
          IssuesMx s (fun q => .mxmul q na nb ad z d a b) [a, b] d (mxJobOf s (.mul n) na nb ad z ra rb)) ∧
        (n % 16 ≠ 0 ∨ n < 16 ∨ 512 < n → exec (.mxmul q na nb ad z d a b) s = .next (fault 3)) ∧
        (n % 16 = 0 → 16 ≤ n → n ≤ 512 → 4 < z.val + (n + 127) / 128 → exec (.mxmul q na nb ad z d a b) s = .next (fault 4)) ∧
        (n % 16 = 0 → n ≤ 112 → bitsOf geom 24 8 ≠ 0 → bitsOf geom 32 16 ≠ 0 → bitsOf geom 48 16 ≠ 0 →
          IssuesMx s (fun q => .mxmulg q na nb ad z d a b) [a, b] d (mxJobOf s (.mulg n) na nb ad z ra rb)) ∧
        (n % 16 ≠ 0 ∨ 112 < n → exec (.mxmulg q na nb ad z d a b) s = .next (fault 3)) ∧
        (n % 16 = 0 → n ≤ 112 → bitsOf geom 24 8 = 0 ∨ bitsOf geom 32 16 = 0 ∨ bitsOf geom 48 16 = 0 →
          exec (.mxmulg q na nb ad z d a b) s = .next (fault 6))))) ∧
  (∀ (s : State) (z : Fin 4) (d : Reg), Ready s [] [d] →
    IssuesMx s (fun q => .mxzero q z d) [] d (mxJobOf s .zero false false false z 0 0)) ∧
  (∀ (s : State) (z : Fin 4) (d : Reg) (a : Src) (r : Nat), Ready s [a] [d] → RecordAt s (s.g a.r) r →
    (mxValid .dst r = true → z.val + (mxCols r + 127) / 128 ≤ 4 →
      IssuesMx s (fun q => .mxread q z d a) [a] d (mxJobOf s .read false false false z r 0)) ∧
    (∀ q, mxValid .dst r = false → exec (.mxread q z d a) s = .next (s.takeFault s.core s.ctx 12 1 0 (.ofNat 64 s.cur.iword.toNat))) ∧
    (∀ q, mxValid .dst r = true → 4 < z.val + (mxCols r + 127) / 128 →
      exec (.mxread q z d a) s = .next (s.takeFault s.core s.ctx 12 4 0 (.ofNat 64 s.cur.iword.toNat)))) ∧
  (∀ (s : State) (d : Reg) (a : Src), Ready s [a] [d] →
    let id := (s.g a.r).toNat
    let seen := s.modCur fun c => c.observeMx (s.here.mxUpTo id)
    (∀ j, j ∈ s.mxJobs s.core → j.id = id → exec (.mxwait d a) s = .next (waits s .mx (.mxDone id))) ∧
    ((∀ j ∈ s.mxJobs s.core, j.id ≠ id) → ∀ j, s.here.mxStat.find? (fun j => j.id == id) = some j →
      let v : W := .ofNat 64 (id * 2 ^ 48 + j.code * 2 ^ 40 + (if j.ovf then 2 ^ 16 else 0) + 2)
      exec (.mxwait d a) s = .next (wrote seen [a] d v 4) ∧ exec (.mxpoll d a) s = .next (wrote seen [a] d v 4)) ∧
    ((∀ j ∈ s.mxJobs s.core, j.id ≠ id) → (∀ j ∈ s.here.mxStat, j.id ≠ id) →
      exec (.mxwait d a) s = .next (wrote seen [a] d 3 4) ∧ exec (.mxpoll d a) s = .next (wrote s [a] d 3 4)) ∧
    (∀ j, s.here.mxQ.find? (fun j => j.id == id) = some j → exec (.mxpoll d a) s = .next (wrote s [a] d (.ofNat 64 (id * 2 ^ 48)) 4)) ∧
    (∀ j, (∀ j ∈ s.here.mxQ, j.id ≠ id) → (s.clusterAt (s.core / 8)).mxRun = some (s.core % 8, j) → j.id = id →
      exec (.mxpoll d a) s = .next (wrote s [a] d (.ofNat 64 (id * 2 ^ 48 + 1)) 4)))) ∧
  (
  (∀ (s : State) (n : Nat) (j : MxJob),
    let h := s.ev.g
    let g := 8 * h + n
    let x := ctxNo j.ctx
    s.ev.n = 0 → (s.clusterAt h).mxRun = some (n, j) → j.page = none → s.blockComing g = false → j.kind = .read → mxGlobal j.recA = false →
    (s.ctxAt g x).req = none → (s.ctxAt g x).aside = none →
    let u := j.dRest.foldl (fun (u : State) e => u.padStore g (mxBase j.recA + mxDisp j.recA e.1 e.2) (mxSize j.recA)
      (mxStored j.recA (aget (s.coreAt g).acc (2048 * (j.slot + e.2 / 128) + 128 * e.1 + e.2 % 128) 0).toNat)) s
    ∃ t, exec .matrixJobComplete s = .next t ∧ MxEnded s t h g j false ∧ (t.coreAt g).pad = (u.coreAt g).pad ∧
      (t.coreAt g).acc = (s.coreAt g).acc ∧ t.mem = s.mem) ∧
  (∀ (s : State) (n : Nat) (j : MxJob) (e : Nat × Nat) (l : List (Nat × Nat)) (a : Nat),
    let h := s.ev.g
    let g := 8 * h + n
    (s.clusterAt h).mxRun = some (n, j) → j.page = none → s.blockComing g = false → j.gaveUp = false → j.kind = .read → mxGlobal j.recA = true →
    s.mxAbsent g j = none → j.dRest = e :: l →
    s.jobMayWrite g j.comp ((j.sgb.toNat + mxGoff j.recA + mxDisp j.recA e.1 e.2) % 2 ^ 64) (mxSize j.recA) 1 = .prot a →
    exec .matrixJobFault s = .next (s.endMx h false (some (.eprot, a)))))

/-! ### Contexts (14) -/

/-- The operand names context x of the core: 1 to 15, and not one that translates (R267). -/
def Sys2Proof.Spec.Names (s : State) (v : W) (x : Fin 16) : Prop :=
  v = .ofNat 64 x.val ∧ x ≠ 0 ∧ ∀ l, (s.ctxAt s.core x).role ≠ .translator l

/-- R267 to R272: the lead starts a helper with SPAWN, ends a context with REAP and wakes it with WAKE and WAKE.V; from any other context, and
for a number outside 1 to 15, they raise ECTX. YIELD waits for one issue of every other active context. SLEEP takes a pending wake at
once, else parks with its limit kept as an absolute cycle, at which it ends with 0; a wake after that cycle finds it ended.
An event that cannot happen changes nothing (log 10). -/
def Obligations.ContextControl : Prop :=
  (∀ (s : State) (d : Reg) (a b : Src),
    let ectx := s.takeFault s.core s.ctx 20 0 0 (.ofNat 64 s.cur.iword.toNat)
    (s.ctx ≠ 0 → exec (.spawn d a b) s = .next ectx ∧ exec (.reap a) s = .next ectx ∧ exec (.wake a) s = .next ectx ∧
      exec (.wakeV d a b) s = .next ectx) ∧
    (s.ctx = 0 → (s.g a.r = 0 ∨ 16 ≤ (s.g a.r).toNat) →
      (Ready s [a, b, ⟨d, false⟩] [] → exec (.spawn d a b) s = .next ectx) ∧
      (Ready s [a] [] → exec (.reap a) s = .next ectx ∧ exec (.wake a) s = .next ectx) ∧
      (Ready s [a, b] [] → exec (.wakeV d a b) s = .next ectx))) ∧
  (∀ (s : State) (d : Reg) (a b : Src) (x : Fin 16), s.ctx = 0 → Ready s [a, b, ⟨d, false⟩] [] → Names s (s.g a.r) x →
    let word : W := .ofNat 64 s.cur.iword.toNat
    let free := (s.ctxAt s.core x).st = .free ∧ ¬(x = 15 ∧ s.core = 8 * (s.partOf s.core).base ∧ (s.partOf s.core).xlat ≠ none) ∧
      ∀ h ∈ s.hops, ¬(h.core = s.core ∧ h.ctx = x)
    (free → (s.g b.r).toNat % 2 = 0 → exec (.spawn d a b) s = .next (completed
      (s.setCtxAt s.core x
        { st := .run, notBefore := s.cycle + 8, pc := s.g b.r, g := (Vector.replicate 16 0).set 0 (s.g d), sgb := s.cur.sgb, sgl := s.cur.sgl,
          fpc := s.cur.fpc, role := .helper })
      [a, b, ⟨d, false⟩] 4 id)) ∧
    (free → (s.g b.r).toNat % 2 = 1 → exec (.spawn d a b) s = .next (s.takeFault s.core s.ctx 6 0 (s.g b.r).toNat word)) ∧
    (¬free → exec (.spawn d a b) s = .next (s.takeFault s.core s.ctx 20 0 0 word))) ∧
  (∀ (s : State) (a : Src) (x : Fin 16), s.ctx = 0 → Ready s [a] [] → Names s (s.g a.r) x →
    ((s.ctxAt s.core x).st = .free → exec (.reap a) s = .next (completed s [a] 4 id)) ∧
    ((s.ctxAt s.core x).st ≠ .free → (s.ctxAt s.core x).reaping = false → s.here.storesOf x.val = false → s.outlives s.core x = false →
      s.cur.req = none → ∃ t, exec (.reap a) s = .next t ∧ t.ctxAt s.core x = {} ∧ (t.ctxAt s.core 0).pc = s.cur.pc + 4 ∧ (t.ctxAt s.core 0).g = s.cur.g ∧
        (t.coreAt s.core).tpend.getLsbD x.val = false ∧ ((s.ctxAt s.core x).role = .helper → (∀ e ∈ s.cores, e.1 ≠ s.core → (e.2.ctxs[x]).gangOld = none) → t.mem = s.mem ∧ t.lines = s.lines)) ∧
    ((s.ctxAt s.core x).st ≠ .free → (s.ctxAt s.core x).reaping = false → s.here.storesOf x.val = true ∨ s.outlives s.core x = true →
      ∃ t, exec (.reap a) s = .next t ∧ (t.ctxAt s.core x).st = .stopped ∧ (t.ctxAt s.core x).reaping = true ∧
        (t.ctxAt s.core 0).st = .parked .agent ∧ (t.ctxAt s.core 0).park = .ctx ∧ (t.ctxAt s.core 0).req = some (.reap x.val) ∧
        (t.ctxAt s.core 0).pc = s.cur.pc ∧ t.here.sb = s.here.sb)) ∧
  (∀ (s : State) (a b : Src) (x : Fin 16) (n : Reg), s.ctx = 0 → Names s (s.g a.r) x →
    let c := s.ctxAt s.core x
    let asleep := fun (d : Reg) => (∃ w, c.st = .parked w) ∧ c.req = some (.sleep d)
    let inTime := ∀ v, c.deadline = some v → s.cycle ≤ v
    let put := fun (t : State) => t.modCtx s.core x fun c => { c with g := c.g.set n (s.g b.r), full := c.full ||| (1#16 <<< n.val) }
    let pend := fun (t : State) => t.modCtx s.core x fun c => { c with pendWake := true }
    (Ready s [a] [] →
      (c.st = .free → exec (.wake a) s = .next (completed s [a] 4 id)) ∧
      (∀ d, asleep d → Deliverable s s.core x d →
        (inTime → exec (.wake a) s = .next (completed (delivered s s.core x d 1) [a] 4 id)) ∧
        (¬inTime → exec (.wake a) s = .next (completed (pend (delivered s s.core x d 0)) [a] 4 id))) ∧
      (c.st ≠ .free → (∀ d, ¬asleep d) → exec (.wake a) s = .next (completed (pend s) [a] 4 id))) ∧
    (Ready s [a, b] [] →
      (c.st = .free → exec (.wakeV n a b) s = .next (completed s [a, b] 4 id)) ∧
      (asleep n → inTime → Deliverable s s.core x n → exec (.wakeV n a b) s = .next (completed (delivered s s.core x n 1) [a, b] 4 id)) ∧
      (∀ d, asleep d → ¬inTime → Deliverable s s.core x d →
        exec (.wakeV n a b) s = .next (completed (put (delivered s s.core x d 0)) [a, b] 4 id)) ∧
      (c.st ≠ .free → ¬asleep n → (∀ d, asleep d → inTime) → c.undo.ports = [] →
        exec (.wakeV n a b) s = .next (completed (put s) [a, b] 4 id)))) ∧
  (∀ s : State, exec .yield s = .next (completed s [] 4 fun c =>
    { c with yields := ((List.finRange 16).filter fun y => y != s.ctx && s.active s.core y).map (·.val) })) ∧
  (∀ (s : State) (d : Reg) (a : Src), Ready s [a] [d] →
    let limit := (s.g a.r).toNat
    let sleeps := fun (v : Option Nat) => (asked s [a] .sleep (.sleep d) 4).modCur fun c => { c with deadline := v }
    (s.cur.pendWake = true → exec (.sleep d a) s = .next (completed s [a] 4 fun c =>
      { c with pendWake := false, deadline := none, g := c.g.set d 1, full := c.full ||| (1#16 <<< d.val) })) ∧
    (s.cur.pendWake = false →
      (s.cur.deadline = none → exec (.sleep d a) s = .next (sleeps (if limit = 0 then none else some (s.cycle + limit)))) ∧
      (∀ v, s.cur.deadline = some v → s.cycle < v → exec (.sleep d a) s = .next (sleeps (some v))) ∧
      (∀ v, s.cur.deadline = some v → v ≤ s.cycle → exec (.sleep d a) s = .next (completed s [a] 4 fun c =>
        { c with deadline := none, g := c.g.set d 0, full := c.full ||| (1#16 <<< d.val) })))) ∧
  (∀ (s : State) (w : Wait) (d : Reg) (v : Nat),
    let g := s.ev.g
    let x := ctxNo s.ev.x
    (s.ctxAt g x).st = .parked w → (s.ctxAt g x).req = some (.sleep d) → (s.ctxAt g x).deadline = some v → Deliverable s g x d →
    (v ≤ s.cycle → exec .sleepLimit s = .next (delivered s g x d 0)) ∧ (s.cycle < v → exec .sleepLimit s = .next s))

/-- R273, R274, R276, R277: HOP checks its target and its context, waits for its stores, DRAIN, and parks, HOP; once its release is over the
target grants a FREE context and the image is on its way, nowhere to be seen, while the source becomes FREE, or it refuses with 0; the image
acts with gD ← 1 after its acquire, or enters the inbox of a saved core. A pre-emption first waits for the core's buffered stores and
running jobs; a core is saved with its contexts out of their gangs, its data cache empty and its inbox
open, and what an instruction waited for without effect is issued again; it resumes with an empty inbox and issue from context 0. -/
def Obligations.HopAndSave : Prop :=
  (∀ (s : State) (d : Reg) (a : Src), Ready s [a] [d] →
    let i := (s.g a.r).toNat
    let word : W := .ofNat 64 s.cur.iword.toNat
    let bad := s.ctx = 0 ∨ (∃ v ∈ s.cur.trm.toList, v.getLsbD 63 = true) ∨ (∃ j ∈ s.copyJobs s.core, j.ctx = s.ctx.val ∧ j.gone = false) ∨
      ∃ j ∈ s.mxJobs s.core, j.ctx = s.ctx.val ∧ j.gone = false
    let coupled := s.cur.gang ≠ none ∨ s.cur.gword ≠ none
    (8 * (s.partOf s.core).len ≤ i → exec (.hop d a) s = .next (s.takeFault s.core s.ctx 3 0 0 word)) ∧
    (i < 8 * (s.partOf s.core).len → coupled → exec (.hop d a) s = .next (s.takeFault s.core s.ctx 20 0 0 word true)) ∧
    (i < 8 * (s.partOf s.core).len → ¬coupled →
      (bad → exec (.hop d a) s = .next (s.takeFault s.core s.ctx 20 0 0 word)) ∧
      (¬bad → exec (.hop d a) s =
        .next (if s.here.storesOf s.ctx.val then waits s .drain .drained else asked s [a] .hop (.hop d i) 4)))) ∧
  (∀ (s : State) (w : Wait) (d : Reg) (i : Nat) (p : Prog),
    let g := s.ev.g
    let x := ctxNo s.ev.x
    let c := s.ctxAt g x
    let t := 8 * (s.partOf g).base + i
    let y := ctxNo s.ev.n
    let free := fun (y : Fin 16) => y ≠ 0 ∧ (s.ctxAt t y).st = .free ∧ ¬(y = 15 ∧ t = 8 * (s.partOf t).base ∧ (s.partOf t).xlat ≠ none) ∧
      ∀ h ∈ s.hops, ¬(h.core = t ∧ h.ctx = y)
    let image : Ctx := { c with
      ports := c.ports.map fun p => { p with ahead := [], gone := none, page := none }, undo := { clamp := c.undo.clamp }, prog := none
      yields := [], req := some (.hopIn d none), cores := if dieOf g = dieOf t then g :: c.cores.filter (· != g) else [] }
    c.st = .parked w → c.req = some (.hop d i) → (s.coreAt g).storesOf x.val = false → (s.coreAt g).frozen = false →
    c.prog = some p → s.released g p.seq .die = true → (dieOf g = dieOf t ∨ ∀ v ∈ s.invals, ∀ k ∈ g :: c.cores, v.src ≠ some k) →
    (s.coreAt t).away = none →
    (free y → s.otherLaunch g c t = false → ∃ u, exec .hopTargetRequest s = .next u ∧ u.ctxAt g x = {} ∧
      u.ctxAt t y = (if t = g ∧ y = x then {} else s.ctxAt t y) ∧
      u.hops = s.hops ++ [{ core := t, ctx := y, src := g, image := image }]) ∧
    ((∀ y, ¬free y) ∨ s.otherLaunch g c t = true → Deliverable s g x d → exec .hopTargetRequest s = .next (delivered s g x d 0))) ∧
  (∀ (s : State) (d : Reg) (h : Hop),
    let g := s.ev.g
    let x := ctxNo s.ev.x
    s.hops.find? (fun k => k.core == g && k.ctx == x) = some h →
    ((s.coreAt g).frozen = false →
      (h.image.req = some (.hopIn d none) → exec .hopImageArrival s = .next { s with hops := s.hops.map fun k =>
        if k.core = g ∧ k.ctx = x then { k with image := { k.image with
          req := some (.hopIn d (some (if dieOf g = dieOf h.src then [] else (List.range 8).map fun d => (d, s.invSeq)))) } }
        else k }) ∧
      (∀ m l, h.image.req = some (.hopIn d (some (m :: l))) → exec .hopImageArrival s = .next s) ∧
      (∀ r, h.image.req = some (.hopIn d (some [])) → s.readyHop g h.image = some r →
        let u : State := { r with hops := r.hops.filter fun k => !(k.core == g && k.ctx == x) }
        let v := (u.setCtxAt g x { h.image with st := .parked .agent, park := .hop, parkedAt := u.cycle }).acquire g x .die
        Deliverable v g x d → exec .hopImageArrival s = .next (delivered v g x d 1))) ∧
    ((s.coreAt g).away ≠ none → (s.coreAt g).inbox.length < 256 → Msg.hop g x.val ∉ (s.coreAt g).inbox →
      exec .hopImageArrival s = .next (s.modCore g fun c => { c with inbox := c.inbox ++ [.hop g x.val] }))) ∧
  (∀ s : State,
    let g := s.ev.g
    let c := s.coreAt g
    let area := match c.stopping with | some a => a | none => s.ev.v / 1024 * 1024
    c.away = none → c.halted = false → s.partOfCluster (g / 8) ≠ none →
    (c.sb ≠ [] ∨ s.jobRuns g = true → exec .preempt s = .next (s.modCore g fun c => { c with stopping := some area })) ∧
    (c.sb = [] → s.jobRuns g = false → ∃ t, exec .preempt s = .next t ∧
      (t.coreAt g).away = some area ∧ (t.coreAt g).stopping = none ∧ (t.coreAt g).dcache = [] ∧ (t.coreAt g).inbox = [] ∧ (t.coreAt g).pad = c.pad ∧
      (t.coreAt g).acc = c.acc ∧ (t.coreAt g).chans = c.chans ∧ (t.coreAt g).sfq = c.sfq ∧ (t.coreAt g).copyQ = c.copyQ ∧
      (t.coreAt g).mxQ = c.mxQ ∧
      ∀ x : Fin 16,
        ((s.ctxAt g x).st = .free → t.ctxAt g x = s.ctxAt g x) ∧
        ((s.ctxAt g x).st ≠ .free →
          ((∀ d a b, (s.ctxAt g x).req ≠ some (.trwait d a b)) → (t.ctxAt g x).pc = (s.ctxAt g x).pc) ∧
          ((∀ first n, (s.ctxAt g x).gang = some (first, n) → g ∈ s.members g first n) → (t.ctxAt g x).gang = none)) ∧
        (∀ w, (s.ctxAt g x).st = .parked w → (s.ctxAt g x).req = none → (s.ctxAt g x).park ≠ .fenced → (t.ctxAt g x).st = .run))) ∧
  (∀ (s : State) (area : Nat),
    let g := s.ev.g
    (s.coreAt g).away = some area → (s.coreAt g).inbox = [] →
    ∃ t, exec .resume s = .next t ∧ (t.coreAt g).away = none ∧ (t.coreAt g).inbox = [] ∧ (t.coreAt g).lastIssuer = 15) ∧
  (∀ (s : State) (w : Wait),
    let g := s.ev.g
    let x := ctxNo s.ev.x
    let enters := fun (t : Nat) (m : Msg) => (s.coreAt t).away ≠ none → (s.coreAt t).inbox.length < 256 → m ∉ (s.coreAt t).inbox →
      exec .inboxMessage s = .next (s.modCore t fun c => { c with inbox := c.inbox ++ [m] })
    (∀ e, s.ev.n = 0 → (s.coreAt g).stxDue s.ev.v = some e → enters (8 * (s.partOf g).base + e.target) (.stx g e.seq)) ∧
    (∀ d z i a, s.ev.n = 1 → (s.ctxAt g x).st = .parked w → (s.ctxAt g x).req = some (.ldx d z i a) →
      enters (8 * (s.partOf g).base + i) (.ldx g x.val)) ∧
    (∀ f t, s.ev.n = 2 → s.sending g x.val = some (f, t) → enters t (.flit g x.val)) ∧
    ((∃ h ∈ s.hops, h.core = g ∧ h.ctx = x) → s.ev.n = 3 → enters g (.hop g x.val)))

/-! ### Faults, traps, the lead's handler (15) -/

/-- The slot of a stop (R281). -/
def Sys2Proof.Spec.slotOf (s : State) (g : Nat) (x : Fin 16) (kind code sub addr : Nat) (word : W) : Slot :=
  let c := s.ctxAt g x
  { valid := true, kind := kind, code := code, sub := sub, priv := s.privOf g c c.pc, pc := c.pc, word := word, addr := .ofNat 64 addr }

/-- The core after a context of it has stopped: no YIELD waits for it, its slot is filled unless it holds a stop already, its TPEND bit is
set (R271, R281, R282). -/
def Sys2Proof.Spec.slotted (c : CoreSt) (x : Fin 16) (v : Slot) : CoreSt :=
  { c with
    ctxs := c.ctxs.map fun k => { k with yields := k.yields.filter (· != x.val) }
    slots := if (c.slots[x]).valid then c.slots else c.slots.set x v
    tpend := c.tpend ||| (1#16 <<< x.val) }

/-- What a stop drops of the instruction at which it stops: the word that a gang's leader fetched, and, at a fault, the page given up, the
wait for an entry of the port and the deadline of a SLEEP or TRWAIT (R140, R290, R295, R309). -/
def Sys2Proof.Spec.cut (kind : Nat) (k : Ctx) : Ctx :=
  if kind = 0 then { k with gword := none, giveUp := none, entryWait := false, deadline := none, back := 0 } else { k with gword := none }

/-- TAKING A STOP in a context of 1 to 15 while the handler is enabled: STOPPED, with its resume pc in TPC (R282); a handler that is to be
entered issues two cycles later at the soonest (R283). -/
def Sys2Proof.Spec.stopped (s : State) (g : Nat) (x : Fin 16) (v : Slot) (resume : W) : State :=
  let s1 := (s.modCore g fun c => slotted { c with tpc := c.tpc.set x resume } x v).modCtx g x fun k =>
    { (cut v.kind k) with st := .stopped, pc := resume }
  if (s.coreAt g).tact then s1 else s1.modCtx g 0 fun k => { k with notBefore := Nat.max k.notBefore (s.cycle + 2) }

/-- The lead in its handler: TEPC, TACT, the pc at 2 × TVEC.ADDR; the deadline of a SLEEP or TRWAIT that it left is kept for the return
(R283, R309). -/
def Sys2Proof.Spec.entered (s : State) (g : Nat) (tepc : W) : State :=
  (s.modCore g fun c => { c with tepc := tepc, tact := true, tkeep := (s.ctxAt g 0).deadline.map fun d => (tepc, d) }).modCtx g 0 fun k =>
    { k with st := .run, pc := .ofNat 64 (2 * ((s.coreAt g).tvec.toNat / 2)), deadline := none }

/-- The context waits at RECOUPLE or for the others of a gang (R141, R142). -/
def Sys2Proof.Spec.waitsGang (k : Ctx) : Bool := match k.req with | some (.gang ..) => true | _ => false

/-- R279, R281 to R284, R286: a fault or TRAP of a context stops it and fills its slot; in the lead it enters the handler at once; a lead that
is in its handler, or has none, falls: it parks, FENCED, and its core's contexts end, all but a translation, and once they have ended its
queue and slots are cleared; with no handler any other context is reaped instead. -/
def Obligations.FaultEntry : Prop :=
  (∀ (s : State) (g : Nat) (x : Fin 16) (code sub addr n : Nat) (word : W),
    let c := s.coreAt g
    let k := s.ctxAt g x
    let on := c.tvec.getLsbD 0
    let fault := s.takeFault g x code sub addr word
    let trap := s.takeTrap g x n
    let fv := slotOf s g x 0 code sub addr word
    let tv := slotOf s g x 2 n 0 0 (.ofNat 64 k.iword.toNat)
    k.gang = none →
    (x ≠ 0 → on = true → fault = stopped s g x fv k.pc ∧ trap = stopped s g x tv (k.pc + 4)) ∧
    (x = 0 → on = true → c.tact = false →
      let first := fun (v : Slot) => (s.modCore g fun c => slotted c 0 v).modCtx g 0 fun k =>
        { (cut v.kind k) with notBefore := Nat.max k.notBefore (s.cycle + 2) }
      fault = entered (first fv) g k.pc ∧ trap = entered (first tv) g (k.pc + 4)) ∧
    (x = 0 → on = false ∨ c.tact = true →
      (∀ y l, (s.ctxAt g y).st = .free ∨ (s.ctxAt g y).reaping = true ∨ (s.ctxAt g y).role = .translator l → waitsGang (s.ctxAt g y) = false) →
      ∀ t, t = fault ∨ t = trap →
        (t.coreAt g).down = true ∧ (t.ctxAt g 0).st = .parked .agent ∧ (t.ctxAt g 0).park = .fenced ∧
        (∀ y : Fin 16, y ≠ 0 → (t.ctxAt g y).st = .free ∨ ((t.ctxAt g y).st = .stopped ∧ (t.ctxAt g y).reaping = true) ∨
          (s.ctxAt g y).reaping = true ∨ ∃ l, (s.ctxAt g y).role = .translator l) ∧
        ((∀ y : Fin 16, (t.ctxAt g y).reaping = false) →
          (t.coreAt g).fallen = true ∧ (t.coreAt g).sfq = [] ∧ (t.coreAt g).tpend = 0 ∧ (t.coreAt g).tact = false ∧
          ∀ y : Fin 16, ((t.coreAt g).slots[y]).valid = false)) ∧
    (x ≠ 0 → on = false → c.storesOf x.val = false → s.outlives g x = false → fault.ctxAt g x = {} ∧ trap.ctxAt g x = {} ∧
      (fault.coreAt g).tpend.getLsbD x.val = false ∧ (trap.coreAt g).tpend.getLsbD x.val = false))

/-- Double i of a slot (R281). -/
def Sys2Proof.Spec.slotDouble (v : Slot) : Fin 4 → W
  | 0 => .ofNat 64 (v.priv % 2 ^ 32 * 2 ^ 32 + v.code % 2 ^ 8 * 2 ^ 24 + v.sub % 2 ^ 8 * 2 ^ 16 + v.kind % 4 * 2 ^ 4 + if v.valid then 1 else 0)
  | 1 => v.pc
  | 2 => v.word
  | 3 => v.addr

/-- The 32 bytes of a store-fault record (R204). -/
def Sys2Proof.Spec.recordValue (r : SfRec) : Nat :=
  r[0].toNat + 2 ^ 64 * r[1].toNat + 2 ^ 128 * r[2].toNat + 2 ^ 192 * r[3].toNat

/-- R282 to R286, R66, R281: TRAP; ERET and ERET.CTX; FLTINFO and SFREC, which only the lead may issue; the entry of a due handler from a lead
that runs, sleeps or is parked, where a special function or an atomic that has left the core is waited for and any other request that has
left is set aside until the return; a fallen lead's restart; EILL for an illegal encoding, and the fault of a fetch, with WORD 0. The start of
a lead that has never run is the model's own (log 33), and so is the even pc that a handler's return and a restart take (log 91).
An event that cannot happen changes nothing (log 10). -/
def Obligations.TrapsAndRecords : Prop :=
  (∀ (s : State) (n : Fin 64), exec (.trap n) s = .next (s.takeTrap s.core s.ctx n.val)) ∧
  (∀ (s : State) (a : Src) (d : Reg) (i : Fin 4),
    let ectx := s.takeFault s.core s.ctx 20 0 0 (.ofNat 64 s.cur.iword.toNat)
    (s.ctx ≠ 0 → exec .eret s = .next ectx ∧ exec (.eretCtx a) s = .next ectx ∧ exec (.sfrec d a) s = .next ectx ∧
      exec (.fltinfo i d a) s = .next ectx) ∧
    (s.ctx = 0 → s.here.tact = false → exec .eret s = .next ectx)) ∧
  (∀ s : State, s.ctx = 0 → s.here.tact = true → s.cur.aside = none → exec .eret s = .next (completed
    (s.modHere fun c =>
      { c with tact := false, tkeep := none, tpend := c.tpend &&& ~~~1
               slots := c.slots.set 0 { (c.slots[(0 : Fin 16)]) with valid := false } })
    [] 0 fun c =>
      let pc : W := .ofNat 64 (2 * (s.here.tepc.toNat / 2))
      { c with pc := pc, deadline := match s.here.tkeep with | some (q, d) => if q = pc then some d else none | none => none })) ∧
  (∀ (s : State) (a : Aside) (r : Req), s.ctx = 0 → s.here.tact = true → s.cur.aside = some a → a.req = some r →
    ∃ t, exec .eret s = .next t ∧ t.cur.st = .parked .agent ∧ t.cur.req = some r ∧ t.cur.prog = a.prog ∧ t.cur.aside = none ∧
      t.cur.pc = .ofNat 64 (2 * (s.here.tepc.toNat / 2)) ∧ t.cur.g = s.cur.g ∧ t.here.tact = false) ∧
  (∀ (s : State) (a : Src) (x : Fin 16), s.ctx = 0 → Ready s [a] [] → s.g a.r = .ofNat 64 x.val →
    let c := s.ctxAt s.core x
    let resume := s.here.tpc[x]
    let cleared := s.modHere fun c => { c with tpend := c.tpend &&& ~~~(1#16 <<< x.val), slots := c.slots.set x { (c.slots[x]) with valid := false } }
    (x ≠ 0 → c.st = .stopped → c.reaping = false → c.req = none → exec (.eretCtx a) s = .next (completed
      (cleared.modCtx s.core x fun c => { c with st := .run, pc := resume, deadline := if c.pc = resume then c.deadline else none }) [a] 4 id)) ∧
    (∀ r, x ≠ 0 → c.st = .stopped → c.reaping = false → c.req = some r → ∃ t, exec (.eretCtx a) s = .next t ∧
      (t.ctxAt s.core x).st = .parked .agent ∧ (t.ctxAt s.core x).req = some r ∧ (t.ctxAt s.core x).pc = resume ∧
      (t.coreAt s.core).tpend.getLsbD x.val = false ∧ t.cur.pc = s.cur.pc + 4) ∧
    (x = 0 ∨ c.st ≠ .stopped ∨ c.reaping = true → exec (.eretCtx a) s = .next (s.takeFault s.core s.ctx 20 0 0 (.ofNat 64 s.cur.iword.toNat)))) ∧
  (∀ (s : State) (d : Reg) (a : Src) (i : Fin 4), s.ctx = 0 → Ready s [a] [d] →
    let n := (s.g a.r).toNat
    let fault := fun (code addr : Nat) => s.takeFault s.core s.ctx code 0 addr (.ofNat 64 s.cur.iword.toNat)
    (∀ x : Fin 16, n = x.val → exec (.fltinfo i d a) s = .next (wrote s [a] d (slotDouble (s.here.slots[x]) i) 4)) ∧
    (15 < n → exec (.fltinfo i d a) s = .next (fault 20 0)) ∧
    (s.here.sfq = [] → exec (.sfrec d a) s = .next (wrote s [a] d 0 4)) ∧
    (∀ r l, s.here.sfq = r :: l →
      (n % 32 ≠ 0 → exec (.sfrec d a) s = .next (fault 6 n)) ∧
      (n % 32 = 0 → n < 0x0800 ∨ 0x6000 < n + 32 → exec (.sfrec d a) s = .next (fault 3 n)) ∧
      (n % 32 = 0 → 0x0800 ≤ n → n + 32 ≤ 0x6000 → TileOpen s n → (∀ e ∈ s.here.sb, e.fault = none) →
        exec (.sfrec d a) s = .next (wrote ((s.padStore s.core n 32 (recordValue r)).modHere fun c => { c with sfq := l }) [a] d
          (.ofNat 64 (l.length + 1)) 4)))) ∧
  (∀ s : State,
    let g := s.ev.g
    let c := s.coreAt g
    let k := s.ctxAt g 0
    let due := c.tpend ≠ 0 ∧ c.tact = false ∧ c.tvec.getLsbD 0 = true ∧ c.down = false ∧ c.halted = false ∧ c.frozen = false
    let u := fun (t : Token) => s.modCtx g 0 fun c =>
      { (((c.unitWrite t.flags t.sfu).setG (Fin.ofNat 16 t.reg) t.val).tally.advance t.step) with token := none, undo := {}, back := 0 }
    (due → k.st = .run → k.token = none → exec .handlerEntry s = .next (entered s g k.pc)) ∧
    (∀ t, due → k.st = .run → k.token = some t → k.bound (Fin.ofNat 16 t.reg) = false →
      exec .handlerEntry s = .next (entered (u t) g (k.pc + .ofNat 64 t.step))) ∧
    (∀ w d, due → k.st = .parked w → k.token = none → k.req = some (.sleep d) → Deliverable s g 0 d →
      ((∀ v, k.deadline = some v → s.cycle ≤ v) →
        exec .handlerEntry s = .next (entered (delivered s g 0 d 2) g (k.pc + .ofNat 64 k.step))) ∧
      (∀ v, k.deadline = some v → v < s.cycle →
        exec .handlerEntry s = .next (entered (delivered s g 0 d 0) g (k.pc + .ofNat 64 k.step)))) ∧
    (∀ w d a b v, due → k.st = .parked w → k.token = none → k.req = some (.trwait d a b) → k.deadline = some v → v < s.cycle →
      let u := s.modCtx g 0 fun c => c.endTrwait d 0 v
      exec .handlerEntry s = .next (entered u g (k.pc + .ofNat 64 k.step))) ∧
    (∀ w, due → k.st = .parked w → k.token = none → (∀ d, k.req ≠ some (.sleep d)) → s.hasLeft g 0 = false →
      (∀ d a b v, k.req = some (.trwait d a b) → k.deadline = some v → s.cycle ≤ v) →
      ∃ t, exec .handlerEntry s = .next t ∧ (t.coreAt g).tepc = k.pc ∧ (t.coreAt g).tact = true ∧ (t.ctxAt g 0).st = .run ∧
        (t.coreAt g).tkeep = k.deadline.map (fun d => (k.pc, d)) ∧ (t.ctxAt g 0).pc = .ofNat 64 (2 * (c.tvec.toNat / 2)) ∧
        (t.ctxAt g 0).req = none ∧ (t.ctxAt g 0).full = k.full ||| k.undo.full) ∧
    (∀ w r, due → k.st = .parked w → k.req = some r → r.awaited = true → s.hasLeft g 0 = true → exec .handlerEntry s = .next s) ∧
    (∀ w r, due → k.st = .parked w → k.token = none → k.req = some r → r.awaited = false → (∀ l i m, r ≠ .gateBack l true i m) →
      (∀ d, r ≠ .sleep d) → (∀ d a b, r ≠ .trwait d a b) → s.hasLeft g 0 = true →
      ∃ t a, exec .handlerEntry s = .next t ∧ (t.coreAt g).tact = true ∧ (t.coreAt g).tepc = k.pc + .ofNat 64 k.step ∧
        (t.ctxAt g 0).st = .run ∧ (t.ctxAt g 0).req = none ∧ (t.ctxAt g 0).aside = some a ∧ a.req = some r ∧ a.pc = k.pc ∧ a.len = k.step) ∧
    (¬due → exec .handlerEntry s = .next s)) ∧
  (∀ s : State,
    let g := s.ev.g
    let c := s.coreAt g
    c.frozen = false → c.halted = false → s.partOfCluster (g / 8) ≠ none →
    (c.fallen = true → (s.ctxAt g 0).aside = none → exec .leadRestart s = .next ((s.modCore g fun c => { c with fallen := false }).modCtx g 0 fun k =>
      { k with st := .run, pc := .ofNat 64 (s.ev.v / 2 * 2), deadline := none })) ∧
    (c.fallen = false → (s.ctxAt g 0).st = .free → ∃ t, exec .leadRestart s = .next t ∧ (t.ctxAt g 0).st = .run ∧
      (t.ctxAt g 0).pc = .ofNat 64 (s.ev.v / 2 * 2) ∧ (t.ctxAt g 0).role = .lead ∧ (t.ctxAt g 0).g = (s.ctxAt g 0).g)) ∧
  (∀ s : State, s.cur.gydonMode = false →
    exec .illegalEncoding s = .next (s.takeFault s.core s.ctx 1 0 0 (.ofNat 64 s.cur.iword.toNat)) ∧
    (∀ c sub addr keep, s.fetch = .error (.fault c sub addr keep) →
      exec .fetchFault s = .next ((s.modCur fun k => { k with iword := 0 }).takeFault s.core s.ctx c.code sub addr 0 keep)) ∧
    (∀ t, s.fetch = .error (.held t) → exec .fetchFault s = .next t) ∧
    (∀ p w, s.fetch = .error (.park p w) → ∃ t, exec .fetchFault s = .next t ∧ t.cur.st = .parked w ∧ t.cur.pc = s.cur.pc))

/-! ### System registers, counters (03, 15) -/

/-- A fault register (R280). -/
def Sys2Proof.Spec.faultRegister : SysReg → Bool
  | .tvec | .tepc | .tstat | .tsel | .tpc | .sfcnt | .tscr _ => true
  | _ => false

/-- The value of a system register (R80 to R83, R135, R158, R280). -/
def Sys2Proof.Spec.sysValue (s : State) (r : SysReg) : W :=
  let c := s.cur
  let h := s.here
  let flag := fun (b : Bool) (i : Nat) => if b then 2 ^ i else 0
  match r with
  | .ctxstat => .ofNat 64 (c.park.code * 2 ^ 48 + flag c.clamped 15 + flag c.gydonMode 12 + flag (s.ctx == 0) 11 + flag (c.gang != none) 10
      + flag c.trace 9 + flag (s.partOf s.core).guest 8 + s.ctx.val)
  | .fpc => c.fpc
  | .geom => c.geom
  | .fullb => c.full.setWidth 64
  | .sgb n => c.sgb[n]
  | .sgl n => c.sgl[n]
  | .rstk => .ofNat 64 (c.sc % 2 ^ 32 * 2 ^ 8 + c.rstk.length)
  | .strm n =>
    let p := c.ports[n]
    .ofNat 64 (flag p.bound 63 + flag p.cfg 62 + flag (natBit p.desc 163) 61 + natBits p.desc 160 3 * 2 ^ 58 + natBits p.desc 164 3 * 2 ^ 55
      + p.ahead.length % 16 * 2 ^ 48 + p.remain % 2 ^ 32)
  | .trm n => c.trm[n]
  | .gth n => c.gth[n]
  | .tvec => h.tvec
  | .tepc => h.tepc
  | .tstat => .ofNat 64 (flag h.tact 31 + h.tpend.toNat)
  | .tsel => .ofNat 64 h.tsel
  | .tpc => h.tpc[Fin.ofNat 16 h.tsel]
  | .sfcnt => .ofNat 64 h.sfq.length
  | .tscr n => h.tscr[n]

/-- R79 to R83, R280, R293 to R296: MFS reads every system register, MTS writes those that the context may write: segments only narrow, CLAMPED and
the flags of FPC are cleared by ones, reserved bits stay zero, TPC takes an even value for a STOPPED context; everything else is EPRIV.
CNTRD, CNTCFG and CNTSTOP read, set and stop a counter; CNTRD.UNIT reads a shared unit's count, the slice sums after a wait. The park reason of
that wait (log 24), what the slice sums count (log 28) and that a CNTCFG counts as its new event (log 35) are the model's readings. -/
def Obligations.SpecialRegisters : Prop :=
  (∀ (s : State) (r : SysReg) (d : Reg) (a : Src),
    let epriv := s.takeFault s.core s.ctx 2 0 0 (.ofNat 64 s.cur.iword.toNat)
    (Ready s [] [d] → faultRegister r = false ∨ s.ctx = 0 → exec (.mfs r d) s = .next (wrote s [] d (sysValue s r) 4)) ∧
    (faultRegister r = true → s.ctx ≠ 0 → exec (.mfs r d) s = .next epriv ∧ exec (.mts r a) s = .next epriv)) ∧
  (∀ (s : State) (a : Src), Ready s [a] [] →
    let v := s.g a.r
    let epriv := s.takeFault s.core s.ctx 2 0 0 (.ofNat 64 s.cur.iword.toNat)
    let done := fun (f : Ctx → Ctx) => completed s [a] 4 f
    let core := fun (f : CoreSt → CoreSt) => completed (s.modHere f) [a] 4 id
    exec (.mts .ctxstat a) s = .next (done fun c => { c with clamped := c.clamped && !v.getLsbD 15 }) ∧
    (∃ w, exec (.mts .fpc a) s = .next (done fun c => { c with fpc := w }) ∧
      ∀ i : Nat, w.getLsbD i = if i ∈ [0, 1, 8] then v.getLsbD i else if 11 ≤ i ∧ i ≤ 15 then s.cur.fpc.getLsbD i && !v.getLsbD i else false) ∧
    (∃ w, exec (.mts .geom a) s = .next (done fun c => { c with geom := w }) ∧
      ∀ i : Nat, w.getLsbD i = (v.getLsbD i && !(decide (16 ≤ i) && decide (i < 24)))) ∧
    (∀ n : Fin 8,
      let b := s.cur.sgb[n]
      let l := s.cur.sgl[n]
      let limit := fun (x : W) => x.toNat % 2 ^ 48
      (b.toNat ≤ v.toNat → v.toNat ≤ b.toNat + limit l → exec (.mts (.sgb n) a) s = .next (done fun c =>
        { c with sgb := c.sgb.set n v, sgl := c.sgl.set n (l - .ofNat 64 (v.toNat - b.toNat)) })) ∧
      (v.toNat < b.toNat ∨ b.toNat + limit l < v.toNat → exec (.mts (.sgb n) a) s = .next epriv) ∧
      let narrow := segKind v = segKind l ∧ limit v ≤ limit l ∧ ∀ i, 48 ≤ i → i < 53 → v.getLsbD i = true → l.getLsbD i = true
      (narrow → ∃ w, exec (.mts (.sgl n) a) s = .next (done fun c => { c with sgl := c.sgl.set n w }) ∧ w.toNat % 2 ^ 53 = v.toNat % 2 ^ 53 ∧
        segKind w = segKind v) ∧
      (¬narrow → exec (.mts (.sgl n) a) s = .next epriv)) ∧
    (∀ r, r ∈ [SysReg.fullb, .rstk, .tstat, .sfcnt] ∨ (∃ n, r = .strm n) ∨ (∃ n, r = .trm n) ∨ (∃ n, r = .gth n) →
      exec (.mts r a) s = .next epriv) ∧
    (s.ctx = 0 →
      exec (.mts .tvec a) s = .next (core fun c => { c with tvec := v }) ∧
      exec (.mts .tepc a) s = .next (core fun c => { c with tepc := v }) ∧
      exec (.mts .tsel a) s = .next (core fun c => { c with tsel := v.toNat % 16 }) ∧
      (∀ n, exec (.mts (.tscr n) a) s = .next (core fun c => { c with tscr := c.tscr.set n v })) ∧
      (∀ x : Fin 16, s.here.tsel = x.val →
        ((s.ctxAt s.core x).st = .stopped → (s.ctxAt s.core x).reaping = false → v.toNat % 2 = 0 → exec (.mts .tpc a) s = .next (core fun c => { c with tpc := c.tpc.set x v })) ∧
        ((s.ctxAt s.core x).st = .stopped → (s.ctxAt s.core x).reaping = false → v.toNat % 2 = 1 →
          exec (.mts .tpc a) s = .next (s.takeFault s.core s.ctx 6 0 v.toNat (.ofNat 64 s.cur.iword.toNat))) ∧
        ((s.ctxAt s.core x).st ≠ .stopped ∨ (s.ctxAt s.core x).reaping = true →
          exec (.mts .tpc a) s = .next (s.takeFault s.core s.ctx 20 0 0 (.ofNat 64 s.cur.iword.toNat)))))) ∧
  (∀ (s : State) (d n : Reg) (e : Fin 16) (u : Fin 8),
    let k : Fin 8 := Fin.ofNat 8 n.val
    (Ready s [] [d] →
      exec (.cntrd d n) s = .next (wrote s [] d s.cur.cnt[k] 4) ∧
      (u.val < 6 →
        let q := s.quadAt (2 * (s.core / 8) + s.core % 8 / 4)
        let c := s.clusterAt (s.core / 8)
        let count := match u with | 0 => q.issued | 1 => q.done | 2 => c.mxIssued | 3 => c.mxDone | 4 => c.copyIssued | _ => c.copyDone
        exec (.cntrdUnit u d) s = .next (wrote s [] d (.ofNat 64 (count % 2 ^ 48)) 4)) ∧
      (6 ≤ u.val → exec (.cntrdUnit u d) s = .next (asked s [] .mem (.sliceSum d (u == 7)) 4))) ∧
    exec (.cntcfg e n) s = .next (completed s [] 4 fun c =>
      { c with cnt := c.cnt.set k (.ofNat 64 (e.val * 2 ^ 58 + if e = 0 then 0 else 2 ^ 57)) }) ∧
    ∃ w, exec (.cntstop n) s = .next (completed s [] 4 fun c => { c with cnt := c.cnt.set k w }) ∧
      ∀ i : Nat, w.getLsbD i = (s.cur.cnt[k].getLsbD i && !decide (i = 57))) ∧
  (∀ (s : State) (w : Wait) (d : Reg) (m : Bool),
    let g := s.ev.g
    let x := ctxNo s.ev.x
    (s.ctxAt g x).st = .parked w → (s.ctxAt g x).req = some (.sliceSum d m) → Deliverable s g x d →
    exec .sliceSumComplete s = .next (delivered s g x d
      (.ofNat 64 (aget (if m then s.l2Miss else s.l2Acc) (16 * (g / 81920) + s.partNo g) 0 % 2 ^ 48))))

/-! ### Launches from the device (22) -/

/-- The state after a synchronised reading of operands by the executing context (R73). -/
def Sys2Proof.Spec.read (s : State) (srcs : List Src) : State := s.modCur fun c => synced c srcs

/-- Queue q of the executing partition has a valid descriptor with EN and DEV (R365). -/
def Sys2Proof.Spec.DevQueue (s : State) (q : Nat) (k : QDesc) : Prop :=
  ∃ m, s.cpRead (s.partNo s.core) ((s.part (s.partNo s.core)).qtab + 64 * q) 64 = .ok m ∧ queueOf m = some k ∧ k.en = true ∧ k.dev = true

/-- The packet is put into slot TAIL of the queue, its byte 0 last, TAIL having moved on (R366, R389). -/
def Sys2Proof.Spec.Placed (s : State) (q : Nat) (k : QDesc) (packet : List Byte) (t : State) : Prop :=
  ∃ t1 t2,
    let p := s.partNo s.core
    let w := s.cur.writer
    let slot := k.base + 64 * (k.tail % k.size)
    s.cpStore p ((s.part p).qtab + 64 * q + 16) 4 ((k.tail + 1) % 2 ^ 32) w = .ok t1 ∧ t1.cpStores p (slot + 1) w (packet.drop 1) = .ok t2 ∧
      t2.cpStores p slot w (packet.take 1) = .ok t

/-- R382, R388 to R390: LNCH and RELNCH check the packet's address, its TYPE and the queue and park, LAUNCH, for their release; then the 64
bytes read at issue are enqueued, or a full queue answers −1; DTMARK records its span as read, DTWAVE reads the wave and DTFORGET sets FORGET in a traced block, and without one
they do nothing, DTWAVE writing 0. -/
def Obligations.DeviceLaunch : Prop :=
  (∀ (s : State) (re : Bool) (d : Reg) (a b : Src), Ready s [a, b] [d] → (∀ d q l, s.cur.req ≠ some (.enqueue d q l)) →
    let i := if re then Instr.relnch d a b else .lnch d a b
    let v := (s.g a.r).toNat
    let q := (s.g b.r).toNat
    let u := read s [a, b]
    let packet := Memory.bytes s.here.pad v 64
    let type := (Memory.byte s.here.pad v).toNat
    let good := if re then type = 2 else type = 1 ∨ type = 3 ∨ type = 4
    let fault := fun (code sub addr : Nat) => s.takeFault s.core s.ctx code sub addr (.ofNat 64 s.cur.iword.toNat)
    (v % 64 ≠ 0 → exec i s = .next (fault 6 0 v)) ∧
    (v % 64 = 0 → 0x6000 < v + 64 → exec i s = .next (fault 3 0 v)) ∧
    (v % 64 = 0 → v + 64 ≤ 0x6000 → TileOpen s v →
      (¬good → exec i s = .next (fault 15 1 0)) ∧
      (good → 8 ≤ q → exec i s = .next (fault 15 2 0)) ∧
      (good → q < 8 → ∀ m, u.cpRead (u.partNo u.core) ((u.part (u.partNo u.core)).qtab + 64 * q) 64 = .ok m →
        (∀ k, queueOf m = some k → k.en = true → k.dev = true → False) → exec i s = .next (fault 15 2 0)) ∧
      (∀ k, good → q < 8 → DevQueue u q k → exec i s = .next (u.modCur fun c =>
        { c with st := .parked (.fence .part false), park := .launch, parkedAt := s.cycle, req := some (.enqueue d q packet), step := 4,
                 prog := some { seq := s.here.sbSeq, hio := s.hioSeq } })))) ∧
  (∀ (s : State) (re : Bool) (d : Reg) (a b : Src) (q : Nat) (k : QDesc) (packet : List Byte), s.cur.req = some (.enqueue d q packet) →
    s.cur.bound d = false → DevQueue s q k →
    let i := if re then Instr.relnch d a b else .lnch d a b
    let ends := fun (t : State) (v : W) => wrote (t.modCur fun c => { c with req := none, step := 0 }) [] d v 4
    let full := (k.tail + 2 ^ 32 - k.replay) % 2 ^ 32 = k.size
    (full → exec i s = .next (ends s 0xFFFFFFFFFFFFFFFF)) ∧
    (∀ t, ¬full → Placed s q k packet t → exec i s = .next (ends t (.ofNat 64 k.tail)))) ∧
  (∀ (s : State) (l n : Nat) (q : Launch), s.cur.role = .block l n → aget? (s.partOf s.core).launches l = some q → q.trace = true →
    (∀ (d : Reg) (a : Src) (g : Reg) (va : Nat), Ready s [a] [d] →
      let sg : Fin 8 := Fin.ofNat 8 g.val
      let len := (s.g d).toNat
      (len = 0 → exec (.dtmark d a g) s = .next (completed s [a] 4 id)) ∧
      (len ≠ 0 → GlobalAccess s sg (s.g a.r) len 1 [.r] va → va + len ≤ 2 ^ 48 → exec (.dtmark d a g) s = .next (completed (s.noteSpan va len) [a] 4 id))) ∧
    (∀ d : Reg, Ready s [] [d] → exec (.dtwave d) s = .next (wrote s [] d (if q.re then .ofNat 64 q.wave else 0) 4)) ∧
    let u := s.stageReads s.core s.ctx ((s.partOf s.core).tsets[Fin.ofNat 4 q.tset]) n { s.cur.reads with forget := true }
    exec .dtforget s = .next (completed u [] 4 id) ∧ u.cur.reads.forget = true) ∧
  (∀ s : State, (∀ l n, s.cur.role ≠ .block l n) →
    (∀ (d : Reg) (a : Src) (g : Reg), Ready s [a] [d] → exec (.dtmark d a g) s = .next (completed s [a] 4 id)) ∧
    (∀ d : Reg, Ready s [] [d] → exec (.dtwave d) s = .next (wrote s [] d 0 4)) ∧
    exec .dtforget s = .next (completed s [] 4 id))

/-! ### Gates (24) -/

/-- The gate of a handle (R404). -/
def Sys2Proof.Spec.gateOf (h : W) : Nat := h.toNat / 2 ^ 32 % 4096

/-- The state when a gate instruction's request is held, with its release begun (R406, R407). -/
def Sys2Proof.Spec.requested (s : State) (srcs : List Src) (d : Reg) (h : Fin 4) (op : GateOp) : State :=
  (asked s srcs .gate (.gateOut d h.val op) 4).modCur fun c => { c with prog := some { seq := s.here.sbSeq, hio := s.hioSeq } }

/-- An instruction that uses handle h with a right (the bit of R404) raises EGATE 3 on a free slot and EGATE 1 without the right. -/
def Sys2Proof.Spec.HandleChecked (s : State) (i : Instr) (h : Fin 4) (right : Nat) : Prop :=
  let v := s.cur.gth[h]
  let fault := fun (sub : Nat) => s.takeFault s.core s.ctx 9 sub (gateOf v) (.ofNat 64 s.cur.iword.toNat)
  (v.getLsbD 63 = false → exec i s = .next (fault 3)) ∧ (v.getLsbD 63 = true → v.getLsbD right = false → exec i s = .next (fault 1))

/-- R404 to R406, R410: the gate instructions check their handle at the core and then park, GATE, with their request; GTXFER first checks its span,
whose address is a multiple of 64, and translates the whole of it; GTCLOSE frees the slot; GTOPEN with no free slot raises EGATE 6. A lead
whose earlier gate request has been set aside waits for that first, which is the model's choice (log 19). -/
def Obligations.GateInstructions : Prop :=
  (∀ (s : State) (r : Fin 8) (d : Reg) (a : Src), Ready s [a] [d] → s.cur.gateAside = false →
    ((∃ h : Fin 4, s.cur.gth[h].getLsbD 63 = false) → exec (.gtopen r d a) s = .next (asked s [a] .gate (.gateOut d 0 (.open r.val (s.g a.r).toNat)) 4)) ∧
    ((∀ h : Fin 4, s.cur.gth[h].getLsbD 63 = true) →
      exec (.gtopen r d a) s = .next (s.takeFault s.core s.ctx 9 6 (s.g a.r).toNat (.ofNat 64 s.cur.iword.toNat)))) ∧
  (∀ (s : State) (v n : Bool) (h : Fin 4) (d : Reg) (a : Src), Ready s (if v then [a] else []) [d] →
    HandleChecked s (.gtsig v n h d a) h 60 ∧
    (s.cur.gth[h].getLsbD 63 = true → s.cur.gth[h].getLsbD 60 = true →
      (s.cur.gateAside = false → exec (.gtsig v n h d a) s =
        .next (requested s (if v then [a] else []) d h (.sig n (if v then some (s.g a.r) else none)))) ∧
      (s.cur.gateAside = true → exec (.gtsig v n h d a) s = .next (waits s .gate .aside)))) ∧
  (∀ (s : State) (h : Fin 4) (d : Reg) (a : Src),
    (Ready s [a] [d, d + 1] → HandleChecked s (.gtwait h d a) h 61 ∧
      (s.cur.gth[h].getLsbD 63 = true → s.cur.gth[h].getLsbD 61 = true → s.cur.gateAside = false → exec (.gtwait h d a) s = .next (requested s [a] d h (.wait (s.g a.r))))) ∧
    (Ready s [] [d, d + 1] → HandleChecked s (.gtpoll h d) h 61 ∧
      (s.cur.gth[h].getLsbD 63 = true → s.cur.gth[h].getLsbD 61 = true → s.cur.gateAside = false → exec (.gtpoll h d) s = .next (requested s [] d h .poll)))) ∧
  (∀ (s : State) (g : Fin 8) (h : Fin 4) (d : Reg) (a b : Src), Ready s [a, b, ⟨d, false⟩] [] →
    let v := s.cur.gth[h]
    let n := (s.g b.r).toNat
    let o := s.g a.r
    let w := (s.g d).toNat
    let i := Instr.gtxfer g h d a b
    let fault := fun (code sub addr : Nat) => s.takeFault s.core s.ctx code sub addr (.ofNat 64 s.cur.iword.toNat)
    HandleChecked s i h 62 ∧
    (v.getLsbD 63 = true → v.getLsbD 62 = true →
      (n = 0 → exec i s = .next (completed s [a, b] 4 id)) ∧
      (65536 < n → exec i s = .next (fault 9 4 (gateOf v))) ∧
      (n ≠ 0 → n ≤ 65536 → n % 64 ≠ 0 ∨ o.toNat % 64 ≠ 0 ∨ w % 64 ≠ 0 → exec i s = .next (fault 6 0 (s.cur.sgb[g] + o).toNat)) ∧
      (n ≠ 0 → n ≤ 65536 → n % 64 = 0 → o.toNat % 64 = 0 → w % 64 = 0 →
        (segKind s.cur.sgl[g] ≠ 0 → exec i s = .next (fault 3 0 (s.cur.sgb[g] + o).toNat)) ∧
        (∀ va pages t, s.cur.gateAside = false → GlobalAccess s g o n 64 [.g, .r] va → va + n ≤ 2 ^ 48 →
          (read s [a, b]).pagesOf { r := true } 0 va n 3 = .ok (pages, t) →
          exec i s = .next (requested t [] d h (.xfer va w n pages)))))) ∧
  (∀ (s : State) (h : Fin 4), exec (.gtclose h) s = .next (completed s [] 4 fun c =>
    { c with gth := c.gth.set h (c.gth[h] &&& 0x7FFFFFFFFFFFFFFF) }))

/-- The context of core g in its compartment matches an access-list entry (R402). -/
def Sys2Proof.Spec.Matches (s : State) (g : Nat) (x : Fin 16) (e : Acl) : Prop :=
  e.en = true ∧ e.part = s.partNo g ∧ e.pkg = s.pkgnum ∧ (e.comp = 255 ∨ e.comp = (s.ctxAt g x).comp)

/-- The bucket of an entry after n tokens have been charged (R403). -/
def Sys2Proof.Spec.charged (e : Acl) (n : Nat) : Acl := if e.free then e else { e with tokens := e.tokens - n }

/-- The state when a gate operation has been performed and its reply is on the way. -/
def Sys2Proof.Spec.performed (s : State) (g : Nat) (x : Fin 16) (r : Req) : State := s.modCtx g x fun c => { c with req := some r, prog := none }

/-- The state when a request waits at gate i (R403, R407, R412). -/
def Sys2Proof.Spec.queued (s : State) (i g : Nat) (x : Fin 16) (d : Reg) (h : Nat) (op : GateOp) : State :=
  (s.modGate i fun k => { k with queue := k.queue ++ [(g, x.val)] }).modCtx g x fun c => { c with req := some (.gateHeld d h op), prog := none }

/-- A request for gate i whose release is over. -/
structure Sys2Proof.Spec.ForGate (s : State) (w : Wait) (d : Reg) (h : Nat) (op : GateOp) (i : Nat) : Prop where
  /-- the context is parked -/
  parked : (s.ctxAt s.ev.g (ctxNo s.ev.x)).st = .parked w
  /-- the request -/
  req : (s.ctxAt s.ev.g (ctxNo s.ev.x)).req = some (.gateOut d h op)
  /-- the release -/
  release : (∀ nb v, op ≠ .sig nb v) ∧ (∀ a b n l, op ≠ .xfer a b n l) ∨
    ∀ p, (s.ctxAt s.ev.g (ctxNo s.ev.x)).prog = some p → s.released s.ev.g p.seq .part = true
  /-- the context is not being reaped -/
  alive : (s.ctxAt s.ev.g (ctxNo s.ev.x)).reaping = false
  /-- no earlier request of it is set aside -/
  own : (s.ctxAt s.ev.g (ctxNo s.ev.x)).aside = none
  /-- the index -/
  index : i = match op with | .open _ n => n | _ => gateOf (s.ctxAt s.ev.g (ctxNo s.ev.x)).gth[Fin.ofNat 4 h]

/-- A request for gate i whose release is over; nothing waits there and the gate has not moved. -/
structure Sys2Proof.Spec.AtGate (s : State) (w : Wait) (d : Reg) (h : Nat) (op : GateOp) (i : Nat) : Prop where
  /-- the request -/
  asks : ForGate s w d h op i
  /-- not moved -/
  stays : i < 4096 → (s.gate i).fwd = none
  /-- no earlier request waits -/
  first : (s.gate i).queue = []

/-- R400 to R404, R406, R410: what the gate table does with each operation. GTOPEN takes the lowest matching entry that grants the rights and the
lowest free slot. The others need a valid gate with the handle's instance (EGATE 3), and the handle's entry to match and to grant the right
(EGATE 1). GTSIG charges a token and moves SEQ on, or waits, or raises EGATE 2; GTWAIT waits for its target; GTXFER must lie in the window
(EGATE 4) and pays a token for each 4 KiB. A held gate only queues. R407, R413: a GTSIG that reaches the target of a waiting GTWAIT lets it
complete. R412, R452: the request for a gate that has moved waits with the record that is on its way, or goes over the link to another package
and is answered from there once it has left; what an answer carries is the model's own (log 49), as is the order of looks (log 60). -/
def Obligations.GateOperations : Prop :=
  (∀ (s : State) (w : Wait) (d : Reg) (h : Nat) (op : GateOp) (i : Nat), AtGate s w d h op i → i < 4096 → (s.gate i).held = true →
    exec .gateTableOperation s = .next (queued s i s.ev.g (ctxNo s.ev.x) d h op)) ∧
  (∀ (s : State) (w : Wait) (d : Reg) (h r i : Nat), AtGate s w d h (.open r i) i →
    let g := s.ev.g
    let x := ctxNo s.ev.x
    let k := s.gate i
    let grants := fun (e : Fin 8) => Matches s g x k.acl[e] ∧ (k.acl[e]).rights &&& r = r
    let slot := fun (j : Fin 4) => (s.ctxAt g x).gth[j].getLsbD 63 = false
    (4096 ≤ i ∨ (k.held = false ∧ ((∀ e, ¬grants e) ∨ (k.valid = false ∧ ∃ j, slot j))) → exec .gateTableOperation s = .next (s.failReq g x .egate 1 i)) ∧
    (∀ (e : Fin 8) (j : Fin 4), i < 4096 → k.held = false → k.valid = true → grants e → (∀ f, f < e → ¬grants f) → slot j →
      (∀ f, f < j → ¬slot f) → exec .gateTableOperation s = .next (performed s g x (.gateBack [(d, .ofNat 64 j.val)] false
        (some (j.val, .ofNat 64 (2 ^ 63 + r % 8 * 2 ^ 60 + e.val * 2 ^ 57 + i * 2 ^ 32 + k.inst % 2 ^ 32))) none)))) ∧
  (∀ (s : State) (w : Wait) (d : Reg) (h : Nat) (op : GateOp) (i right : Nat), AtGate s w d h op i → (s.gate i).held = false → (∀ r n, op ≠ .open r n) →
    right = (match op with | .sig .. => 0 | .xfer .. => 2 | _ => 1) →
    let g := s.ev.g
    let x := ctxNo s.ev.x
    let k := s.gate i
    let v := (s.ctxAt g x).gth[Fin.ofNat 4 h]
    let e : Fin 8 := Fin.ofNat 8 (v.toNat / 2 ^ 57)
    let a := k.acl[e]
    let good := k.valid = true ∧ k.inst = v.toNat % 2 ^ 32
    let granted := Matches s g x a ∧ natBit a.rights right = true
    let pays := fun (n : Nat) => a.free = true ∨ n ≤ a.tokens
    let fail := fun (sub : Nat) => s.failReq g x .egate sub i
    (¬good → exec .gateTableOperation s = .next (fail 3)) ∧
    (good → ¬granted → exec .gateTableOperation s = .next (fail 1)) ∧
    (good → granted →
      (∀ nb val, op = .sig nb val →
        (pays 1 → k.seq + 1 < 2 ^ 64 → exec .gateTableOperation s = .next (performed
          (s.modGate i fun k => { k with acl := k.acl.set e (charged a 1), seq := k.seq + 1, value := val.getD k.value })
          g x (.gateBack [(d, .ofNat 64 (k.seq + 1))] false none none))) ∧
        (pays 1 → k.seq + 1 = 2 ^ 64 → exec .gateTableOperation s = .next (fail 5)) ∧
        (¬pays 1 → exec .gateTableOperation s = .next (if nb then fail 2 else queued s i g x d h op))) ∧
      (∀ t, op = .wait t → exec .gateTableOperation s = .next (if t.toNat ≤ k.seq then performed s g x
        (.gateBack [(d, .ofNat 64 k.seq), (d + 1, k.value)] true none (some ((List.range 8).map fun d => (d, s.invSeq)))) else queued s i g x d h op)) ∧
      (op = .poll → exec .gateTableOperation s = .next (performed s g x (.gateBack [(d, .ofNat 64 k.seq), (d + 1, k.value)] false none none))) ∧
      (∀ src dst n pages, op = .xfer src dst n pages →
        (k.wlen < dst + n → exec .gateTableOperation s = .next (fail 4)) ∧
        (dst + n ≤ k.wlen → pays ((n + 4095) / 4096) → exec .gateTableOperation s = .next (performed
          (s.modGate i fun k => { k with acl := k.acl.set e (charged a ((n + 4095) / 4096)) }) g x (.gateCopy i src dst n pages))) ∧
        (dst + n ≤ k.wlen → ¬pays ((n + 4095) / 4096) → exec .gateTableOperation s = .next (queued s i g x d h op))))) ∧
  (∀ (s : State) (w : Wait) (d : Reg) (h i : Nat) (nb : Bool) (val : Option W) (f : Nat) (y : Fin 16) (c : Reg) (m : Nat) (t : W),
    ForGate s w d h (.sig nb val) i → i < 4096 →
    let g := s.ev.g
    let x := ctxNo s.ev.x
    let k := s.gate i
    let entry := fun (v : W) => (Fin.ofNat 8 (v.toNat / 2 ^ 57) : Fin 8)
    let v := (s.ctxAt g x).gth[Fin.ofNat 4 h]
    let u := (s.ctxAt f y).gth[Fin.ofNat 4 m]
    let a := k.acl[entry v]
    let b := k.acl[entry u]
    k.fwd = none → k.held = false → k.valid = true → k.queue = [(f, y.val)] → ¬(f = g ∧ y = x) → k.inst = v.toNat % 2 ^ 32 → k.inst = u.toNat % 2 ^ 32 →
    Matches s g x a → natBit a.rights 0 = true → Matches s f y b → natBit b.rights 1 = true → a.free = true ∨ 1 ≤ a.tokens → k.seq + 1 < 2 ^ 64 →
    (s.ctxAt f y).req = some (.gateHeld c m (.wait t)) → (s.ctxAt f y).reaping = false → (s.ctxAt f y).aside = none → t.toNat ≤ k.seq + 1 →
    exec .gateTableOperation s = .next (performed (performed
      (s.modGate i fun k => { k with acl := k.acl.set (entry v) (charged a 1), seq := k.seq + 1, value := val.getD k.value, queue := [] })
      g x (.gateBack [(d, .ofNat 64 (k.seq + 1))] false none none))
      f y (.gateBack [(c, .ofNat 64 (k.seq + 1)), (c + 1, val.getD k.value)] true none (some ((List.range 8).map fun d => (d, s.invSeq)))))) ∧
  (∀ (s : State) (w : Wait) (d : Reg) (h : Nat) (op : GateOp) (i pkg j : Nat), i < 4096 → (s.gate i).fwd = some (pkg, j) → (s.gate i).held = false →
    (s.gate i).valid = false →
    let g := s.ev.g
    let x := ctxNo s.ev.x
    let held := s.modCtx g x fun c => { c with req := some (.gateHeld d h op), prog := none }
    (ForGate s w d h op i → pkg ≠ s.pkgnum → exec .gateTableOperation s = .next (held.sendLink pkg (.gateOp g x.val))) ∧
    (ForGate s w d h op i → pkg = s.pkgnum → (∃ k, (j, k) ∈ s.gateMoves) → exec .gateTableOperation s = .next { held with
      gateMoves := s.gateMoves.map fun m => if m.1 = j then (j, { m.2 with queue := m.2.queue ++ [(g, x.val)] }) else m }) ∧
    ((s.ctxAt g x).req = some (.gateHeld d h op) → (s.ctxAt g x).reaping = false → (s.ctxAt g x).aside = none → pkg ≠ s.pkgnum →
      i = (match op with | .open _ n => n | _ => gateOf (s.ctxAt g x).gth[Fin.ofNat 4 h]) →
      (s.linkOpen pkg (.gateOp g x.val) = false → exec .gateTableOperation s = .next s) ∧
      (s.linkOpen pkg (.gateOp g x.val) = true →
        (s.ev.n = 0 → 1 ≤ s.ev.v → s.ev.v ≤ 6 → exec .gateTableOperation s = .next ((s.withdraw g x.val).failReq g x .egate s.ev.v i)) ∧
        (∀ nb val, op = .sig nb val → s.ev.n = 1 →
          exec .gateTableOperation s = .next (performed (s.withdraw g x.val) g x (.gateBack [(d, .ofNat 64 s.ev.v)] false none none))))))

/-- The next entry of the command ring, of 128 bytes, is a command of a kind (R445; its code, in byte 0, is log 65's). -/
def Sys2Proof.Spec.Turn (s : State) (code : Nat) : Prop := Memory.load s.cmdRing (128 * s.ringPos) 128 % 256 = code

/-- A command of the ring answers in the place of its entry, and the next entry's turn comes (R445; the answer's form is log 65's). -/
def Sys2Proof.Spec.answered (s : State) (ok : Bool) (v : Nat) : State :=
  { s with
    cmdRing := Memory.store s.cmdRing (128 * s.ringPos) 128 ((if ok then 0x80 else 0x81) + v % 2 ^ 960 * 2 ^ 64)
    ringPos := (s.ringPos + 1) % 512 }

/-- A frame belongs to a gate: to its transfer window or a shared region (R434). -/
def Sys2Proof.Spec.Owned (k : Gate) (f : Nat) : Prop :=
  ∃ r ∈ (k.wbase, k.wlen) :: k.shr.toList, r.1 < 65536 * (f + 1) ∧ 65536 * f < r.1 + r.2

/-- R403, R406, R407, R411: a reply takes the acquire of a GTWAIT, whose sweep is over, and writes its registers and handle slot; a
transfer whose lines are all written completes; at each 65,536th cycle every bucket takes its tokens, and a GTSIG that waited for one is
performed. R400, R401, R412, R413, R434, R445, R452: system software creates, changes, destroys and moves gates through the ring, each command
in its turn: a gate that does not exist is refused; a destroyed gate wakes a waiter with EGATE 3; a moving gate is held, leaves a forwarding
entry, goes to another package over the link, and clears HELD where it arrives, its record otherwise unchanged; frames whose key changes fail
their check until they are written. The model's own are: the one step of a transfer and late ticks (log 60), the rewriting at an arrival (log 59),
what comes from other packages (log 49), and the form of the ring's entries and answers (log 65).
An event that cannot happen changes nothing (log 10). -/
def Obligations.GateLives : Prop :=
  (
  (∀ (s : State) (w : Wait) (d : Reg) (v v2 : W) (j : Fin 4) (hw : W) (sweep : Option (List (Nat × Nat))),
    let g := s.ev.g
    let x := ctxNo s.ev.x
    let c := s.ctxAt g x
    c.st = .parked w → c.aside = none → sweep = none ∨ sweep = some [] →
    (Deliverable s g x d →
      (c.req = some (.gateBack [(d, v)] false (some (j.val, hw)) sweep) → exec .gateReply s = .next (s.modCtx g x fun c =>
        (({ c with gth := c.gth.set j hw } : Ctx).setG d v).retire)) ∧
      (c.req = some (.gateBack [(d, v)] false none sweep) → exec .gateReply s = .next (s.modCtx g x fun c => (c.setG d v).retire)) ∧
      (c.req = some (.gateBack [(d, v), (d + 1, v2)] false none sweep) →
        exec .gateReply s = .next (s.modCtx g x fun c => ((c.setG d v).setG (d + 1) v2).retire))) ∧
    (Deliverable s g x d → Deliverable (s.acquire g x .part) g x d → c.req = some (.gateBack [(d, v), (d + 1, v2)] true none sweep) →
      exec .gateReply s = .next ((s.acquire g x .part).modCtx g x fun c => ((c.setG d v).setG (d + 1) v2).retire)) ∧
    ((s.coreAt g).frozen = true → c.req = some (.gateBack [(d, v), (d + 1, v2)] true none sweep) → c.later = false →
      ∃ t, exec .gateReply s = .next t ∧ (t.ctxAt g x).st = .run ∧ (t.ctxAt g x).req = none ∧ (t.ctxAt g x).pc = c.pc)) ∧
  (∀ (s u t : State) (i src dst n : Nat) (pages : List Nat),
    let g := s.ev.g
    let x := ctxNo s.ev.x
    let scrubs := s.scrubPages g (pages.mapIdx fun k pa => ((src / 65536 + k) * 65536, pa))
    (s.ctxAt g x).req = some (.gateCopy i src dst n pages) → (s.ctxAt g x).reaping = false → (s.ctxAt g x).aside = none →
    (s.ctxAt g x).later = false → (s.coreAt g).away = none →
    (scrubs = none → exec .gateTransferComplete s = .next s) ∧
    (scrubs = some u → u.copyAll g x src ((s.gate i).wbase + dst) pages (n / 64) 0 = (t, none) →
      exec .gateTransferComplete s = .next (t.modCtx g x Ctx.retire))) ∧
  (∀ s : State, s.cycle < 65536 * (s.refills + 1) → exec .gateRefillTick s = .next s) ∧
  (∀ s : State, 65536 * (s.refills + 1) ≤ s.cycle → (∀ e ∈ s.gates, e.2.queue = []) →
    exec .gateRefillTick s = .next { s with
      refills := s.refills + 1
      gates := s.gates.map fun e => (e.1, { e.2 with acl := e.2.acl.map fun a =>
        { a with tokens := Nat.min a.burst (a.tokens + a.rate), free := a.burst == 0 } }) }) ∧
  (∀ (s : State) (i g : Nat) (x : Fin 16) (d : Reg) (h : Nat) (nb : Bool) (val : Option W) (k : Gate), 65536 * (s.refills + 1) ≤ s.cycle →
    let v := (s.ctxAt g x).gth[Fin.ofNat 4 h]
    let e : Fin 8 := Fin.ofNat 8 (v.toNat / 2 ^ 57)
    let a := k.acl[e]
    s.gates = [(i, k)] → k.queue = [(g, x.val)] → k.held = false → (s.ctxAt g x).req = some (.gateHeld d h (.sig nb val)) →
    (s.ctxAt g x).reaping = false → (s.ctxAt g x).aside = none → k.valid = true →
    k.inst = v.toNat % 2 ^ 32 → Matches s g x a → natBit a.rights 0 = true → 0 < a.burst → 0 < a.tokens + a.rate → k.seq + 1 < 2 ^ 64 →
    ∃ t, exec .gateRefillTick s = .next t ∧ (t.gate i).seq = k.seq + 1 ∧ (t.gate i).queue = [] ∧ (t.gate i).value = val.getD k.value ∧
      ((t.gate i).acl[e]).tokens = Nat.min a.burst (a.tokens + a.rate) - 1 ∧
      (t.ctxAt g x).req = some (.gateBack [(d, .ofNat 64 (k.seq + 1))] false none none))) ∧
  (
  (∀ s : State,
    let i := s.ev.x
    let k := s.gate i
    let f := natBytes (ofBytes s.ev.bytes)
    (Turn s 1 →
      (4096 ≤ i ∨ k.valid = true ∨ k.held = true → exec .gateCreate s = .next (answered s false i)) ∧
      (i < 4096 → k.valid = false → k.held = false → ∃ n : Gate, exec .gateCreate s =
          .next (answered (({ s with gates := aset s.gates i n, draws := s.draws + 1 } : State).rekeyGate {} n) true i) ∧
        n.valid = true ∧ n.held = false ∧ n.fwd = none ∧ n.queue = [] ∧ n.key = s.draws ∧ n.seq = f 0 8 ∧ n.value = .ofNat 64 (f 8 8) ∧
        n.inst = f 16 4 ∧ n.wbase = f 24 8 / 65536 * 65536 ∧ n.wlen = Nat.min (f 32 8 / 65536 * 65536) (2 ^ 24))) ∧
    (Turn s 2 →
      (k.valid = false → exec .gateChange s = .next (answered s false i)) ∧
      (k.valid = true → k.queue = [] → ∃ n : Gate, exec .gateChange s =
          .next (answered (({ s with gates := aset s.gates i n } : State).rekeyGate k n) true i) ∧
        n.valid = true ∧ n.held = k.held ∧ n.key = k.key ∧ n.seq = f 0 8 ∧ n.value = .ofNat 64 (f 8 8) ∧ n.inst = f 16 4)) ∧
    (Turn s 3 →
      let gone := ({ s with gates := aset s.gates i { k with valid := false, held := false, fwd := none } } : State).rekeyGate k {}
      (k.valid = false → exec .gateDestroy s = .next (answered s false i)) ∧
      (k.valid = true → k.queue = [] → exec .gateDestroy s = .next (answered gone true i)) ∧
      (∀ (g : Nat) (x : Fin 16) (d : Reg) (h : Nat) (t : W), k.valid = true → k.queue = [(g, x.val)] →
        (s.ctxAt g x).req = some (.gateHeld d h (.wait t)) → gateOf (s.ctxAt g x).gth[Fin.ofNat 4 h] = i → (s.ctxAt g x).aside = none →
        exec .gateDestroy s = .next (answered ((gone.failReq g x .egate 3 i).modGate i fun k => { k with queue := [] }) true i))) ∧
    (Turn s 4 →
      (k.valid = false ∨ k.held = true ∨ 4096 ≤ s.ev.v → exec .gateMigrate s = .next (answered s false i)) ∧
      (k.valid = true → k.held = false → s.ev.v < 4096 →
        exec .gateMigrate s = .next (answered { s with gates := aset s.gates i { k with held := true, fwd := some (s.ev.n, s.ev.v) } } true i))) ∧
    ((¬Turn s 1 → exec .gateCreate s = .next s) ∧ (¬Turn s 2 → exec .gateChange s = .next s) ∧ (¬Turn s 3 → exec .gateDestroy s = .next s) ∧
      (¬Turn s 4 → exec .gateMigrate s = .next s)) ∧
    (∀ pkg j, k.fwd = some (pkg, j) → k.held = true →
      (∀ c ∈ s.cores, ∀ y : Fin 16, (c.2.ctxs[y]).aside = none ∧ ∀ a b n l, (c.2.ctxs[y]).req ≠ some (.gateCopy i a b n l)) →
      let left := { s with gates := aset s.gates i { fwd := k.fwd } }
      (pkg = s.pkgnum → exec .gateMigrationSend s = .next { left with gateMoves := s.gateMoves ++ [(j, { k with fwd := none })] }) ∧
      (pkg ≠ s.pkgnum → exec .gateMigrationSend s = .next (k.queue.foldl (fun (t : State) e => t.sendLink pkg (.gateOp e.1 e.2))
        (left.sendLink pkg (.gate j { k with queue := [] })))))) ∧
  (∀ (s : State) (old new : Gate), ∃ l, s.rekeyGate old new = { s with tags := l } ∧
    ∀ f, (∀ t, aget? s.tags f = some t → t.world = 255 → ¬(Owned old f ↔ Owned new f) → aget? l f = some { t with written := some [] }) ∧
      ((∀ t, aget? s.tags f = some t → t.world = 255 → (Owned old f ↔ Owned new f)) → aget? l f = aget? s.tags f)) ∧
  (∀ (s : State) (m : Nat × Gate),
    let i := s.ev.x
    let linked := (s.links[Fin.ofNat 16 s.ev.p]).active
    i < 4096 → (s.gate i).valid = false → (s.gate i).held = false →
    (s.ev.n ≠ 1 → s.ev.bytes = [] → s.gateMoves.find? (fun m => m.1 == i) = some m → m.2.queue = [] →
      exec .gateMigrationArrival s = .next { s with
        gates := aset s.gates i { m.2 with held := false }, gateMoves := s.gateMoves.filter fun w => w.1 != i }) ∧
    (s.ev.n = 1 → linked = true → ∃ n : Gate,
      exec .gateMigrationArrival s = .next (({ s with gates := aset s.gates i n } : State).rekeyGate {} n) ∧ n.valid = true ∧ n.held = false ∧
      n.seq = natBytes (ofBytes s.ev.bytes) 0 8 ∧ n.key = s.ev.v) ∧
    (s.ev.n = 1 → linked = false → exec .gateMigrationArrival s = .next s)))

/-! ### Trust (26) -/

/-- R438 to R441, R435: EVREQ checks its nonce and its span, translates the whole of it and joins the requests of the partition, KEY; KINST
reads its blob likewise; CMPSW changes the compartment, or raises EKEY 5, 6 or 7. R428, R429, R433, R435, R436, R438 to R440, R445: the
security processor serves the oldest request once the core's earlier writes are performed: the evidence record is written and EVREQ completes
with 4864; it refuses a blob with EKEY or starts the rotation; a rotation takes one line of the compartment's frames a step, a new frame
moving its counter on; it creates compartments, sets frame tags and answers its certificate, each command in its turn in the ring. The model's
readings and choices here are logs 62 (when a request is looked at), 63 (KINST ends with KNEW set; the order of the sweep), 64 (tags), 65 (the
ring's entries and answers) and 115 (the frames of a sweep).
An event that cannot happen changes nothing (log 10). -/
def Obligations.Trust : Prop :=
  (
  (∀ (s : State) (g : Fin 8) (d : Reg) (a b : Src), Ready s [a, b] [d] →
    let n := (s.g b.r).toNat
    let i := Instr.evreq g d a b
    let fault := fun (code addr : Nat) => s.takeFault s.core s.ctx code 0 addr (.ofNat 64 s.cur.iword.toNat)
    (n % 64 ≠ 0 → exec i s = .next (fault 6 n)) ∧
    (n % 64 = 0 → 0x5FC0 < n → exec i s = .next (fault 3 n)) ∧
    (n % 64 = 0 → n ≤ 0x5FC0 → TileOpen s n →
      (segKind s.cur.sgl[g] ≠ 0 → exec i s = .next (fault 3 (s.cur.sgb[g] + s.g a.r).toNat)) ∧
      (∀ va pages t, GlobalAccess s g (s.g a.r) 4864 64 [.w] va → va + 4864 ≤ 2 ^ 48 →
        (read s [a, b]).pagesOf { w := true } 1 va 4864 3 = .ok (pages, t) →
        exec i s = .next ((asked t [] .key (.evidence d va (Memory.bytes s.here.pad n 64)) 4).modPart (s.partNo s.core) fun p =>
          { p with evQ := p.evQ ++ [(s.core, s.ctx.val)] })))) ∧
  (∀ (s : State) (g : Fin 8) (d : Reg) (a : Src), Ready s [a] [d] →
    (segKind s.cur.sgl[g] ≠ 0 → exec (.kinst g d a) s =
      .next (s.takeFault s.core s.ctx 3 0 (s.cur.sgb[g] + s.g a.r).toNat (.ofNat 64 s.cur.iword.toNat))) ∧
    (∀ va pages blob t u, GlobalAccess s g (s.g a.r) 1216 64 [.r] va → va + 1216 ≤ 2 ^ 48 →
      (read s [a]).pagesOf { r := true } 0 va 1216 3 = .ok (pages, t) → t.readSpan va pages va 152 = .ok (blob, u) →
      exec (.kinst g d a) s = .next (asked u [] .key (.keyInst d blob) 4))) ∧
  (∀ (s : State) (d : Reg) (a : Src), Ready s [a] [d] →
    let c := (s.g a.r).toNat
    let k := s.compOf (s.partOf s.core) c
    let key := match s.cur.role with
      | .block l _ => (aget? (s.partOf s.core).launches l).map fun q => q.key
      | _ => none
    let fault := fun (sub : Nat) => s.takeFault s.core s.ctx 19 sub 0 (.ofNat 64 s.cur.iword.toNat)
    let entry := c = 0 ∨ k.entry = 0 ∨ key = some k.entry
    let alone := ∀ x : Fin 16, x ≠ 0 → x ≠ s.ctx → (s.ctxAt s.core x).st ≠ .free → (s.ctxAt s.core x).comp = 0 ∨ (s.ctxAt s.core x).comp = c
    (15 < c ∨ k.made = false → exec (.cmpsw d a) s = .next (fault 5)) ∧
    (c ≤ 15 → k.made = true →
      (¬entry → exec (.cmpsw d a) s = .next (fault 6)) ∧
      (entry → ¬alone → exec (.cmpsw d a) s = .next (fault 7)) ∧
      (entry → alone → exec (.cmpsw d a) s = .next (wrote (s.modCur fun k => { k with comp := c }) [a] d (.ofNat 64 s.cur.comp) 4))))) ∧
  (
  (∀ (s : State) (w : Wait) (d : Reg) (va : Nat) (nonce : List Byte),
    let g := s.ev.g
    let x := ctxNo s.ev.x
    let p := s.partNo g
    let k := (s.ctxAt g x).prog.getD (s.newProg g)
    let wrote := s.cpStores p va none (s.evidence g x nonce) (s.ctxAt g x).comp
    (s.ctxAt g x).st = .parked w → (s.ctxAt g x).req = some (.evidence d va nonce) →
    ((s.part p).evQ.head? ≠ some (g, x.val) ∨ (s.coreAt g).frozen = true → exec .evidenceComplete s = .next s) ∧
    ((s.part p).evQ.head? = some (g, x.val) → (s.coreAt g).frozen = false →
      (s.xReleased g k 0x21 .core = false → exec .evidenceComplete s = .next (s.modCtx g x fun c => { c with prog := some k })) ∧
      (s.xReleased g k 0x21 .core = true →
        (∀ t, wrote = .ok t →
          let u := (({ t with draws := t.draws + 1, freeCnt := t.freeCnt + 1 } : State).acquire g x .quad).modPart p fun r => { r with evQ := r.evQ.drop 1 }
          Deliverable u g x d → exec .evidenceComplete s = .next (delivered u g x d 4864)) ∧
        (wrote = .error .refused → exec .evidenceComplete s = .next (s.failReq g x .eprot 0 va)) ∧
        (∀ pa, wrote = .error (.bad pa) → exec .evidenceComplete s = .next (s.uncorrectable p pa g))))) ∧
  (∀ (s : State) (g : Nat) (x : Fin 16) (nonce : List Byte), nonce.length = 64 →
    (s.evidence g x nonce).take 72 = [1, 0, 0, 0, 0, 19, 0, 0] ++ nonce) ∧
  (∀ (s : State) (w : Wait) (d : Reg) (blob : List Byte),
    let g := s.ev.g
    let x := ctxNo s.ev.x
    let c := (s.ctxAt g x).comp
    (s.ctxAt g x).st = .parked w → (s.ctxAt g x).req = some (.keyInst d blob) →
    (s.coreAt g).away = none →
    let opened := s.openBlob (s.keyPart (s.partNo g)) c blob
    (∀ sub, opened = .error sub → exec .keyInstallComplete s = .next (s.failReq g x .ekey sub 0)) ∧
    (natBytes (ofBytes blob) 0 4 ≠ 1 → exec .keyInstallComplete s = .next (s.failReq g x .ekey 5 0)) ∧
    (∀ key, opened = .ok key → Deliverable s g x d → exec .keyInstallComplete s =
      .next (delivered (s.modComp (s.partOf g).world c fun k => { k with knew := key, kstate := 2, sweep := 0, left := [] }) g x d (.ofNat 64 c)))) ∧
  (∀ s : State,
    let p := s.ev.p % 16
    let c := s.ev.x % 16
    let w := (s.part p).world
    let k := s.compOf (s.part p) c
    let rotated := fun (k : Comp) => { k with k := k.knew, knew := 0, kstate := 1, sweep := 0, left := [] }
    (k.kstate ≠ 2 → exec .rotationSweepStep s = .next s) ∧
    (k.kstate = 2 → s.sweepLine w c k.left k.sweep = none → exec .rotationSweepStep s = .next (s.modComp w c rotated)) ∧
    (∀ line, k.kstate = 2 → s.sweepLine w c k.left k.sweep = some line →
      (s.lineReadable line = false → exec .rotationSweepStep s = .next (s.uncorrectable p (64 * line) (8 * (s.part p).base) false)) ∧
      (s.lineReadable line = true →
        let t := aget s.tags (line / 1024) {}
        let u := ({ s with tags := if line % 1024 = 0 then aset s.tags (line / 1024) { t with ctr := (t.ctr + 1) % 2 ^ 32 } else s.tags } : State)
        let v := u.modComp w c fun k => { k with sweep := line + 1 }
        exec .rotationSweepStep s = .next (if v.sweepLine w c k.left (line + 1) = none then v.modComp w c rotated else v)))) ∧
  (∀ s : State,
    let p := s.ev.p % 16
    let c := s.ev.x
    let w := (s.part p).world
    let made := (s.compOf (s.part p) c).made
    (Turn s 5 →
      ((s.part p).en = false ∨ c = 0 ∨ 15 < c ∨ made = true → exec .createCompartment s = .next (answered s false c)) ∧
      ((s.part p).en = true → 0 < c → c ≤ 15 → made = false → ∃ k : Comp,
        exec .createCompartment s = .next (answered ((({ s with draws := s.draws + 1 } : State).modComp w c fun _ => k).rekey
          fun _ f => f.world == w && f.comp == c) true c) ∧
        k.made = true ∧ k.entry = ofBytes s.ev.bytes % 2 ^ 256 ∧ k.kstate = 0)) ∧
    (Turn s 6 → ∃ t : FrameTag, exec .setFrameTag s = .next (answered { s with
        tags := aset s.tags s.ev.g t, worlds := s.worlds.map fun e => (e.1, e.2.leaves s.ev.g) } true s.ev.g) ∧
      t.world = s.ev.v / 2 ^ 8 % 2 ^ 8 ∧ t.comp = s.ev.v / 2 ^ 4 % 2 ^ 4 ∧ t.sealed = natBit s.ev.v 3 ∧
      t.ctr = ((aget s.tags s.ev.g {}).ctr + 1) % 2 ^ 32 ∧ (t.sealed = false → t.written = some [])) ∧
    (Turn s 7 → exec .readCertificate s = .next (answered s true (ofBytes ((Config.certificate.drop s.ev.v).take 120)))) ∧
    ((¬Turn s 5 → exec .createCompartment s = .next s) ∧ (¬Turn s 6 → exec .setFrameTag s = .next s) ∧
      (¬Turn s 7 → exec .readCertificate s = .next s))) ∧
  (∀ (s : State) (f : Nat → FrameTag → Bool), ∃ l, s.rekey f = { s with tags := l } ∧
    ∀ n, aget? l n = (aget? s.tags n).map fun t => if f n t = true then { t with written := some [] } else t))

/-! ### Gydon (02) -/

/-- The executing context translates t, and its meter can pay the cost of an instruction (R40). -/
def Sys2Proof.Spec.Translating (s : State) (cost : Nat) (t : Xlat) : Prop := s.curPart.xlat = some t ∧ cost ≤ s.cur.gyd.meter

/-- A Gydon instruction has completed with its registers and its translation, and is charged (R40). Nothing else changes. -/
def Sys2Proof.Spec.ran (s : State) (cost : Nat) (k : Gydon) (t : Xlat) : State :=
  (s.modPart (s.partNo s.core) fun p => { p with xlat := some t }).modCur fun c => ({ c with gyd := { k with meter := k.meter - cost } } : Ctx).done

/-- The translation of context x of core g ends in refusal with a code, a subcode, a reason and the units used (R23, R53). -/
def Sys2Proof.Spec.refused (s : State) (g : Nat) (t : Xlat) (k : Gydon) (code sub reason units : Nat) : State :=
  s.refuseXlat (s.partNo g) t code sub reason units k.pc k.outLen

/-- The length of a window: IN, TAB, OUT, SCR, ARG (R28); none for a code that selects no window. -/
def Sys2Proof.Spec.windowLength (s : State) (t : Xlat) (k : Gydon) (code : Nat) : Option Nat :=
  if code = 1 then some t.plen
  else if code = 2 then some (16 * s.recs.length)
  else if code = 3 then some (2 * k.outLen)
  else if code = 4 then some 8192
  else if code = 5 then some t.argl
  else none

/-- Check of R29: the fault code, or none. -/
def Sys2Proof.Spec.windowCheck (s : State) (t : Xlat) (k : Gydon) (a n : Nat) (store : Bool) : Option Nat :=
  match windowLength s t k (a / 2 ^ 28) with
  | none => some 3
  | some l =>
    if l < a % 2 ^ 28 + n then some 3
    else if store = true ∧ a / 2 ^ 28 ≠ 4 then some 3
    else if a % n ≠ 0 then some 6
    else none

/-- Where the translation area holds a window's byte; TAB is the chip-table image (R51, R57). -/
def Sys2Proof.Spec.areaOf (t : Xlat) (a : Nat) : Option Nat :=
  match a / 2 ^ 28 with
  | 1 => some (t.vIn + a % 2 ^ 28)
  | 3 => some (t.vOut + a % 2 ^ 28)
  | 4 => some (t.vScr + a % 2 ^ 28)
  | 5 => some (t.vArg + a % 2 ^ 28)
  | _ => none

/-- Context x of core g reaches a page of the translation area with a right; the state with the port's new entry (R51, R57). -/
def Sys2Proof.Spec.AreaReaches (s : State) (g : Nat) (x : Fin 16) (a : Nat) (store : Bool) (pa : Nat) (e : TlbEnt) (u : State) : Prop :=
  (s.ctxAt g x).giveUp ≠ some (a / 65536) ∧ s.translate g (s.ctxAt g x).comp a { r := !store, w := store } = (.ok pa e, u)

/-- Context x of core g writes n bytes of the translation area (R51, R57): the page is reached, its scrub record is there, and the line can be
written. -/
def Sys2Proof.Spec.AreaWrites (s : State) (g : Nat) (x : Fin 16) (a n v : Nat) (t : State) : Prop :=
  ∃ pa e u w, AreaReaches s g x a true pa e u ∧ u.readyScrub (u.partNo g) e = some w ∧ w.lineLive (pa / 64) = true ∧ t = w.coreWrite g a pa n v none

/-- The origin map with an entry at a native offset: the entry's index and the map, latest first; none where it is full (R48). -/
def Sys2Proof.Spec.mapWith (m : List (Nat × Nat)) (o v : Nat) : Option (Nat × List (Nat × Nat)) :=
  match m with
  | [] => some (0, [(o, v)])
  | e :: l => if e.1 = o then some (l.length, (o, v) :: l) else if 65536 ≤ l.length + 1 then none else some (l.length + 1, (o, v) :: e :: l)

/-- R40 to R42, R44, R48, R50, R53: with one unit, the immediates, moves, arithmetic and shifts write bD, the branches move the pc by their
signed offset in halfwords, ORIG adds or replaces an entry of the map of at most 65,536 in the translation area, parking
for a page that is not there, and FAIL refuses the binary with bA[15:0] as its
reason; each is charged one unit. Without it they raise EMETER, which refuses the binary. -/
def Obligations.GydonRegisters : Prop :=
  (∀ (s : State) (t : Xlat), Translating s 1 t →
    let k := s.cur.gyd
    let w := s.cur.iword.toNat
    let d : Fin 8 := Fin.ofNat 8 (w / 256)
    let x := (k.b[(Fin.ofNat 8 (w / 32) : Fin 8)]).toNat
    let y := (k.b[(Fin.ofNat 8 (w / 4) : Fin 8)]).toNat
    let z := (k.b[d]).toNat
    let imm := w % 256
    let off : Int := if w % 32 < 16 then (w % 32 : Nat) else ((w % 32 : Nat) : Int) - 32
    let far : Int := if w % 2048 < 1024 then (w % 2048 : Nat) else ((w % 2048 : Nat) : Int) - 2048
    let sets := fun v : Nat => ran s 1 { k with b := k.b.set d (.ofNat 32 v), pc := k.pc + 1 } t
    let goes := fun (b : Bool) (o : Int) => ran s 1 { k with pc := if b then (((k.pc : Int) + o) % 2 ^ 32).toNat else k.pc + 1 } t
    exec .gydonLi s = .next (sets (if imm < 128 then imm else imm + 2 ^ 32 - 256)) ∧
    exec .gydonLhi s = .next (sets (imm * 2 ^ 24 + z % 2 ^ 24)) ∧
    exec .gydonMv s = .next (sets x) ∧
    exec .gydonAdd s = .next (sets (x + y)) ∧
    exec .gydonSub s = .next (sets (x + 2 ^ 32 - y)) ∧
    exec .gydonAnd s = .next (sets (x &&& y)) ∧
    exec .gydonOr s = .next (sets (x ||| y)) ∧
    exec .gydonXor s = .next (sets (x ^^^ y)) ∧
    exec .gydonShl s = .next (sets (x * 2 ^ (y % 32))) ∧
    exec .gydonShr s = .next (sets (x / 2 ^ (y % 32))) ∧
    exec .gydonBeq s = .next (goes (z == x) off) ∧
    exec .gydonBne s = .next (goes (z != x) off) ∧
    exec .gydonBlt s = .next (goes (decide ((BitVec.ofNat 32 z).toInt < (BitVec.ofNat 32 x).toInt)) off) ∧
    exec .gydonJmp s = .next (goes true far) ∧
    (mapWith t.omap k.outLen x = none → exec .gydonOrig s = .next (refused s s.core t k 18 9 0 (t.budget - k.meter))) ∧
    (∀ n m, mapWith t.omap k.outLen x = some (n, m) →
      (∀ u, AreaWrites s s.core s.ctx (t.vMap + 8 * n) 8 (k.outLen % 2 ^ 32 + 2 ^ 32 * x) u →
        exec .gydonOrig s = .next (ran u 1 { k with pc := k.pc + 1, mapLen := n + 1 } { t with omap := m })) ∧
      (∀ u, s.cur.giveUp ≠ some ((t.vMap + 8 * n) / 65536) → s.translate s.core s.cur.comp (t.vMap + 8 * n) { r := false, w := true } = (.absent, u) →
        u.migrates (u.partNo s.core) (t.vMap + 8 * n) = false →
        exec .gydonOrig s = .next (u.pageWait s.core s.ctx 8 (t.vMap + 8 * n)))) ∧
    exec .gydonFail s = .next (refused s s.core t k 0xF0 0 (x % 65536) (t.budget - k.meter + 1))) ∧
  (∀ (s : State) (t : Xlat), s.curPart.xlat = some t →
    let poor := (Host.Outcome.next (refused s s.core t s.cur.gyd 17 0 0 (t.budget - s.cur.gyd.meter)) : Host.Outcome State Fault Refusal)
    (s.cur.gyd.meter = 0 → ∀ i ∈ [Instr.gydonLi, .gydonLhi, .gydonMv, .gydonAdd, .gydonSub, .gydonAnd, .gydonOr, .gydonXor, .gydonShl, .gydonShr,
      .gydonBeq, .gydonBne, .gydonBlt, .gydonJmp, .gydonOrig, .gydonFail, .gydonLdb, .gydonLdh, .gydonLdw, .gydonStw, .gydonTbl, .gydonField,
      .gydonDone], exec i s = poor) ∧
    (s.cur.gyd.meter < 2 → exec .gydonEmit s = poor ∧ exec .gydonEmitH s = poor))

/-- R29, R40, R43, R45 to R47, R49: a load and STW check their window and its bounds, then their alignment, and park for the access; TBL, FIELD
and EMIT park while they read the table; DONE checks each emitted branch, and parks for the cache write. A refused check ends the
translation with its fault and the units used so far. -/
def Obligations.GydonAccesses : Prop :=
  ∀ (s : State) (t : Xlat),
    let k := s.cur.gyd
    let w := s.cur.iword.toNat
    let x := (k.b[(Fin.ofNat 8 (w / 32) : Fin 8)]).toNat
    (Translating s 1 t →
      (∀ p ∈ [(Instr.gydonLdb, 1, false), (.gydonLdh, 2, false), (.gydonLdw, 4, false), (.gydonStw, 4, true)],
        let a := (x + w % 32 * p.2.1) % 2 ^ 32
        (∀ code, windowCheck s t k a p.2.1 p.2.2 = some code → exec p.1 s = .next (refused s s.core t k code 0 0 (t.budget - k.meter))) ∧
        (windowCheck s t k a p.2.1 p.2.2 = none → exec p.1 s = .next (asked s [] .mem (.gydon (areaOf t a)) 0))) ∧
      exec .gydonTbl s = .next (asked s [] .mem (.gydon none) 0) ∧
      exec .gydonField s = .next (asked s [] .mem (.gydon none) 0) ∧
      (let target := fun (e : Nat × Nat × Nat × Nat) =>
        let word := (t.out.reverse[e.1]?.getD 0).toNat + (if e.2.1 = 2 then 65536 * (t.out.reverse[e.1 + 1]?.getD 0).toNat else 0)
        (e.1 : Int) + ((BitVec.ofNat e.2.2.2 (word / 2 ^ e.2.2.1)).toInt)
       let inside := fun (e : Nat × Nat × Nat × Nat) => e.2.2.2 = 0 ∨ (0 ≤ target e ∧ target e < t.out.length)
       let lands := fun (e : Nat × Nat × Nat × Nat) => e.2.2.2 = 0 ∨ ∃ f ∈ t.notes, (f.1 : Int) = target e
       ((∀ e ∈ t.notes, inside e ∧ lands e) → exec .gydonDone s = .next (asked s [] .mem .gydonDone 0)) ∧
       (∀ l e r, t.notes.reverse = l ++ e :: r → (∀ f ∈ l, inside f ∧ lands f) →
         (¬inside e → exec .gydonDone s = .next (refused s s.core t k 18 5 0 (t.budget - k.meter))) ∧
         (inside e → ¬lands e → exec .gydonDone s = .next (refused s s.core t k 18 6 0 (t.budget - k.meter)))))) ∧
    (Translating s 2 t →
      exec .gydonEmit s = .next (asked s [] .mem (.gydon (some (t.vOut + 2 * k.outLen))) 0) ∧
      exec .gydonEmitH s = .next (asked s [] .mem (.gydon (some (t.vOut + 2 * k.outLen))) 0))

/-- What TBL, FIELD and EMIT do when their access returns: registers and translation, or the fault code and subcode (R45 to R47). -/
def Sys2Proof.Spec.gydonEffect (s : State) (i : Instr) (w : Nat) (k : Gydon) (t : Xlat) : Except (Nat × Nat) (Gydon × Xlat) :=
  let d : Fin 8 := Fin.ofNat 8 (w / 256)
  let x := (k.b[(Fin.ofNat 8 (w / 32) : Fin 8)]).toNat
  let y := (k.b[(Fin.ofNat 8 (w / 4) : Fin 8)]).toNat
  let sets := fun v : Nat => Except.ok (ε := Nat × Nat) ({ k with b := k.b.set d (.ofNat 32 v), pc := k.pc + 1 }, t)
  let emit := fun (half : Bool) =>
    if half = true ∧ 2 ^ 16 ≤ x then .error (18, 3)
    else if (x % 2 = 1 ↔ half = true) then .error (18, 3)
    else match s.recOfWord half x with
      | none => .error (18, 1)
      | some r =>
        let n := if half then 1 else 2
        if natBit r.attr 19 = false then .error (18, 2)
        else if t.cap < k.outLen + n then .error (18, 4)
        else .ok ({ k with outLen := k.outLen + n, pc := k.pc + 1 },
          { t with out := ((List.range n).map fun i => BitVec.ofNat 16 (x / 65536 ^ (n - 1 - i))) ++ t.out,
                   notes := (k.outLen, n, if r.br then (r.flo, r.fw) else (0, 0)) :: t.notes })
  match i with
  | .gydonTbl => sets (if s.hasKey x then (s.recIndex x).getD 0xFFFFFFFF else 0xFFFFFFFF)
  | .gydonField =>
    match s.recs[x]? with
    | none => .error (18, 8)
    | some r =>
      let e := r.fdesc / 2 ^ (8 * (w % 4)) % 256
      let width := if w % 4 = 3 then 8 else 4
      if e < 128 then .error (18, 8)
      else if 2 ^ width ≤ y then .error (18, 7)
      else
        let z := (k.b[d]).toNat
        let lo := e % 32
        sets (z - z / 2 ^ lo % 2 ^ width * 2 ^ lo + y * 2 ^ lo)
  | .gydonEmit => emit false
  | .gydonEmitH => emit true
  | _ => .error (0, 0)

/-- R40, R43, R45 to R47, R49, R51, R53, R57: when the access of a parked Gydon instruction returns, it loads from its window's copy in the
translation area or from the chip table, stores into SCR, finds the record of a key, writes a field of a word under the record's FDESC, or
appends a checked word to OUT; it is charged once, and the context runs again. A page not present parks it; a fault, and (log 45) a page
given up or without the right, end the translation. -/
def Obligations.GydonEvents : Prop :=
  ∀ (s : State) (t : Xlat) (w0 : Wait),
    let g := s.ev.g
    let x : Fin 16 := ctxNo s.ev.x
    let c := s.ctxAt g x
    let k := c.gyd
    let w := c.iword.toNat
    let d : Fin 8 := Fin.ofNat 8 (w / 256)
    let v := (k.b[(Fin.ofNat 8 (w / 32) : Fin 8)]).toNat
    c.st = .parked w0 → (s.partOf g).xlat = some t →
    let used := t.budget - k.meter
    let done := fun (u : State) (cost : Nat) (k : Gydon) (t : Xlat) =>
      (u.modPart (u.partNo g) fun p => { p with xlat := some t }).modCtx g x fun c => ({ c with gyd := { k with meter := k.meter - cost } } : Ctx).retire
    let ends := fun (u : State) => exec .gydonReadReply s = .next u
    let loaded := fun n : Nat => { k with b := k.b.set d (.ofNat 32 n), pc := k.pc + 1 }
    let pages := fun (a : Nat) (store : Bool) =>
      (c.giveUp = some (a / 65536) → ends (refused s g t k 5 0 0 used)) ∧
      (c.giveUp ≠ some (a / 65536) →
        (∀ u, s.translate g c.comp a { r := !store, w := store } = (.prot, u) → ends (refused u g t k 4 0 0 used)) ∧
        (∀ u, s.translate g c.comp a { r := !store, w := store } = (.absent, u) → u.migrates (u.partNo g) a = false → ends (u.pageWait g x 8 a)))
    (∀ i va, decodeGydon w = some i → c.req = some (.gydon va) →
      (∀ p ∈ [(Instr.gydonLdb, 1), (.gydonLdh, 2), (.gydonLdw, 4)], i = p.1 →
        (va = none → ends (done s 1 (loaded (ofBytes ((List.range p.2).map fun j => s.tabByte ((v + w % 32 * p.2) % 2 ^ 32 % 2 ^ 28 + j)))) t)) ∧
        (∀ a, va = some a → pages a false ∧ ∀ pa e u words u2, AreaReaches s g x a false pa e u → u.lineFor g pa e = .words words u2 →
          ends (done u2 1 (loaded (lineValue words (pa % 64) p.2)) t))) ∧
      (∀ a, i = .gydonStw → va = some a → pages a true ∧
        ∀ u, AreaWrites s g x a 4 (k.b[d]).toNat u → ends (done u 1 { k with pc := k.pc + 1 } t)) ∧
      (i ∈ [Instr.gydonTbl, .gydonField, .gydonEmit, .gydonEmitH] → ∀ code sub, gydonEffect s i w k t = .error (code, sub) →
        ends (refused s g t k code sub 0 used)) ∧
      (∀ k1 t1, gydonEffect s i w k t = .ok (k1, t1) →
        let a := t.vOut + 2 * k.outLen
        (i = .gydonTbl ∨ i = .gydonField → ends (done s 1 k1 t1)) ∧
        (i = .gydonEmitH → pages a true ∧ ∀ u, AreaWrites s g x a 2 v u → ends (done u 2 k1 t1)) ∧
        (i = .gydonEmit → pages (a + 2) true ∧ ∀ pa e u u1 u2, AreaReaches s g x (a + 2) true pa e u → AreaWrites u g x a 2 (v % 65536) u1 →
          AreaWrites u1 g x (a + 2) 2 (v / 65536) u2 → ends (done u2 2 k1 t1)))) ∧
    (c.req = some .gydonDone →
      let block := ((t.spans[0]?).getD (0, 0)).1
      (∀ u, s.cpStores (s.partNo g) block none (t.entryBlock (used + 1)) = .ok u →
        exec .doneComplete s = .next (u.cacheXlat (s.partNo g) t (used + 1) k.pc)) ∧
      (∀ va, s.cpStores (s.partNo g) block none (t.entryBlock (used + 1)) = .error (.absent va) →
        exec .doneComplete s = .next (if c.giveUp = some (va / 65536) then refused s g t k 5 0 0 used else s.pageWait g x 8 va)))

/-! ### Queues and launches (22) -/

/-- The command processor of partition p can act, and queue q has an enabled descriptor d with packet m at its head, and nothing that holds it
(R365 to R367, R372). -/
structure Sys2Proof.Spec.Headed (s : State) (p q : Nat) (d : QDesc) (m : Nat) : Prop where
  /-- the command processor waits for no page -/
  free : s.cpFree p = true
  /-- the descriptor -/
  desc : s.queue p q = .ok (some d)
  /-- a packet is there, and no earlier one holds the queue -/
  has : s.queueHas p q d = true
  /-- the packet -/
  packet : s.cpRead p (d.base + 64 * (d.head % d.size)) 64 = .ok m

/-- The packet at index i of queue q is taken: HEAD ← i + 1 modulo 2^32, and the queue is the one served last (R365, R367). -/
def Sys2Proof.Spec.taken (s : State) (p q i : Nat) : State :=
  (s.cpTry p ((s.part p).qtab + 64 * q + 12) 4 ((i + 1) % 2 ^ 32)).modPart p fun t => { t with lastQ := q, cpGone := [] }

/-- STATE of queue q written (R365). -/
def Sys2Proof.Spec.queueSt (s : State) (p q v : Nat) : State := s.cpTry p ((s.part p).qtab + 64 * q + 26) 1 v

/-- The wait of queue q set. -/
def Sys2Proof.Spec.holding (s : State) (p q : Nat) (w : QWait) : State :=
  s.modPart p fun t => { t with qwait := t.qwait.set (Fin.ofNat 8 q) w }

/-- R21, R22, R365 to R367, R371, R372, R384: a LAUNCH or RELAUNCH that may not yet be taken leaves STATE 3; taken, HEAD moves on, an invalid one
has only its report of 0xF1 with its SUB to write, and a valid one enters with STATE 1: a gateway launch without a gateway cluster fails with 0xF3, a cached key
asks for admission, a key being translated waits, and else it reaches step 4. A MARK or WAITVAL holds its queue with STATE 3 or 2; an
invalid packet of another type holds it with STATE 3. A MARK writes its value after the earlier launches and its release, and REPLAY
follows, with TYPE 0 in every slot passed; a WAITVAL ends after its condition and its acquire. A read that hits in a home slice refreshes its line
(R423). The model chooses when HEAD and STATE are written (log 73), when 0xF3 is reported (log 42), that a report or a field that cannot be written
is left out (log 39), and the steps of MARK and WAITVAL (log 56).
An event that cannot happen changes nothing (log 10). -/
def Obligations.QueuePackets : Prop :=
  (∀ (s : State) (p x : Nat) (l : Launch), s.launchAt p x = some l →
    (∀ e, (s.part p).xcache.find? (fun e => e.key == l.key) = some e → s.lookup p x = s.useEntry p x e true) ∧
    ((∀ e ∈ (s.part p).xcache, e.key ≠ l.key) →
      let earlier := ∃ e ∈ (s.part p).launches, e.1 ≠ x ∧ e.2.key = l.key ∧ (e.2.stage = .key ∨ e.2.stage = .xlat)
      (earlier → s.lookup p x = s) ∧ (¬earlier → s.lookup p x = s.toStep4 p x))) ∧
  (∀ (s : State) (d : QDesc) (m : Nat),
    let p := s.ev.p % 16
    let q := s.ev.x % 8
    Headed s p q d m →
    let type := m % 256
    let r := s.cpTouch p (s.launchSpans p q d.head m)
    let u := taken r p q d.head
    let h := taken (s.cpTouch p [((s.part p).qtab, 512), (d.base + 64 * (d.head % d.size), 64)]) p q d.head
    (∀ i ∈ [(Instr.launch, 1), (.relaunch, 2)], type = i.2 →
      (s.mayTake p q m = false → exec i.1 s = .next (queueSt s p q 3)) ∧
      (s.mayTake p q m = true → s.nextQueue p = some q →
        (∀ sub, s.readLaunch p q d.head m = .error (.invalid sub) →
          let l := Launch.invalid q d.head (natBytes m 4 4) sub
          l.stage = .done ∧ l.q = q ∧ l.i = d.head ∧ l.report = [0xF1, .ofNat 8 sub, 0, 0] ++ toBytes 4 (natBytes m 4 4) ++ List.replicate 24 0 ∧
          exec i.1 s = .next ((queueSt u p q 0).modPart p fun t => { t with nextL := t.nextL + 1, launches := aset t.launches t.nextL l })) ∧
        (∀ va, s.readLaunch p q d.head m = .error (.absent va) → exec i.1 s = .next (s.cpFault p va)) ∧
        (∀ l, s.readLaunch p q d.head m = .ok l →
          let x := (r.part p).nextL
          let v := (queueSt (taken r p l.q l.i) p l.q 1).modPart p fun t =>
            { t with nextL := x + 1, launches := aset t.launches x { l with prio := d.prio } }
          let w := if l.trace then v.putSet p (Fin.ofNat 4 l.tset) { ((v.part p).tsets[Fin.ofNat 4 l.tset]) with busy := true, launch := some x } else v
          let near := ∃ h, l.first ≤ h ∧ h < l.first + l.count ∧ isGateway h = true
          (l.gw = true → ¬near → exec i.1 s = .next (v.failLaunch p x 0xF3 0 0)) ∧
          ((l.gw = false ∨ near) → exec i.1 s = .next (w.lookup p x))))) ∧
    (type = 3 → s.nextQueue p = some q → exec .mark s =
      .next (holding (queueSt h p q 3) p q (.mark d.head (natBytes m 2 1) (natBytes m 8 8) (natBytes m 16 8) none))) ∧
    (type = 4 → s.nextQueue p = some q → exec .waitval s =
      .next (holding (queueSt h p q 2) p q (.waitval d.head (natBytes m 2 1) (natBytes m 3 1) (natBytes m 8 8) (natBytes m 16 8) none))) ∧
    (3 ≤ type → s.mayTake p q m = false → exec .invalidPacket s = .next (queueSt s p q 3))) ∧
  (∀ (s : State) (i sc addr v : Nat) (hio : Option Nat),
    let p := s.ev.p % 16
    let q := s.ev.x % 8
    let n := hio.getD s.hioSeq
    let quiet := ∀ e ∈ (s.part p).launches, e.2.q ≠ q
    (s.part p).qwait[Fin.ofNat 8 q] = .mark i sc addr v hio → s.cpFree p = true →
    (¬quiet → exec .markStore s = .next s) ∧
    (quiet → s.markReleased p n (s.packetScope p sc) = false → exec .markStore s = .next (holding s p q (.mark i sc addr v (some n)))) ∧
    (quiet → s.markReleased p n (s.packetScope p sc) = true → ∀ t, s.cpStore p addr 8 v = .ok t →
      let u := queueSt (holding t p q .none) p q 0
      ∀ m, u.cpRead p ((u.part p).qtab + 64 * q) 64 = .ok m →
        let d := queueFields m
        exec .markStore s = .next (u.passReplay p q d ((i + 1) % 2 ^ 32) (Nat.min d.size 65536) d.replay))) ∧
  (∀ (s : State) (i sc cond addr v : Nat) (swept : Option (Nat × Nat)),
    let p := s.ev.p % 16
    let q := s.ev.x % 8
    (s.part p).qwait[Fin.ofNat 8 q] = .waitval i sc cond addr v swept → s.cpFree p = true →
    (∀ t w, ((swept = some w ∧ t = s) ∨ (swept = none ∧ t = s.cpTouch p [(addr, 8)] ∧ w = (t.invSeq, t.hioSeq) ∧
        ∃ got, s.cpRead p addr 8 = .ok got ∧ (if cond = 0 then got = v else v ≤ got))) →
      (t.waitAcquired p (t.packetScope p sc) w = true → exec .waitvalSatisfied s = .next (queueSt (holding t p q .none) p q 0)) ∧
      (t.waitAcquired p (t.packetScope p sc) w = false →
        exec .waitvalSatisfied s = .next (holding t p q (.waitval i sc cond addr v (some w))))) ∧
    (∀ got, swept = none → s.cpRead p addr 8 = .ok got → ¬(if cond = 0 then got = v else v ≤ got) →
      exec .waitvalSatisfied s = .next (s.cpTouch p [(addr, 8)])))

/-- Context z of core g is FREE, and neither reserved for a translation nor granted to an arriving image (R273, R376). -/
def Sys2Proof.Spec.Spare (s : State) (g : Nat) (z : Fin 16) : Prop :=
  (s.ctxAt g z).st = .free ∧ s.reserved15 g z = false ∧ ∀ h ∈ s.hops, ¬(h.core = g ∧ h.ctx = z)

/-- A place for the next block of launch x of partition p: core g of its sub-range is eligible, and y is its lowest spare context from 1 to
15 (R375, R376). -/
structure Sys2Proof.Spec.Place (s : State) (p x : Nat) (l : Launch) (g : Nat) (y : Fin 16) : Prop where
  /-- the core is in the sub-range -/
  range : 8 * l.first ≤ g ∧ g < 8 * l.first + 8 * l.count
  /-- it is eligible -/
  eligible : s.eligible p x l g = true
  /-- the context is free -/
  free : y ≠ 0 ∧ Spare s g y
  /-- and the lowest such -/
  least : ∀ z : Fin 16, z ≠ 0 → z.val < y.val → ¬Spare s g z

/-- The next block of launch x is seeded into context y of core g, which is ready: the initial state of the block, and the launch's counter
(R376 to R378). -/
def Sys2Proof.Spec.seeded (s : State) (p x : Nat) (l : Launch) (g : Nat) (y : Fin 16) : State :=
  let b := match l.select with | some k => (k[l.next]?).getD 0 | none => l.next
  let c : Ctx := {
    st := .run, notBefore := s.cycle, trace := l.trace, role := .block x b, pc := 0
    g := #v[.ofNat 64 b, l.seed1, l.seed2, l.seed3, 0, 0, 0, 0, 0, 0, 0, 0, 0, 0, 0, 0]
    full := 0xFFFF, k := .replicate 4 0xFF, fpc := 0, geom := 0
    sgb := l.sgb.set 0 (.ofNat 64 l.code), sgl := l.sgl.set 0 (.ofNat 64 (5 * 2 ^ 48 + 2 * l.outLen)) }
  (s.setCtxAt g y c).modLaunch p x fun l => { l with next := l.next + 1, live := (b, g, y.val) :: l.live }

/-- R21, R57, R370, R373 to R378, R384 to R386, R397, R336: a translation starts in context 15 once its working set is placed and its copies are
written and no older copy of its area is left on the die, or is refused with 0xF4, or with 4 where the area cannot be written (log 45); a launch
whose cost exceeds a sector's budget alone fails with 0xF2, one that is held or does not fit waits with STATE 3, and else it is
admitted and charged, its data image copied (logs 41, 55) and its trace set bound or swapped, with STATE 0 (log 73); a core is prepared before the first block of a launch or wave there; blocks are seeded at the place with the fewest blocks, then the lowest core, gateway
blocks by core; a placement waits behind the messages of its cluster (log 72); after a wave the test selects the next, and a quiet launch completes with its report.
An event that cannot happen changes nothing (log 10). -/
def Obligations.LaunchLives : Prop :=
  (∀ (s : State),
    let p := s.ev.p % 16
    let r := s.part p
    let g := 8 * r.base
    s.cpFree p = true →
    (∀ x l, r.xlat = none → r.nextStep4 = some (x, l) →
      (r.makeRoom l.workSizes (r.xcache.length + 1) = none →
        exec .translationStart s = .next ((s.failLaunch p x 0xF4 0 0).keyEnded p l.key)) ∧
      (∀ r2 spans, r.makeRoom l.workSizes (r.xcache.length + 1) = some (r2, spans) →
        let t := l.xlatAt x spans
        let copies := (s.setPart p r2).putCopies p l t
        (copies = .error .refused → exec .translationStart s = .next ((s.failLaunch p x 4 0 0).keyEnded p l.key)) ∧
        (∀ va, copies = .error (.absent va) → exec .translationStart s = .next (s.cpFault p va)) ∧
        (∀ u0, copies = .ok u0 →
          let t := { t with inval := u0.invSeq }
          let u := u0.modLaunch p x fun l => { l with stage := .xlat }
          8 * (u.part p).base = g →
          let swept := ∀ v ∈ u.invals, v.die = dieOf g → t.inval ≤ v.seq
          ((u.ctxAt g 15).st ≠ .free ∨ ¬swept → exec .translationStart s = .next (u.modPart p fun r => { r with xlat := some t })) ∧
          ((u.ctxAt g 15).st = .free → swept → (u.coreAt g).frozen = false → (u.coreAt g).halted = false → exec .translationStart s = .next
            ((u.setCtxAt g 15 { st := .run, notBefore := u.cycle, gydonMode := true, role := .translator t.l
                                gyd := { b := #v[.ofNat 32 l.priv.length, .ofNat 32 l.arg.length, .ofNat 32 u.recs.length, .ofNat 32 t.cap, 0, 0, 0, 0]
                                         pc := 0, meter := t.budget, outLen := 0 } }).modPart p fun r =>
              { r with xlat := some { t with started := true } }))))) ∧
    (∀ t, r.xlat = some t → t.started = true → exec .translationStart s = .next s) ∧
    (∀ t, r.xlat = some t → t.started = false → (∃ v ∈ s.invals, v.die = dieOf g ∧ v.seq < t.inval) → exec .translationStart s = .next s) ∧
    (∀ t, r.xlat = some t → t.started = false → (s.ctxAt g 15).st = .free → (s.coreAt g).frozen = false → (s.coreAt g).halted = false →
      (∀ v ∈ s.invals, v.die = dieOf g → t.inval ≤ v.seq) → ∃ u, exec .translationStart s = .next u ∧ (u.part p).xlat = some { t with started := true } ∧ (u.ctxAt g 15).st = .run ∧
        (u.ctxAt g 15).gydonMode = true ∧ (u.ctxAt g 15).gyd.pc = 0 ∧ (u.ctxAt g 15).gyd.meter = t.budget)) ∧
  (∀ (s : State) (l : Launch),
    let p := s.ev.p % 16
    let x := s.ev.x
    s.launchAt p x = some l → l.stage = .admission → s.cpFree p = true →
    (s.gated = true ∨ s.overtakes l = true → exec .launchAdmit s = .next (queueSt s p l.q 3)) ∧
    (s.gated = false → s.overtakes l = false →
    let never := ∃ c ∈ l.cost, s.sectorBudget c.1 < c.2 ∧ s.sectorCharge c.1 = 0
    let full := ∃ c ∈ l.cost, s.sectorLimit c.1 < s.sectorCharge c.1 + c.2
    (never → exec .launchAdmit s = .next (s.failLaunch p x 0xF2 0 0)) ∧
    (¬never → full → exec .launchAdmit s = .next (queueSt s p l.q 3)) ∧
    (¬never → ¬full → ∀ t, s.copyData p l = .ok t →
      let a := ((queueSt t p l.q 0).modPart p fun r => { r with progress := if r.running then r.progress else t.cycle }).modLaunch p x fun l =>
        { l with stage := .run, charge := l.cost, full := true, wave := 1 }
      let k : Fin 4 := Fin.ofNat 4 l.tset
      (l.trc = none → exec .launchAdmit s = .next (a.modLaunch p x fun l => { l with full := l.select.isNone })) ∧
      (∀ b, l.trc = some b → (l.re = false ∨ a.runsFull p (a.part p).tsets[k] l b = true) →
        exec .launchAdmit s = .next ((a.bindSet p x k l b).modLaunch p x fun l => { l with full := l.select.isNone })) ∧
      (∀ b, l.trc = some b → l.re = true → a.runsFull p (a.part p).tsets[k] l b = false →
        exec .launchAdmit s = .next ((a.swapSet p x k l).modLaunch p x fun l => { l with full := l.select.isNone }))))) ∧
  (∀ (s : State) (l : Launch),
    let p := s.ev.p % 16
    let x := s.ev.x
    s.launchAt p x = some l → l.stage = .run → (s.part p).rst = false → l.next < (match l.select with | some k => k.length | none => l.blocks) →
    (∀ g, l.gw = false →
      let prepared := g ∈ l.prepared ∧ (s.coreAt g).launch = some x ∧ (s.coreAt g).lwave = l.wave
      (prepared → s.readyCore p x l g = some s) ∧
      (¬prepared → s.sweptFor p g = true → s.copyJobs g = [] → s.mxJobs g = [] → s.readyCore p x l g = some ((s.prepCore x l g).modLaunch p x fun l =>
        { l with prepared := if l.prepared.contains g then l.prepared else g :: l.prepared }))) ∧
    (l.gw = false → ∀ g y u, Place s p x l g y → s.blocksOn x g < l.quota →
      (∀ h z, Place s p x l h z → s.blocksOn x g < s.blocksOn x h ∨ (s.blocksOn x g = s.blocksOn x h ∧ g ≤ h)) →
      (s.linksFree (g / 8) = false → exec .seedBlock s = .next s) ∧
      (s.linksFree (g / 8) = true → s.readyCore p x l g = some u → exec .seedBlock s = .next (seeded u p x l g y))) ∧
    (l.gw = false → (∀ g y, Place s p x l g y → l.quota ≤ s.blocksOn x g) → exec .seedBlock s = .next s) ∧
    (l.gw = true → ∀ g y u, Place s p x l g y → isGateway (g / 8) = true → (∀ h z, Place s p x l h z → isGateway (h / 8) = true → g ≤ h) →
      s.readyCore p x l g = some u → exec .gatewaySeed s = .next (seeded u p x l g y))) ∧
  (∀ (s : State) (l : Launch),
    let p := s.ev.p % 16
    let x := s.ev.x
    let t := (s.part p).tsets[(Fin.ofNat 4 l.tset : Fin 4)]
    let sel := (List.range l.blocks).filter (s.selectNext p t l.wset)
    let next := fun (sel : List Nat) (final : Bool) => s.modLaunch p x fun l =>
      { l with select := some sel, next := 0, wave := l.wave + 1, wset := [], prepared := [], final := final }
    s.launchAt p x = some l →
    (s.cpFree p = true → (l.stage = .done ∨ (l.stage = .run ∧ s.launchQuiet p x l = true ∧ (l.re = false ∨ l.select = none))) →
      (∀ u, s.endLaunch p x l = .ok u → exec .launchComplete s = .next u) ∧
      (∀ va, s.endLaunch p x l = .error (.absent va) → exec .launchComplete s = .next (s.cpFault p va))) ∧
    (l.stage = .run → s.launchQuiet p x l = false → exec .launchComplete s = .next s ∧ exec .waveEnd s = .next s) ∧
    (l.stage = .run → s.launchQuiet p x l = true → (s.part p).rst = false → l.re = true → l.select ≠ none →
      (l.final = true → exec .waveEnd s =
        .next ((sel.foldl (fun s b => s.forgetBlock p t b) s).modLaunch p x fun l => { l with stage := .done, unset := sel.length })) ∧
      (l.final = false → sel = [] → exec .waveEnd s = .next (s.modLaunch p x fun l => { l with stage := .done })) ∧
      (l.final = false → sel ≠ [] → (l.wlim = 0 ∨ l.wave ≠ l.wlim) → exec .waveEnd s = .next (next sel false)) ∧
      (l.final = false → sel ≠ [] → l.wlim ≠ 0 → l.wave = l.wlim →
        exec .waveEnd s = .next (next ((List.range l.blocks).filter fun b => decide (b ∈ sel ∨ b ∉ l.ran)) true))))

/-! ### Partitions (25) -/

/-- A queue after a partition reset: HEAD ← REPLAY, STATE ← 0 (R392); one whose page cannot be reached stays (log 69). -/
def Sys2Proof.Spec.rewound (s : State) (p q : Nat) : State :=
  match s.cpRead p ((s.part p).qtab + 64 * q) 64 with
  | .ok m => queueSt (s.cpTry p ((s.part p).qtab + 64 * q + 12) 4 (natBytes m 20 4)) p q 0
  | .error _ => s

/-- The report that a block of partition p has ended concerns no launch any more (R392). -/
def Sys2Proof.Spec.unended (p : Nat) (m : CmdMsg) : CmdMsg := match m with | .ended q .. => if q = p then .other 0 else m | _ => m

/-- Partition p has been reset (R392, R432): its cores hold zeroed scratchpads and FREE contexts, its jobs, messages, accumulators, launches,
charges, translations and page faults are gone, no trace set of it is VALID or BUSY, its world has a fresh scrambler key, and its queues
replay. No other partition's core, cluster or quad is touched. -/
def Sys2Proof.Spec.ResetDone (s : State) (p : Nat) (t : State) : Prop :=
  ∃ u : State, t = (List.range 8).foldl (fun v q => rewound v p q) u ∧
    let r := s.part p
    let mine := fun h => decide (r.base ≤ h ∧ h < r.base + r.len)
    u.cores = s.cores.filter (fun e => !mine (e.1 / 8)) ∧
    u.quads = s.quads.filter (fun e => !mine (e.1 / 2)) ∧
    u.clusters = s.clusters.map (fun e => if mine e.1 then (e.1, { up := e.2.up.forget p, down := e.2.down }) else e) ∧
    (∀ l : CmdLink, (l.forget p).permits = l.permits ∧ (l.forget p).sent = l.sent.map (unended p) ∧ (l.forget p).wait = l.wait.map (unended p)) ∧
    u.hops = s.hops.filter (fun h => !mine (h.core / 8)) ∧
    (u.part p).launches = [] ∧ (u.part p).xcache = [] ∧ (u.part p).xlat = none ∧ (u.part p).cpToken = none ∧ (u.part p).evQ = [] ∧
    (u.part p).rst = false ∧ (u.part p).resets = (r.resets + 1) % 2 ^ 32 ∧ (u.part p).progress = s.cycle ∧
    (u.part p).qwait = .replicate 8 .none ∧ (u.part p).gwCores = [] ∧ (u.part p).pulls = [] ∧
    (u.worldAt r.world).skey = (Config.rngDraw s.draws).toNat ∧ u.draws = s.draws + 1 ∧
    (∀ k : Fin 4, (u.part p).tsets[k].valid = false ∧ (u.part p).tsets[k].busy = false ∧ (u.part p).tsets[k].launch = none) ∧
    (∀ q, q < 16 → q ≠ p → (u.part q).en = (s.part q).en ∧ (u.part q).base = (s.part q).base ∧ (u.part q).len = (s.part q).len ∧
      (u.part q).resets = (s.part q).resets ∧ (u.part q).launches.map (·.1) = (s.part q).launches.map (·.1))

/-- Partition p is the destination of a migration from an enabled partition of this package and has taken no launch: it goes on in the
source's world (R425, R428). From when it does so is the model's own (log 111). -/
def Sys2Proof.Spec.adopted (s : State) (p : Nat) : State :=
  let t := s.part p
  let q := t.pmsrc.toNat % 16
  let r := s.part q
  if t.en = true ∧ t.mig = true ∧ t.nextL = 0 ∧ q ≠ p ∧ t.pmsrc.toNat / 2 ^ 8 % 2 ^ 8 = s.pkgnum ∧ r.en = true then
    s.modPart p fun t => { t with world := r.world }
  else s

/-- The fields of PCFG other than EN that a write changes: WDOG only to 0 or 20 to 40, ASID and SYSP only while EN = 0 (R417). -/
def Sys2Proof.Spec.cfgWritten (r : Part) (v : Nat) : Part :=
  let w := v / 2 ^ 48 % 2 ^ 6
  { r with
    guest := v.testBit 62, strap := v.testBit 61, mig := v.testBit 60, wdog := if w = 0 ∨ (20 ≤ w ∧ w ≤ 40) then w else r.wdog
    sysp := if r.en then r.sysp else v.testBit 59, asid := if r.en then r.asid else v % 2 ^ 16 }

/-- Partition p is stopped: its cores issue no more, its jobs, writes and requests that have not left a core are dropped, and a reset is due
(R291). -/
def Sys2Proof.Spec.fenced (s : State) (p : Nat) : State :=
  let r := s.part p
  let mine := fun h => decide (r.base ≤ h ∧ h < r.base + r.len)
  ({ s with
    cores := s.cores.map fun e => if mine (e.1 / 8) then (e.1, { e.2 with
        halted := true, copyQ := [], mxQ := [], sb := [], tiles := e.2.tiles.map fun t => { t with stash := none }
        ctxs := e.2.ctxs.map fun k => { k with req := none } }) else e
    clusters := s.clusters.map fun e => if mine e.1 then (e.1, { e.2 with copyRun := none, mxRun := none }) else e } : State).modPart p
      fun t => { t with rst := true }

/-- The state after an uncorrectable error at a physical address in data of partition p, met by core g: the partition is stopped, and a record
of EMEM goes to its ring, behind the earlier messages of the core's leaf (R291, R444). -/
def Sys2Proof.Spec.errorMet (s : State) (p pa g : Nat) : State :=
  let words := ringRecord 16 10 p 0 0 pa 0 (s.part p).asid g
  let u := fenced s p
  let l := (u.clusterAt (g / 8)).up
  if l.sent = [] ∧ l.wait = [] then u.sendRecord p words else u.modCluster (g / 8) fun c => { c with up := l.offer (.record p words) }

/-- The same for an error that the device itself meets, which sends its record at once (R291, R427). -/
def Sys2Proof.Spec.deviceError (s : State) (p pa : Nat) : State :=
  (fenced s p).sendRecord p (ringRecord 16 10 p 0 0 pa 0 (s.part p).asid (8 * (s.part p).base))

/-- R291, R373, R392, R393, R416 to R420, R425, R426, R428, R445, R446, R454: an uncorrectable error stops the partition's cores, drops its jobs
and sends EMEM, in one step of the model's (log 75); a reset, by system software, the watchdog or a disable, does what R392 says; an enable fails
with the first check's ERR, or resets the partition, gives it its world (log 14) and compartment 0 with a fresh key, and reads RESETS 0; a register of
the control window takes the bits that it holds, those of R417 only while EN = 0, its doorbell acts as R446 says, and its command ring holds what is
written; a read of PSTAT clears ERR. That a write of PCFG sets EN by an event of its own, and the low bits that PQTAB and PXAREA drop, are the model's
(log 85).
An event that cannot happen changes nothing (log 10). -/
def Obligations.PartitionLives : Prop :=
  (∀ (s : State) (p : Nat), p < 16 → ResetDone s p (s.resetPart p)) ∧
  (∀ (s : State),
    let p := s.ev.p % 16
    let r := s.part p
    let running := ∃ l ∈ r.launches, l.2.stage = .run ∨ (l.2.stage = .done ∧ l.2.wave ≠ 0)
    let expired := r.wdog ≠ 0 ∧ running ∧ r.progress + 2 ^ r.wdog ≤ s.cycle
    (r.en = true →
      exec .partitionReset s = .next (s.resetPart p) ∧
      exec .uncorrectableError s = .next (errorMet s p s.ev.v s.ev.g) ∧
      (expired → exec .watchdogExpiry s = .next (s.resetPart p)) ∧
      (¬expired → exec .watchdogExpiry s = .next s) ∧
      exec .partitionDisable s = .next ((s.resetPart p).modPart p fun r => { (cfgWritten r s.ev.v) with en := false }) ∧
      exec .partitionEnable s = .next s) ∧
    (r.en = false → exec .partitionReset s = .next s ∧ exec .uncorrectableError s = .next s ∧ exec .watchdogExpiry s = .next s ∧
      exec .partitionDisable s = .next s)) ∧
  (∀ (s : State),
    let p := s.ev.p % 16
    let r := s.part p
    r.en = false →
      let u := s.modPart p fun r => cfgWritten r s.ev.v
      let bad := fun e => exec .partitionEnable s = .next (u.modPart p fun r => { r with err := e })
      let clash := ∃ q, q < 16 ∧ q ≠ p ∧ (s.part q).en = true ∧ r.base < (s.part q).base + (s.part q).len ∧ (s.part q).base < r.base + r.len
      (r.len = 0 → bad 1) ∧
      (r.len ≠ 0 → 81920 < r.base + r.len → bad 2) ∧
      (r.len ≠ 0 → r.base + r.len ≤ 81920 → clash → bad 3) ∧
      (r.len ≠ 0 → r.base + r.len ≤ 81920 → ¬clash → r.troot % 65536 ≠ 0 → bad 4) ∧
      (r.len ≠ 0 → r.base + r.len ≤ 81920 → ¬clash → r.troot % 65536 = 0 →
        let sysp := (u.part p).sysp
        ∃ n, (sysp = true → n = 0) ∧ (sysp = false → (∀ q, q < 16 → (s.part q).en = true → (s.part q).world ≠ p + 1) → n = p + 1) ∧
          let k : Comp := { made := true, k := (Config.rngDraw s.draws).toNat }
          let w : State := if n = 0 then u else { u with
            draws := u.draws + 1
            worlds := aset u.worlds n { comps := (Vector.replicate 16 {}).set 0 k }
            tags := u.tags.map fun e => if e.2.world = n then (e.1, { e.2 with written := some [] }) else e }
          let v := ({ w with peers := adel w.peers p } : State).modPart p fun r =>
            { r with en := true, world := n, tsets := .replicate 4 {}, pfreeAt := 0, noPage := [], nextL := 0 }
          exec .partitionEnable s = .next (adopted ((v.resetPart p).modPart p fun r => { r with resets := 0 }) p))) ∧
  (∀ s : State,
    let p := s.ev.p % 16
    let r := s.part p
    exec .pstatRead s = .next (({ s with statReads :=
      ((if r.rst then 2 ^ 63 else 0) + r.err % 256 * 2 ^ 48 + r.resets % 2 ^ 32) :: s.statReads } : State).modPart p
        fun r => { r with err := 0 })) ∧
  (∀ (s : State) (p : Nat), p < 16 →
    let r := s.part p
    let v := s.ev.v
    let is := fun o => s.ev.x = 256 * p + o
    let sets := fun (f : Part → Part) => exec .registerWrite s = .next (adopted (s.modPart p f) p)
    (r.en = true → (is 0x00 ∨ is 0x08 ∨ is 0x18 ∨ is 0x20 ∨ is 0xD0 ∨ is 0xD8) → sets id) ∧
    (r.en = false →
      (is 0x00 → sets fun r => { r with base := v % 2 ^ 17 }) ∧ (is 0x08 → sets fun r => { r with len := v % 2 ^ 17 }) ∧
      (is 0x18 → sets fun r => { r with troot := v / 2 ^ 16 % 2 ^ 36 * 2 ^ 16 }) ∧ (is 0x20 → sets fun r => { r with qtab := v % 2 ^ 64 / 512 * 512 }) ∧
      (is 0xD0 → sets fun r => { r with xarea := v % 2 ^ 64 / 65536 * 65536 }) ∧ (is 0xD8 → sets fun r => { r with xcap := v % 2 ^ 16 })) ∧
    (is 0x10 → sets fun r => cfgWritten r v) ∧
    (is 0x30 → r.shoot.getLsbD 63 = false → sets fun r => { r with shoot := .ofNat 64 v &&& 0x6000FFFFFFFF0000 }) ∧
    (is 0x38 → r.drop.getLsbD 63 = false → sets fun r => { r with drop := .ofNat 64 v &&& 0x200FFFFFFFFF0000 }) ∧
    (∀ d : Fin 8, is (0x40 + 8 * d.val) → sets fun r => { r with wmask := r.wmask.set d (.ofNat 16 v) }) ∧
    (is 0xC0 → sets fun r => { r with pfree := .ofNat 64 v &&& 0x000FFFFFFFFF003F, pfreeAt := 0 }) ∧
    (is 0xC8 → sets fun r => { r with pmsrc := .ofNat 64 v &&& 0x00000000000FFF0F, noPage := [], pulls := [] })) ∧
  (∀ s : State,
    (∀ k, k < 320 → s.ev.x = 0x2000 + 8 * k → exec .registerWrite s = .next { s with esb := aset s.esb k (s.ev.v % 2 ^ 12) }) ∧
    (s.ev.x = 0x3000 → exec .registerWrite s = exec (if s.ev.v.testBit 32 then .doorbellGiveUp else .doorbellReissue) s) ∧
    (∀ k, k < 8192 → s.ev.x = 0x10000 + 8 * k → exec .registerWrite s =
      .next { s with cmdRing := Memory.store s.cmdRing (8 * k) 8 (s.ev.v % 2 ^ 64) }) ∧
    (s.ev.x = 0x3008 → exec .registerWrite s = .next { s with pkgnum := s.ev.v % 2 ^ 8 }) ∧
    (s.ev.x = 0x3010 → exec .registerWrite s =
      .next (if 60 ≤ s.ev.v % 2 ^ 8 ∧ s.ev.v % 2 ^ 8 ≤ 105 then { s with therm := s.ev.v % 2 ^ 8 } else s)))

/-- A PSHOOT value names a virtual address: ALL, or the 2 MiB or 64 KiB page of VA (R420). -/
def Sys2Proof.Spec.Shot (v : W) (va : Nat) : Prop :=
  v.getLsbD 62 = true ∨ (v.getLsbD 61 = true ∧ va / 2 ^ 21 = v.toNat / 2 ^ 21 % 2 ^ 27) ∨
    (v.getLsbD 61 = false ∧ va / 2 ^ 16 = v.toNat / 2 ^ 16 % 2 ^ 32)

/-- R203, R288, R290, R372, R420, R421, R425 to R427, R446, R452, R459: PSHOOT removes the translations and the data-cache lines that it names,
empties the stash tiles over them and completes when no access of them is in flight (log 67); PDROP drops every line of its frame, at once; a tagged request finds or makes its
record, and the background clear zeroes the next uncleared line, then writes the leaf and ends with the PSHOOT of the page, and waiting writes go on; a pull
lands the page from S, a 2 MiB page as 32 small leaves, and takes it away there, from another package by a request and an answer over a link, while an uncorrectable error stops the
destination alone (log 68); a fault ring takes its registers' bits and writes what waits while there is room; a doorbell acts once, on an outstanding token.
An event that cannot happen changes nothing (log 10). -/
def Obligations.PageEvents : Prop :=
  (∀ (s : State),
    let p := s.ev.p % 16
    let r := s.part p
    let v : W := (BitVec.ofNat 64 s.ev.v &&& 0x6000FFFFFFFF0000) ||| 0x8000000000000000
    (r.shoot.getLsbD 63 = true → exec .pshoot s = .next s) ∧
    (r.shoot.getLsbD 63 = false → ∃ t, exec .pshoot s = .next t ∧ (t.part p).shoot = v ∧ (r.en = true →
      (∀ h, r.base ≤ h → h < r.base + r.len → ∀ e ∈ (t.clusterAt h).tlb, e.part = p → ¬Shot v (65536 * e.vpage)) ∧
      (∀ g, r.base ≤ g / 8 → g / 8 < r.base + r.len → (∀ l ∈ (t.coreAt g).dcache, ¬Shot v (64 * l.vline)) ∧
        ∀ (k : Fin 24) (m : Stash), (t.coreAt g).tiles[k].stash = some m → Shot v m.va → m.valid = 0 ∧ m.stale = true))) ∧
    (r.shoot.getLsbD 63 = true → s.shotInFlight p r.shoot = true → exec .pshootComplete s = .next s) ∧
    (r.shoot.getLsbD 63 = true → s.shotInFlight p r.shoot = false → exec .pshootComplete s =
      .next (((s.shootCopies p r.shoot r.shotRuns).modPart p fun q =>
        { q with shoot := r.shoot &&& 0x7FFFFFFFFFFFFFFF, shotRuns := [] }).checkMaps p)) ∧
    (let w : W := BitVec.ofNat 64 s.ev.v &&& 0x200FFFFFFFFF0000
     let size := if w.getLsbD 61 then 2 ^ 21 else 2 ^ 16
     let lo := w.toNat % 2 ^ 52 / size
     exec .pdrop s = .next (({ s with lines := s.lines.filter fun l => 64 * l.line / size != lo } : State).modPart p fun r => { r with drop := w }))) ∧
  (∀ (s : State),
    let p := s.ev.p % 16
    (∀ e, s.walk p s.ev.v = .leaf e →
      (e.unscr = false → exec .scrubTaggedRequest s = .next s) ∧
      (e.unscr = true → (s.scrubOf e.pa ≠ none ∨ s.scrubRoom e.pa = false) → exec .scrubTaggedRequest s = .next s) ∧
      (e.unscr = true → s.scrubOf e.pa = none → s.scrubRoom e.pa = true → exec .scrubTaggedRequest s = .next { s with scrubs := s.scrubs ++
        [{ frame := e.pa, size := if e.big then 2 ^ 21 else 65536, cleared := [], pos := 0, leaf := e.leaf, part := p, vpage := e.vpage }] })) ∧
    (s.scrubOf s.ev.v = none → exec .scrubClearLine s = .next s) ∧
    (∀ r, s.scrubOf s.ev.v = some r →
      (∀ i, r.shooting = false → r.nextLine (r.size / 64 + 1) r.pos = some i →
        let t := s.writeMemLine (r.frame / 64 + i) (.replicate 8 0)
        exec .scrubClearLine s = .next { t with scrubs := t.scrubs.map fun k => if k.frame = r.frame then { k with pos := i + 1 } else k }) ∧
      (r.shooting = false → r.nextLine (r.size / 64 + 1) r.pos = none → exec .scrubClearLine s = .next (s.endScrub r)) ∧
      (r.shooting = true → s.shotInFlight r.part r.shootWord = true → exec .scrubClearLine s = .next s) ∧
      (r.shooting = true → s.shotInFlight r.part r.shootWord = false → exec .scrubClearLine s =
        .next (({ s with scrubs := s.scrubs.filter fun k => k.frame != r.frame } : State).flushDevice s.devQ.length)))) ∧
  (∀ (s : State),
    let p := s.ev.p % 16
    let r := s.part p
    let va := s.ev.v
    let src := fun (n : Nat) => r.pmsrc.toNat / 2 ^ n
    let is := fun t => exec .migrationPullComplete s = .next t
    (s.ev.n = 9 →
      (((s.link s.ev.x).active = false ∨ r.en = false ∨ ∀ e, s.walk p va ≠ .leaf e) → is s) ∧
      (∀ e, (s.link s.ev.x).active = true → r.en = true → s.walk p va = .leaf e →
        (s.readyScrub p e = none → is s) ∧
        (∀ u, s.readyScrub p e = some u →
          let sent := u.sendPages s.ev.x e.vpage e.pa (if e.big then 32 else 1)
          (∀ x, sent = .error x → is s) ∧
          (∀ t, sent = .ok t → is (t.homeStore 16 e.leaf none none none 8 (t.homeLoad e.leaf 8 / 2 * 2)))))) ∧
    (s.ev.n ≠ 9 →
      ((r.rst = true ∨ 2 ^ 48 ≤ va) → is s) ∧
      (r.rst = false → va < 2 ^ 48 →
        (∀ e, s.walk p va = .leaf e → is s) ∧
        (∀ a, s.walk p va = .bad a → is (deviceError s p a)) ∧
        (s.walk p va = .absent → s.migrates p va = false → is s) ∧
        (s.walk p va = .absent → s.migrates p va = true →
          let pkg := src 8 % 256
          let v := va / 65536
          (pkg ≠ s.pkgnum →
            (v ∉ r.pulls → is ((s.modPart p fun r => { r with pulls := v :: r.pulls }).sendLink pkg (.pull p v))) ∧
            (v ∈ r.pulls → s.linkOpen pkg (.pull p v) = false → is s) ∧
            (v ∈ r.pulls → s.linkOpen pkg (.pull p v) = true →
              let t := s.modPart p fun r => { r with pulls := r.pulls.filter (· != v) }
              let landed := t.landPage p (65536 * v) (s.ev.n % 8 * 2) s.ev.bytes
              (s.ev.n = 8 → is (t.modPart p fun r => { r with noPage := v :: r.noPage })) ∧
              (s.ev.n ≠ 8 → (∀ u, landed = .ok u → is u) ∧ (landed = .error none → is s) ∧
                ∀ a, landed = .error (some a) → is (deviceError s p a)))) ∧
          (pkg = s.pkgnum →
            let q := src 0 % 16
            (s.walk q va = .absent → is s) ∧
            (∀ a, s.walk q va = .bad a → is (deviceError s p a)) ∧
            (∀ e, s.walk q va = .leaf e →
              (s.readyScrub q e = none → is s) ∧
              (∀ u, s.readyScrub q e = some u →
                let rights := (if e.r then 2 else 0) + (if e.w then 4 else 0) + (if e.x then 8 else 0)
                let pulled := u.landAll p (65536 * e.vpage) e.pa rights (if e.big then 32 else 1)
                (pulled = .error none → is s) ∧
                (∀ a, pulled = .error (some a) → is (deviceError s p a)) ∧
                (∀ t, pulled = .ok t → is (t.homeStore 16 e.leaf none none none 8 (t.homeLoad e.leaf 8 / 2 * 2)))))))))) ∧
  (∀ (s : State) (k : Fin 64), s.ev.x = k.val →
    let r := s.rings[k]
    let v := s.ev.v
    let writes := fun (q : Ring) => exec .faultRingRegisterWrite s = .next (({ s with rings := s.rings.set k q } : State).flushRing k q.wait.length)
    let size := v % 2 ^ 5
    (s.ev.n = 0 → writes (if r.en then r else { r with base := v % 2 ^ 52 })) ∧
    (s.ev.n = 1 → (r.en = true ∨ (v.testBit 63 = true ∧ ¬(6 ≤ size ∧ size ≤ 16))) → writes r) ∧
    (s.ev.n = 1 → r.en = false → (v.testBit 63 = true → 6 ≤ size ∧ size ≤ 16) → writes { r with en := v.testBit 63, szlog := size }) ∧
    (s.ev.n = 2 → writes r) ∧
    (s.ev.n = 3 → writes (if 2 ^ r.szlog < (r.prod + 2 ^ 32 - v % 2 ^ 32) % 2 ^ 32 then r else { r with cons := v % 2 ^ 32, line := false }))) ∧
  (∀ (s : State),
    let tok := s.ev.v % 2 ^ 32
    let out := (∃ h ∈ s.clusters, ∃ f ∈ h.2.pfaults, f.token = tok) ∨ ∃ p : Fin 16, s.parts[p].cpToken = some tok
    let ended := fun (s : State) =>
      let t := match s.tokenPage tok with | some (p, v) => s.modPart p fun r => { r with noPage := r.noPage.filter (· != v) } | none => s
      { t with
        clusters := t.clusters.map fun h => (h.1, { h.2 with pfaults := h.2.pfaults.filter fun f => f.token != tok })
        parts := t.parts.map fun p => if p.cpToken = some tok then { p with cpToken := none, noPage := p.noPage.filter (· != p.cpPage) } else p }
    ((s.ev.v.testBit 32 = true ∨ ¬out) → exec .doorbellReissue s = .next s) ∧
    ((s.ev.v.testBit 32 = false ∨ ¬out) → exec .doorbellGiveUp s = .next s) ∧
    (s.ev.v.testBit 32 = false → out → exec .doorbellReissue s = .next (ended s)) ∧
    (s.ev.v.testBit 32 = true → out →
      let u : State := { s with parts := s.parts.map fun p => if p.cpToken = some tok then { p with cpGone := p.cpPage :: p.cpGone } else p }
      exec .doorbellGiveUp s = .next (ended (match s.tokenPage tok with | some (_, v) => u.giveUpPage tok v | none => u))))

/-! ### Firmware, boot and links (27) -/

/-- A marker copy is valid, with a SEQ and a SLOT (R447). -/
def Sys2Proof.Spec.Marker (m seq slot : Nat) : Prop :=
  m % 2 ^ 32 = 0x4B534C54 ∧ seq = m / 2 ^ 32 % 2 ^ 32 ∧ slot = m / 2 ^ 64 % 2 ^ 8 ∧ slot ≤ 1 ∧ m / 2 ^ 72 % 2 ^ 152 = 0 ∧
    m / 2 ^ 224 % 2 ^ 32 = (crc32 (toBytes 28 m)).toNat

/-- The slot that the markers choose (R448): of two valid copies the one of higher SEQ, copy 0 on equal SEQ; the one that is valid; else A. -/
def Sys2Proof.Spec.Chosen (m0 m1 k : Nat) : Prop :=
  (∀ a b i j, Marker m0 a i → Marker m1 b j → k = if a < b then j else i) ∧
    (∀ a i, Marker m0 a i → (∀ b j, ¬Marker m1 b j) → k = i) ∧
    (∀ b j, (∀ a i, ¬Marker m0 a i) → Marker m1 b j → k = j) ∧
    ((∀ a i, ¬Marker m0 a i) → (∀ b j, ¬Marker m1 b j) → k = 0)

/-- R444, R447 to R449: a message takes a permit of its link or waits behind the earlier ones; one consumed takes effect, a fault record in its ring and the
end of a block in its launch, and the permit returned sends the first that waits (log 72).
A package reset boots the slot that the markers choose, the other when its signature fails, with a fresh package key, and stops with 0xB0 when both fail; memory
and flash are what they were (log 61). An update writes the other slot, and only after it, its signature being good, the copy of lower SEQ with the
higher SEQ + 1 and that slot, or with what a loss of power leaves there; an invalid copy counts as the lower one, copy 1 where neither is valid or both
are equal (log 86).
An event that cannot happen changes nothing (log 10). -/
def Obligations.FirmwareEvents : Prop :=
  (∀ (s : State),
    let c := s.clusterAt s.ev.g
    let m : CmdMsg := .other s.ev.v
    let offered := fun (l : CmdLink) => if 0 < l.permits ∧ l.wait = [] then { l with permits := l.permits - 1, sent := l.sent ++ [m] }
      else { l with wait := l.wait ++ [m] }
    let taken := fun (x : CmdMsg) (t : State) => (match x with
      | .record p words => t.sendRecord p words
      | .ended p k i => t.modPart p fun q => { q with launches := q.launches.map fun e => if e.1 = k then
          (e.1, { e.2 with live := e.2.live.filter fun b => b.1 != i, ran := i :: e.2.ran, runs := e.2.runs + 1 }) else e }
      | .other _ => t)
    (s.ev.n = 0 → exec .firmwareMessage s = .next (s.setCluster s.ev.g { c with up := offered c.up })) ∧
    (s.ev.n ≠ 0 → exec .firmwareMessage s = .next (s.setCluster s.ev.g { c with down := offered c.down })) ∧
    (∀ l put, ((s.ev.n = 0 ∧ l = c.up ∧ put = fun (x : CmdMsg) (l : CmdLink) => taken x (s.setCluster s.ev.g { c with up := l })) ∨
        (s.ev.n ≠ 0 ∧ l = c.down ∧ put = fun (_ : CmdMsg) (l : CmdLink) => s.setCluster s.ev.g { c with down := l })) →
      (l.sent = [] → exec .permitReturn s = .next s) ∧
      (∀ x r, l.sent = x :: r → l.wait = [] → exec .permitReturn s = .next (put x { l with permits := l.permits + 1, sent := r })) ∧
      (∀ x r y w, l.sent = x :: r → l.wait = y :: w → exec .permitReturn s = .next (put x { l with sent := r ++ [y], wait := w })))) ∧
  (∀ (s : State) (k : Nat), Chosen s.marker0 s.marker1 k →
    let slot := fun k => if k = 0 then s.slotA else s.slotB
    let t : State := { State.reset with agenda := s.agenda, mem := s.mem, slotA := s.slotA, slotB := s.slotB, marker0 := s.marker0,
                                        marker1 := s.marker1, draws := s.draws, freeCnt := s.freeCnt }
    let boots := fun k : Nat => exec .packageReset s =
      .next { t with booted := some k, bootImage := (slot k).image, pkgKey := (Config.rngDraw s.draws).toNat, draws := s.draws + 1 }
    ((slot k).good = true → boots k) ∧
    ((slot k).good = false → (slot (1 - k)).good = true → boots (1 - k)) ∧
    ((slot k).good = false → (slot (1 - k)).good = false → exec .packageReset s = .next { t with booted := none, board := some 0xB0 }) ∧
    (s.ev.n = 0 → exec .firmwareUpdate s = .next
      (let f : FlashSlot := { image := s.ev.v, good := s.ev.x == 1 }
       if k = 0 then { s with slotB := f, updated := some 1 } else { s with slotA := f, updated := some 0 })) ∧
    (s.ev.n ≠ 0 → s.updated = none → exec .firmwareUpdate s = .next s) ∧
    (∀ d, s.ev.n ≠ 0 → s.updated = some d → (slot d).good = false → exec .firmwareUpdate s = .next s) ∧
    (∀ d, s.updated = some d → d ≤ 1 → (slot d).good = true →
      let seq := fun (m : Nat) => (m / 2 ^ 32 % 2 ^ 32)
      let valid := fun (m : Nat) => ∃ a i, Marker m a i
      let put := fun (first : Prop) (m : Nat) => ∃ t, exec .firmwareUpdate s = .next t ∧
        (first → t = { s with updated := none, marker0 := m }) ∧ (¬first → t = { s with updated := none, marker1 := m })
      let first := (valid s.marker1 ∧ (valid s.marker0 → seq s.marker0 < seq s.marker1))
      (s.ev.n = 1 → ∀ n, (∀ m ∈ [s.marker0, s.marker1], valid m → seq m ≤ n) →
        (n = 0 ∨ ∃ m ∈ [s.marker0, s.marker1], valid m ∧ seq m = n) → n + 1 < 2 ^ 32 → ∃ m, Marker m (n + 1) d ∧ put first m) ∧
      (1 < s.ev.n → valid s.ev.v → exec .firmwareUpdate s = .next s) ∧
      (1 < s.ev.n → ¬valid s.ev.v → put first s.ev.v)))

/-- R450 to R452, R454, R373: a PCIe port settles on the highest generation and width of both ends; a Herlek link goes from DETECT to PROBE,
TRAIN at the lower generation, LOCK, and after 128 good flits ACTIVE, falls back a generation, with its partner, when training fails or lasts more
than 1 ms, and retrains after more than 16 replays in 1 ms or a loss of lock; only an ACTIVE link carries traffic, and what is sent waits at this end in order
(log 71 says what of a flit and of a training the model holds, log 116 which link is taken). A sector above its threshold is hot until it is below it, so
that one at its threshold stays as it is (log 70); past the package limit every core is
gated, every partition is reset and 0xB1 reported, until every sector is below the threshold.
An event that cannot happen changes nothing (log 10). -/
def Obligations.LinkEvents : Prop :=
  (∀ (s : State), s.ev.p < 8 → 3 ≤ s.ev.n → ∀ w ∈ [16, 8, 4, 2, 1], w ≤ s.ev.v → (s.ev.v < 2 * w ∨ w = 16) →
    exec .pcieLinkTraining s = .next { s with pcie := s.pcie.set (Fin.ofNat 8 s.ev.p) (some (Nat.min s.ev.n 6, w)) }) ∧
  (∀ (s : State) (l : Link), s.ev.p < 16 → s.links[(Fin.ofNat 16 s.ev.p : Fin 16)] = l →
    let is := fun (i : Instr) (k : Link) => exec i s = .next { s with links := s.links.set (Fin.ofNat 16 s.ev.p) k }
    let after := fun (g : Nat) => if g ≤ 1 then LinkSt.down else .train (g - 1)
    let recent := s.cycle :: l.replays.filter fun c => decide (s.cycle - c < 1000000)
    is .linkRetrainRequest { l with st := .detect, good := 0, replays := [] } ∧
    (l.st = .detect → is .linkPartnerDetect { l with st := .probe }) ∧
    (l.st ≠ .detect → exec .linkPartnerDetect s = .next s) ∧
    (l.st = .probe → 1 ≤ s.ev.n → is .linkProbeExchange
      { l with st := .train (Nat.min s.ev.n 3), partner := some (s.ev.n, s.ev.v), since := s.cycle }) ∧
    ((l.st ≠ .probe ∨ s.ev.n = 0) → exec .linkProbeExchange s = .next s) ∧
    (∀ g, (l.st = .train g ∨ l.st = .retrain g) →
      (s.ev.n = 1 → s.cycle ≤ l.since + 1000000 → is .linkTrainResult { l with st := .lock g, good := 0, since := s.cycle }) ∧
      ((s.ev.n ≠ 1 ∨ l.since + 1000000 < s.cycle) → is .linkTrainResult { l with st := after g, good := 0, since := s.cycle })) ∧
    ((∀ g, l.st ≠ .train g ∧ l.st ≠ .retrain g) → exec .linkTrainResult s = .next s) ∧
    (∀ g, l.st = .lock g →
      (s.ev.n = 1 → l.good < 127 → is .linkFlitReceive { l with good := l.good + 1 }) ∧
      (s.ev.n = 1 → 127 ≤ l.good → is .linkFlitReceive { l with st := .active g, good := 0, replays := [] }) ∧
      (s.ev.n ≠ 1 → is .linkFlitReceive { l with good := 0 })) ∧
    (∀ g, l.st = .active g →
      (s.ev.n = 1 → is .linkFlitReceive { l with delivered := l.delivered + 1 }) ∧
      (s.ev.n = 2 → is .linkFlitReceive { l with out := l.out.drop 1 }) ∧
      (s.ev.n ≠ 1 → s.ev.n ≠ 2 → recent.length ≤ 16 → is .linkFlitReceive { l with replays := recent }) ∧
      (s.ev.n ≠ 1 → s.ev.n ≠ 2 → 16 < recent.length →
        is .linkFlitReceive { l with st := .retrain g, replays := [], good := 0, since := s.cycle })) ∧
    ((∀ g, l.st ≠ .lock g ∧ l.st ≠ .active g) → exec .linkFlitReceive s = .next s) ∧
    (∀ g, l.st = .active g → is .linkLossOfLock { l with st := .retrain g, good := 0, replays := [], since := s.cycle }) ∧
    (∀ g, (l.st = .train g ∨ l.st = .lock g ∨ l.st = .retrain g) →
      is .linkLossOfLock { l with st := after g, good := 0, replays := [], since := s.cycle })) ∧
  (∀ (s : State) (pkg : Nat) (m : LinkMsg),
    let k := s.linkTo pkg
    s.sendLink pkg m = { s with links := s.links.set k { (s.links[k]) with out := (s.links[k]).out ++ [m] } } ∧
    (s.linkOpen pkg m = true ↔ (∃ g, (s.links[k]).st = .active g) ∧ ∀ j : Fin 16, m ∉ (s.links[j]).out)) ∧
  (∀ (s : State),
    let temp := fun (k : Nat) => (s.ev.bytes[k]?.getD 0).toNat
    let u : State := { s with
      temps := (List.range 320).map fun k => (k, temp k)
      hot := (List.range 320).filter fun k => decide (s.therm < temp k ∨ (k ∈ s.hot ∧ s.therm ≤ temp k)) }
    let past := ∃ k, k < 320 ∧ s.therm + 15 < temp k
    let cool := ∀ k, k < 320 → temp k < s.therm
    (¬past → (s.gated = false ∨ ¬cool) → exec .thermalReading s = .next u) ∧
    (¬past → s.gated = true → cool → exec .thermalReading s = .next { u with gated := false }) ∧
    (past → ∃ t, exec .thermalReading s = .next t ∧ t.gated = true ∧ t.board = some 0xB1 ∧ t.temps = u.temps ∧
      ∀ p, p < 16 → (s.part p).en = true → (t.part p).launches = [] ∧ (t.part p).resets = ((s.part p).resets + 1) % 2 ^ 32 ∧
        ∀ g, (s.part p).base ≤ g / 8 → g / 8 < (s.part p).base + (s.part p).len → t.coreAt g = {}))

/-! ### The machine as a whole -/

/-- What a step adds around exec when a core issues: one cycle passes (log 1). -/
def Sys2Proof.Spec.cycleAfter (r : Host.Outcome State Fault Refusal) : Host.Outcome State Fault Refusal :=
  match r with
  | .next t => .next (t.pass 1)
  | x => x

/-- Context x is the one that issues from the focus core in state v: the core's lead has entered its handler if that was due, x is the first
READY context after the one that issued last, and no token waits to be written (R266, R275, R283). -/
structure Sys2Proof.Spec.Issues (s : State) (x : Fin 16) (v : State) : Prop where
  /-- the agenda is empty: the focus core issues (log 1) -/
  agenda : s.agenda = []
  /-- the firmware runs (R448) -/
  booted : s.booted ≠ none
  /-- the context chosen by the rotation -/
  pick : (s.enterHandler s.core).pick s.core = some x
  /-- the state in which it fetches -/
  start : v = (s.enterHandler s.core).startIssue s.core x
  /-- no token waits -/
  token : v.cur.token = none

/-- R26, R38, R39, R59, R60, R66, R266 (and log 1 for the step around exec): a step in which a core issues fetches at the pc of the context that
the rotation chooses, decodes what it fetched and executes that instruction, one cycle passing; in the scratchpad it fetches a halfword,
and a second one when bit 0 of the first is 1; what does not decode is the illegal-encoding step, what does not fetch the fetch-fault
step; a member of a gang takes the word that its leader fetched (R140); a Gydon context fetches the halfword at its pc from the copy of
its translator image in the translation area (R26, R30), and parks at a page of it that is not present. A move of the agenda that is an
agent's step is executed as it stands. -/
def Obligations.StepRunsDecoded : Prop :=
  (∀ (s v : State) (x : Fin 16), Issues s x v → v.cur.gydonMode = false →
    (∀ w t i, v.fetch = .ok (w, 2, t) → decode (.half (.ofNat 16 w)) = some i → i.wf = true → step s = cycleAfter (exec i (t.latch w))) ∧
    (∀ w t i, v.fetch = .ok (w, 4, t) → decode (.word (.ofNat 32 w)) = some i → i.wf = true → step s = cycleAfter (exec i (t.latch w))) ∧
    (∀ w t, v.fetch = .ok (w, 4, t) → (∀ i, decode (.word (.ofNat 32 w)) = some i → i.wf = false) →
      step s = cycleAfter (exec .illegalEncoding (t.latch w))) ∧
    (∀ w t, v.fetch = .ok (w, 2, t) → (∀ i, decode (.half (.ofNat 16 w)) = some i → i.wf = false) →
      step s = cycleAfter (exec .illegalEncoding (t.latch w))) ∧
    (∀ e, v.fetch = .error e → step s = cycleAfter (exec .fetchFault v)) ∧
    (let a := v.cur.sgb[0] + v.cur.pc
     let b := v.cur.sgb[0] + (v.cur.pc + 2)
     let lo := Memory.load v.here.pad a.toNat 2
     let hi := Memory.load v.here.pad b.toNat 2
     v.cur.gang = none → v.cur.gword = none → segCheck v.cur.sgb[0] v.cur.sgl[0] v.cur.pc 2 2 [.x] = .ok (true, a.toNat) → v.tileGate a.toNat = .ok () →
      (lo % 2 = 0 → v.fetch = .ok (lo, 2, v)) ∧
      (lo % 2 = 1 → segCheck v.cur.sgb[0] v.cur.sgl[0] (v.cur.pc + 2) 2 2 [.x] = .ok (true, b.toNat) → v.tileGate b.toNat = .ok () →
        v.fetch = .ok (lo + 65536 * hi, 4, v))) ∧
    (∀ w n, v.cur.gword = some (w, n) → v.fetch = .ok (w, n, v))) ∧
  (∀ (s v : State) (x : Fin 16) (t : Xlat), Issues s x v → v.cur.gydonMode = true → v.curPart.xlat = some t →
    let a := 2 * v.cur.gyd.pc
    (a + 2 ≤ t.xlen →
      (∀ pa e u ws f, v.translate v.core v.cur.comp (t.vImage + a) { x := true } = (.ok pa e, u) → u.lineFor v.core pa e = .words ws f →
        let w := lineValue ws (pa % 64) 2
        (∀ i, decodeGydon w = some i → step s = cycleAfter (exec i (f.latch w))) ∧
        (decodeGydon w = none → step s = cycleAfter (exec .illegalEncoding (f.latch w)))) ∧
      (∀ u, v.translate v.core v.cur.comp (t.vImage + a) { x := true } = (.absent, u) → step s = cycleAfter (exec .fetchFault v))) ∧
    (t.xlen < a + 2 → step s = cycleAfter (exec .fetchFault v))) ∧
  (∀ (s : State) (i : Instr) (e : Ev) (r : List Move), s.agenda = .event i e :: r → s.booted ≠ none → isAgentStep i = true →
    step s = exec i { s with agenda := r, ev := e })

/-- R37 to R39, R61 to R65, R69, R89: words written out from the encoding tables decode to the instructions that they stand for: format R (MUL),
K (LDI), M (LEA, LD, ST), B, J, X and L, the 16-bit forms, and Gydon halfwords; the all-zero halfword is EXIT, and an unused field that is
not zero makes a halfword illegal. -/
def Obligations.DecodeWords : Prop :=
  decode (.word 0x02100907) = some (.mulConst .i64 2 ⟨1, false⟩ 16) ∧
    decode (.word 0xFFF6A289) = some (.ldi 5 0x1FFED4) ∧
    decode (.half 0x0264) = some (.add16 3 1) ∧
    decode (.half 0) = some .exit16 ∧
    decode (.word 0x602B138F) = some (.lea .n64 7 ⟨3, some ⟨2, false⟩, 5⟩) ∧
    decode (.word 0x0C4209A1) = some (.padds false .i8 3 ⟨1, false⟩ ⟨2, false⟩) ∧
    decode (.word 0xC0221AB9) = some (.ld .i32 5 ⟨2, some ⟨3, false⟩, 4⟩) ∧
    decode (.word 0x6009FB3B) = some (.st .n64 6 ⟨1, none, 1⟩) ∧
    decode (.word 0x9A40CB11) = some (.bz ⟨9, true⟩ 1234) ∧
    decode (.word 0x91A2B393) = some (.jmp 19088743) ∧
    decode (.word 0x00020897) = some (.kand 1 1 2) ∧
    decode (.word 0xAC06CAA1) = some (.padd true .n8 5 ⟨9, true⟩ ⟨6, false⟩) ∧
    decode (.word 0x4806CAA9) = some (.fadd .bf16 5 ⟨9, true⟩ ⟨6, false⟩) ∧
    decode (.word 0xC806CAAD) = some (.pfadd true .bf16 5 ⟨9, true⟩ ⟨6, false⟩) ∧
    decode (.word 0x1402C827) = some (.scfg 5 ⟨9, true⟩ 2) ∧
    decode (.word 0x5805CAC1) = some (.aaddN32 .acq .part 5 ⟨9, true⟩ 5) ∧
    decode (.word 0x58000043) = some (.fence .acq .part) ∧
    decode (.word 0x94200343) = some (.xfence 37 6) ∧
    decode (.word 0x0040CAC5) = some (.trarrive 5 ⟨9, true⟩) ∧
    decode (.word 0x0800CD47) = some (.chsend 2 10 ⟨9, true⟩) ∧
    decode (.word 0xCC06CAC9) = some (.cpfill true 19 5 ⟨9, true⟩ ⟨6, false⟩) ∧
    decode (.word 0xA806CACD) = some (.mxmul true false true false 2 5 ⟨9, true⟩ ⟨6, false⟩) ∧
    decode (.word 0x0006CAD1) = some (.spawn 5 ⟨9, true⟩ ⟨6, false⟩) ∧
    decode (.word 0x08000059) = some (.trap 2) ∧
    decode (.word 0x3460C859) = some (.mts (.sgb 5) ⟨9, true⟩) ∧
    decode (.word 0x000202DB) = some (.cntrd 5 2) ∧
    decode (.word 0x0045CAD3) = some (.dtmark 5 ⟨9, true⟩ 5) ∧
    decode (.word 0xA486CAD5) = some (.gtxfer 5 1 5 ⟨9, true⟩ ⟨6, false⟩) ∧
    decode (.word 0x1406CADD) = some (.evreq 5 5 ⟨9, true⟩ ⟨6, false⟩) ∧
    decode (.half 0xA6B8) = some (.bz16 5 83) ∧
    decodeGydon 0x0904 = some .gydonLi ∧ decodeGydon 0x1120 = some .gydonLhi ∧ decodeGydon 0x0000 = none ∧ decodeGydon 0x2001 = none ∧
    decodeGydon 0xA801 = some .gydonEmitH ∧ decodeGydon 0xA803 = none ∧ decodeGydon 0xC800 = none

/-- The values that the manual gives for reset: R417 to R420 and R426 for the partition registers, R373 for ESB, R445 for PKGNUM and THERM, R459
for the fault rings, R451 for the links, R77, R80 and R280 for the registers of contexts and cores, R266 for the rotation, R419 for
FREE contexts and zeroed scratchpads; and values that the manual does not give and the model chooses (log 3): PBASE, PLEN, PTROOT, PQTAB, PXAREA,
PXCAP, the cycle, the full bits and the predicate registers. No world has a record, no link has traffic, the command ring is empty, and no
firmware update is under way. Every memory is in canonical form (log 4 says what an unlisted byte reads as). -/
def Obligations.ResetState : Prop :=
  let s := State.reset
  s.memWf = true ∧ s.mem = [] ∧ s.cycle = 0 ∧ s.pkgnum = 0 ∧ s.therm = 95 ∧ s.gates = [] ∧ (∀ k, s.sectorBudget k = 1024) ∧
    (∀ p : Fin 16, let r := s.parts[p]
      r.base = 0 ∧ r.len = 0 ∧ r.en = false ∧ r.guest = true ∧ r.strap = false ∧ r.mig = false ∧ r.sysp = false ∧ r.wdog = 0 ∧ r.asid = 0 ∧
        r.troot = 0 ∧ r.qtab = 0 ∧ r.rst = false ∧ r.err = 0 ∧ r.resets = 0 ∧ r.shoot = 0 ∧ r.drop = 0 ∧ r.xarea = 0 ∧ r.xcap = 0) ∧
    (∀ k : Fin 64, let r := s.rings[k]; r.base = 0 ∧ r.en = false ∧ r.szlog = 0 ∧ r.prod = 0 ∧ r.cons = 0) ∧
    (∀ p : Fin 16, s.links[p].st = .detect ∧ s.links[p].out = []) ∧
    s.worlds = [] ∧ s.peers = [] ∧ s.devQ = [] ∧ s.cmdRing = [] ∧ s.ringPos = 0 ∧ s.statReads = [] ∧ s.updated = none ∧
    (∀ g, let c := s.coreAt g
      c.pad = [] ∧ c.lastIssuer = 15 ∧ c.fallen = false ∧ c.tvec = 0 ∧ c.tact = false ∧ c.tpend = 0 ∧ c.copyQ = [] ∧ c.mxQ = [] ∧ c.sb = [] ∧
        ∀ x : Fin 16, let k := s.ctxAt g x
          k.st = .free ∧ k.full = 0xFFFF ∧ k.k = .replicate 4 0xFF ∧ k.fpc = 0 ∧ k.geom = 0 ∧ k.rstk = [] ∧ k.cnt = .replicate 8 0)

/-- R37 to R39, R61 to R66, R90: for every well-formed instruction, with every operand at every value that its encoding admits, decoding its
word gives it back; every instruction has a word, but for Gydon instructions, whose fields the machine reads from the halfword itself, and
the steps that no program issues; and a Gydon halfword decodes exactly when its opcode is assigned and its unused fields are zero. -/
def Obligations.DecodeEncode : Prop :=
  (∀ (i : Instr) (w : Enc), i.wf = true → encode i = some w → decode w = some i) ∧
  (∀ i : Instr, encode i = none ↔
    (isAgentStep i = true ∨ i ∈ [Instr.illegalEncoding, .fetchFault, .gydonLi, .gydonLhi, .gydonMv, .gydonAdd, .gydonSub, .gydonAnd, .gydonOr,
      .gydonXor, .gydonShl, .gydonShr, .gydonLdb, .gydonLdh, .gydonLdw, .gydonStw, .gydonBeq, .gydonBne, .gydonBlt, .gydonJmp, .gydonTbl,
      .gydonField, .gydonEmit, .gydonEmitH, .gydonOrig, .gydonDone, .gydonFail])) ∧
  (∀ w : Nat, w < 2 ^ 16 →
    let op := w / 2 ^ 11
    let unused :=
      if op = 3 ∨ op = 19 then w % 2 ^ 5
      else if 4 ≤ op ∧ op ≤ 10 then w % 2 ^ 2
      else if op = 21 then w / 2 ^ 8 % 2 ^ 3 + w / 2 ^ 2 % 2 ^ 3 + w / 2 % 2
      else if op = 22 ∨ op = 24 then w / 2 ^ 8 % 2 ^ 3 + w % 2 ^ 5
      else if op = 23 then w % 2 ^ 11
      else 0
    ((decodeGydon w).isSome = true ↔ (1 ≤ op ∧ op ≤ 24 ∧ unused = 0)))

/-- R61 to R66, R90: every word that decodes to a well-formed instruction is that instruction's one encoding: no reserved field is dropped, and no
two words mean the same instruction. -/
def Obligations.EncodingUnique : Prop :=
  ∀ (w : Enc) (i : Instr), decode w = some i → i.wf = true → encode i = some w

/-- The memories of the package (R8, R12, R196, R445), that is physical memory, the scratchpads, those of cores that another package has handed
over, and the command ring, keep the model's canonical form (rising addresses, no cell equal to what an unlisted address reads as, log 4) in
every step, from every state: equal memories are equal data. -/
def Obligations.MemoryCanonical : Prop := ∀ s t : State, s.memWf = true → step s = .next t → t.memWf = true
end

