-- ==== Sys2Proof/Laws/State.lean ====
section
/-! SUPPORT. What each accessor of the state leaves alone: one lemma for each update and each field of the state, of a core and of a
context, all by definition. -/

namespace Sys2Proof.Machine

/-! ### State.setCore -/

@[simp] theorem State.setCore_cycle (s : State) (g : Nat) (c : CoreSt) : (s.setCore g c).cycle = s.cycle := rfl
@[simp] theorem State.setCore_agenda (s : State) (g : Nat) (c : CoreSt) : (s.setCore g c).agenda = s.agenda := rfl
@[simp] theorem State.setCore_core (s : State) (g : Nat) (c : CoreSt) : (s.setCore g c).core = s.core := rfl
@[simp] theorem State.setCore_ctx (s : State) (g : Nat) (c : CoreSt) : (s.setCore g c).ctx = s.ctx := rfl
@[simp] theorem State.setCore_ev (s : State) (g : Nat) (c : CoreSt) : (s.setCore g c).ev = s.ev := rfl
@[simp] theorem State.setCore_freeCnt (s : State) (g : Nat) (c : CoreSt) : (s.setCore g c).freeCnt = s.freeCnt := rfl
@[simp] theorem State.setCore_mem (s : State) (g : Nat) (c : CoreSt) : (s.setCore g c).mem = s.mem := rfl
@[simp] theorem State.setCore_lines (s : State) (g : Nat) (c : CoreSt) : (s.setCore g c).lines = s.lines := rfl
@[simp] theorem State.setCore_owners (s : State) (g : Nat) (c : CoreSt) : (s.setCore g c).owners = s.owners := rfl
@[simp] theorem State.setCore_invals (s : State) (g : Nat) (c : CoreSt) : (s.setCore g c).invals = s.invals := rfl
@[simp] theorem State.setCore_invSeq (s : State) (g : Nat) (c : CoreSt) : (s.setCore g c).invSeq = s.invSeq := rfl
@[simp] theorem State.setCore_l2Acc (s : State) (g : Nat) (c : CoreSt) : (s.setCore g c).l2Acc = s.l2Acc := rfl
@[simp] theorem State.setCore_l2Miss (s : State) (g : Nat) (c : CoreSt) : (s.setCore g c).l2Miss = s.l2Miss := rfl
@[simp] theorem State.setCore_hioQ (s : State) (g : Nat) (c : CoreSt) : (s.setCore g c).hioQ = s.hioQ := rfl
@[simp] theorem State.setCore_hioSeq (s : State) (g : Nat) (c : CoreSt) : (s.setCore g c).hioSeq = s.hioSeq := rfl
@[simp] theorem State.setCore_hioRefused (s : State) (g : Nat) (c : CoreSt) : (s.setCore g c).hioRefused = s.hioRefused := rfl
@[simp] theorem State.setCore_tags (s : State) (g : Nat) (c : CoreSt) : (s.setCore g c).tags = s.tags := rfl
@[simp] theorem State.setCore_scrubs (s : State) (g : Nat) (c : CoreSt) : (s.setCore g c).scrubs = s.scrubs := rfl
@[simp] theorem State.setCore_devQ (s : State) (g : Nat) (c : CoreSt) : (s.setCore g c).devQ = s.devQ := rfl
@[simp] theorem State.setCore_worlds (s : State) (g : Nat) (c : CoreSt) : (s.setCore g c).worlds = s.worlds := rfl
@[simp] theorem State.setCore_peers (s : State) (g : Nat) (c : CoreSt) : (s.setCore g c).peers = s.peers := rfl
@[simp] theorem State.setCore_clusters (s : State) (g : Nat) (c : CoreSt) : (s.setCore g c).clusters = s.clusters := rfl
@[simp] theorem State.setCore_quads (s : State) (g : Nat) (c : CoreSt) : (s.setCore g c).quads = s.quads := rfl
@[simp] theorem State.setCore_hops (s : State) (g : Nat) (c : CoreSt) : (s.setCore g c).hops = s.hops := rfl
@[simp] theorem State.setCore_parts (s : State) (g : Nat) (c : CoreSt) : (s.setCore g c).parts = s.parts := rfl
@[simp] theorem State.setCore_probes (s : State) (g : Nat) (c : CoreSt) : (s.setCore g c).probes = s.probes := rfl
@[simp] theorem State.setCore_gates (s : State) (g : Nat) (c : CoreSt) : (s.setCore g c).gates = s.gates := rfl
@[simp] theorem State.setCore_refills (s : State) (g : Nat) (c : CoreSt) : (s.setCore g c).refills = s.refills := rfl
@[simp] theorem State.setCore_gateMoves (s : State) (g : Nat) (c : CoreSt) : (s.setCore g c).gateMoves = s.gateMoves := rfl
@[simp] theorem State.setCore_rings (s : State) (g : Nat) (c : CoreSt) : (s.setCore g c).rings = s.rings := rfl
@[simp] theorem State.setCore_nextToken (s : State) (g : Nat) (c : CoreSt) : (s.setCore g c).nextToken = s.nextToken := rfl
@[simp] theorem State.setCore_esb (s : State) (g : Nat) (c : CoreSt) : (s.setCore g c).esb = s.esb := rfl
@[simp] theorem State.setCore_temps (s : State) (g : Nat) (c : CoreSt) : (s.setCore g c).temps = s.temps := rfl
@[simp] theorem State.setCore_hot (s : State) (g : Nat) (c : CoreSt) : (s.setCore g c).hot = s.hot := rfl
@[simp] theorem State.setCore_therm (s : State) (g : Nat) (c : CoreSt) : (s.setCore g c).therm = s.therm := rfl
@[simp] theorem State.setCore_gated (s : State) (g : Nat) (c : CoreSt) : (s.setCore g c).gated = s.gated := rfl
@[simp] theorem State.setCore_arrivals (s : State) (g : Nat) (c : CoreSt) : (s.setCore g c).arrivals = s.arrivals := rfl
@[simp] theorem State.setCore_pkgnum (s : State) (g : Nat) (c : CoreSt) : (s.setCore g c).pkgnum = s.pkgnum := rfl
@[simp] theorem State.setCore_board (s : State) (g : Nat) (c : CoreSt) : (s.setCore g c).board = s.board := rfl
@[simp] theorem State.setCore_slotA (s : State) (g : Nat) (c : CoreSt) : (s.setCore g c).slotA = s.slotA := rfl
@[simp] theorem State.setCore_slotB (s : State) (g : Nat) (c : CoreSt) : (s.setCore g c).slotB = s.slotB := rfl
@[simp] theorem State.setCore_marker0 (s : State) (g : Nat) (c : CoreSt) : (s.setCore g c).marker0 = s.marker0 := rfl
@[simp] theorem State.setCore_marker1 (s : State) (g : Nat) (c : CoreSt) : (s.setCore g c).marker1 = s.marker1 := rfl
@[simp] theorem State.setCore_booted (s : State) (g : Nat) (c : CoreSt) : (s.setCore g c).booted = s.booted := rfl
@[simp] theorem State.setCore_bootImage (s : State) (g : Nat) (c : CoreSt) : (s.setCore g c).bootImage = s.bootImage := rfl
@[simp] theorem State.setCore_pcie (s : State) (g : Nat) (c : CoreSt) : (s.setCore g c).pcie = s.pcie := rfl
@[simp] theorem State.setCore_links (s : State) (g : Nat) (c : CoreSt) : (s.setCore g c).links = s.links := rfl
@[simp] theorem State.setCore_cmdRing (s : State) (g : Nat) (c : CoreSt) : (s.setCore g c).cmdRing = s.cmdRing := rfl
@[simp] theorem State.setCore_ringPos (s : State) (g : Nat) (c : CoreSt) : (s.setCore g c).ringPos = s.ringPos := rfl
@[simp] theorem State.setCore_statReads (s : State) (g : Nat) (c : CoreSt) : (s.setCore g c).statReads = s.statReads := rfl
@[simp] theorem State.setCore_updated (s : State) (g : Nat) (c : CoreSt) : (s.setCore g c).updated = s.updated := rfl
@[simp] theorem State.setCore_draws (s : State) (g : Nat) (c : CoreSt) : (s.setCore g c).draws = s.draws := rfl
@[simp] theorem State.setCore_corrected (s : State) (g : Nat) (c : CoreSt) : (s.setCore g c).corrected = s.corrected := rfl
@[simp] theorem State.setCore_pkgKey (s : State) (g : Nat) (c : CoreSt) : (s.setCore g c).pkgKey = s.pkgKey := rfl

/-! ### State.setCtxAt -/

@[simp] theorem State.setCtxAt_cycle (s : State) (g : Nat) (x : Fin 16) (v : Ctx) : (s.setCtxAt g x v).cycle = s.cycle := rfl
@[simp] theorem State.setCtxAt_agenda (s : State) (g : Nat) (x : Fin 16) (v : Ctx) : (s.setCtxAt g x v).agenda = s.agenda := rfl
@[simp] theorem State.setCtxAt_core (s : State) (g : Nat) (x : Fin 16) (v : Ctx) : (s.setCtxAt g x v).core = s.core := rfl
@[simp] theorem State.setCtxAt_ctx (s : State) (g : Nat) (x : Fin 16) (v : Ctx) : (s.setCtxAt g x v).ctx = s.ctx := rfl
@[simp] theorem State.setCtxAt_ev (s : State) (g : Nat) (x : Fin 16) (v : Ctx) : (s.setCtxAt g x v).ev = s.ev := rfl
@[simp] theorem State.setCtxAt_freeCnt (s : State) (g : Nat) (x : Fin 16) (v : Ctx) : (s.setCtxAt g x v).freeCnt = s.freeCnt := rfl
@[simp] theorem State.setCtxAt_mem (s : State) (g : Nat) (x : Fin 16) (v : Ctx) : (s.setCtxAt g x v).mem = s.mem := rfl
@[simp] theorem State.setCtxAt_lines (s : State) (g : Nat) (x : Fin 16) (v : Ctx) : (s.setCtxAt g x v).lines = s.lines := rfl
@[simp] theorem State.setCtxAt_owners (s : State) (g : Nat) (x : Fin 16) (v : Ctx) : (s.setCtxAt g x v).owners = s.owners := rfl
@[simp] theorem State.setCtxAt_invals (s : State) (g : Nat) (x : Fin 16) (v : Ctx) : (s.setCtxAt g x v).invals = s.invals := rfl
@[simp] theorem State.setCtxAt_invSeq (s : State) (g : Nat) (x : Fin 16) (v : Ctx) : (s.setCtxAt g x v).invSeq = s.invSeq := rfl
@[simp] theorem State.setCtxAt_l2Acc (s : State) (g : Nat) (x : Fin 16) (v : Ctx) : (s.setCtxAt g x v).l2Acc = s.l2Acc := rfl
@[simp] theorem State.setCtxAt_l2Miss (s : State) (g : Nat) (x : Fin 16) (v : Ctx) : (s.setCtxAt g x v).l2Miss = s.l2Miss := rfl
@[simp] theorem State.setCtxAt_hioQ (s : State) (g : Nat) (x : Fin 16) (v : Ctx) : (s.setCtxAt g x v).hioQ = s.hioQ := rfl
@[simp] theorem State.setCtxAt_hioSeq (s : State) (g : Nat) (x : Fin 16) (v : Ctx) : (s.setCtxAt g x v).hioSeq = s.hioSeq := rfl
@[simp] theorem State.setCtxAt_hioRefused (s : State) (g : Nat) (x : Fin 16) (v : Ctx) : (s.setCtxAt g x v).hioRefused = s.hioRefused := rfl
@[simp] theorem State.setCtxAt_tags (s : State) (g : Nat) (x : Fin 16) (v : Ctx) : (s.setCtxAt g x v).tags = s.tags := rfl
@[simp] theorem State.setCtxAt_scrubs (s : State) (g : Nat) (x : Fin 16) (v : Ctx) : (s.setCtxAt g x v).scrubs = s.scrubs := rfl
@[simp] theorem State.setCtxAt_devQ (s : State) (g : Nat) (x : Fin 16) (v : Ctx) : (s.setCtxAt g x v).devQ = s.devQ := rfl
@[simp] theorem State.setCtxAt_worlds (s : State) (g : Nat) (x : Fin 16) (v : Ctx) : (s.setCtxAt g x v).worlds = s.worlds := rfl
@[simp] theorem State.setCtxAt_peers (s : State) (g : Nat) (x : Fin 16) (v : Ctx) : (s.setCtxAt g x v).peers = s.peers := rfl
@[simp] theorem State.setCtxAt_clusters (s : State) (g : Nat) (x : Fin 16) (v : Ctx) : (s.setCtxAt g x v).clusters = s.clusters := rfl
@[simp] theorem State.setCtxAt_quads (s : State) (g : Nat) (x : Fin 16) (v : Ctx) : (s.setCtxAt g x v).quads = s.quads := rfl
@[simp] theorem State.setCtxAt_hops (s : State) (g : Nat) (x : Fin 16) (v : Ctx) : (s.setCtxAt g x v).hops = s.hops := rfl
@[simp] theorem State.setCtxAt_parts (s : State) (g : Nat) (x : Fin 16) (v : Ctx) : (s.setCtxAt g x v).parts = s.parts := rfl
@[simp] theorem State.setCtxAt_probes (s : State) (g : Nat) (x : Fin 16) (v : Ctx) : (s.setCtxAt g x v).probes = s.probes := rfl
@[simp] theorem State.setCtxAt_gates (s : State) (g : Nat) (x : Fin 16) (v : Ctx) : (s.setCtxAt g x v).gates = s.gates := rfl
@[simp] theorem State.setCtxAt_refills (s : State) (g : Nat) (x : Fin 16) (v : Ctx) : (s.setCtxAt g x v).refills = s.refills := rfl
@[simp] theorem State.setCtxAt_gateMoves (s : State) (g : Nat) (x : Fin 16) (v : Ctx) : (s.setCtxAt g x v).gateMoves = s.gateMoves := rfl
@[simp] theorem State.setCtxAt_rings (s : State) (g : Nat) (x : Fin 16) (v : Ctx) : (s.setCtxAt g x v).rings = s.rings := rfl
@[simp] theorem State.setCtxAt_nextToken (s : State) (g : Nat) (x : Fin 16) (v : Ctx) : (s.setCtxAt g x v).nextToken = s.nextToken := rfl
@[simp] theorem State.setCtxAt_esb (s : State) (g : Nat) (x : Fin 16) (v : Ctx) : (s.setCtxAt g x v).esb = s.esb := rfl
@[simp] theorem State.setCtxAt_temps (s : State) (g : Nat) (x : Fin 16) (v : Ctx) : (s.setCtxAt g x v).temps = s.temps := rfl
@[simp] theorem State.setCtxAt_hot (s : State) (g : Nat) (x : Fin 16) (v : Ctx) : (s.setCtxAt g x v).hot = s.hot := rfl
@[simp] theorem State.setCtxAt_therm (s : State) (g : Nat) (x : Fin 16) (v : Ctx) : (s.setCtxAt g x v).therm = s.therm := rfl
@[simp] theorem State.setCtxAt_gated (s : State) (g : Nat) (x : Fin 16) (v : Ctx) : (s.setCtxAt g x v).gated = s.gated := rfl
@[simp] theorem State.setCtxAt_arrivals (s : State) (g : Nat) (x : Fin 16) (v : Ctx) : (s.setCtxAt g x v).arrivals = s.arrivals := rfl
@[simp] theorem State.setCtxAt_pkgnum (s : State) (g : Nat) (x : Fin 16) (v : Ctx) : (s.setCtxAt g x v).pkgnum = s.pkgnum := rfl
@[simp] theorem State.setCtxAt_board (s : State) (g : Nat) (x : Fin 16) (v : Ctx) : (s.setCtxAt g x v).board = s.board := rfl
@[simp] theorem State.setCtxAt_slotA (s : State) (g : Nat) (x : Fin 16) (v : Ctx) : (s.setCtxAt g x v).slotA = s.slotA := rfl
@[simp] theorem State.setCtxAt_slotB (s : State) (g : Nat) (x : Fin 16) (v : Ctx) : (s.setCtxAt g x v).slotB = s.slotB := rfl
@[simp] theorem State.setCtxAt_marker0 (s : State) (g : Nat) (x : Fin 16) (v : Ctx) : (s.setCtxAt g x v).marker0 = s.marker0 := rfl
@[simp] theorem State.setCtxAt_marker1 (s : State) (g : Nat) (x : Fin 16) (v : Ctx) : (s.setCtxAt g x v).marker1 = s.marker1 := rfl
@[simp] theorem State.setCtxAt_booted (s : State) (g : Nat) (x : Fin 16) (v : Ctx) : (s.setCtxAt g x v).booted = s.booted := rfl
@[simp] theorem State.setCtxAt_bootImage (s : State) (g : Nat) (x : Fin 16) (v : Ctx) : (s.setCtxAt g x v).bootImage = s.bootImage := rfl
@[simp] theorem State.setCtxAt_pcie (s : State) (g : Nat) (x : Fin 16) (v : Ctx) : (s.setCtxAt g x v).pcie = s.pcie := rfl
@[simp] theorem State.setCtxAt_links (s : State) (g : Nat) (x : Fin 16) (v : Ctx) : (s.setCtxAt g x v).links = s.links := rfl
@[simp] theorem State.setCtxAt_cmdRing (s : State) (g : Nat) (x : Fin 16) (v : Ctx) : (s.setCtxAt g x v).cmdRing = s.cmdRing := rfl
@[simp] theorem State.setCtxAt_ringPos (s : State) (g : Nat) (x : Fin 16) (v : Ctx) : (s.setCtxAt g x v).ringPos = s.ringPos := rfl
@[simp] theorem State.setCtxAt_statReads (s : State) (g : Nat) (x : Fin 16) (v : Ctx) : (s.setCtxAt g x v).statReads = s.statReads := rfl
@[simp] theorem State.setCtxAt_updated (s : State) (g : Nat) (x : Fin 16) (v : Ctx) : (s.setCtxAt g x v).updated = s.updated := rfl
@[simp] theorem State.setCtxAt_draws (s : State) (g : Nat) (x : Fin 16) (v : Ctx) : (s.setCtxAt g x v).draws = s.draws := rfl
@[simp] theorem State.setCtxAt_corrected (s : State) (g : Nat) (x : Fin 16) (v : Ctx) : (s.setCtxAt g x v).corrected = s.corrected := rfl
@[simp] theorem State.setCtxAt_pkgKey (s : State) (g : Nat) (x : Fin 16) (v : Ctx) : (s.setCtxAt g x v).pkgKey = s.pkgKey := rfl

/-! ### State.setCur -/

@[simp] theorem State.setCur_cycle (s : State) (v : Ctx) : (s.setCur v).cycle = s.cycle := rfl
@[simp] theorem State.setCur_agenda (s : State) (v : Ctx) : (s.setCur v).agenda = s.agenda := rfl
@[simp] theorem State.setCur_core (s : State) (v : Ctx) : (s.setCur v).core = s.core := rfl
@[simp] theorem State.setCur_ctx (s : State) (v : Ctx) : (s.setCur v).ctx = s.ctx := rfl
@[simp] theorem State.setCur_ev (s : State) (v : Ctx) : (s.setCur v).ev = s.ev := rfl
@[simp] theorem State.setCur_freeCnt (s : State) (v : Ctx) : (s.setCur v).freeCnt = s.freeCnt := rfl
@[simp] theorem State.setCur_mem (s : State) (v : Ctx) : (s.setCur v).mem = s.mem := rfl
@[simp] theorem State.setCur_lines (s : State) (v : Ctx) : (s.setCur v).lines = s.lines := rfl
@[simp] theorem State.setCur_owners (s : State) (v : Ctx) : (s.setCur v).owners = s.owners := rfl
@[simp] theorem State.setCur_invals (s : State) (v : Ctx) : (s.setCur v).invals = s.invals := rfl
@[simp] theorem State.setCur_invSeq (s : State) (v : Ctx) : (s.setCur v).invSeq = s.invSeq := rfl
@[simp] theorem State.setCur_l2Acc (s : State) (v : Ctx) : (s.setCur v).l2Acc = s.l2Acc := rfl
@[simp] theorem State.setCur_l2Miss (s : State) (v : Ctx) : (s.setCur v).l2Miss = s.l2Miss := rfl
@[simp] theorem State.setCur_hioQ (s : State) (v : Ctx) : (s.setCur v).hioQ = s.hioQ := rfl
@[simp] theorem State.setCur_hioSeq (s : State) (v : Ctx) : (s.setCur v).hioSeq = s.hioSeq := rfl
@[simp] theorem State.setCur_hioRefused (s : State) (v : Ctx) : (s.setCur v).hioRefused = s.hioRefused := rfl
@[simp] theorem State.setCur_tags (s : State) (v : Ctx) : (s.setCur v).tags = s.tags := rfl
@[simp] theorem State.setCur_scrubs (s : State) (v : Ctx) : (s.setCur v).scrubs = s.scrubs := rfl
@[simp] theorem State.setCur_devQ (s : State) (v : Ctx) : (s.setCur v).devQ = s.devQ := rfl
@[simp] theorem State.setCur_worlds (s : State) (v : Ctx) : (s.setCur v).worlds = s.worlds := rfl
@[simp] theorem State.setCur_peers (s : State) (v : Ctx) : (s.setCur v).peers = s.peers := rfl
@[simp] theorem State.setCur_clusters (s : State) (v : Ctx) : (s.setCur v).clusters = s.clusters := rfl
@[simp] theorem State.setCur_quads (s : State) (v : Ctx) : (s.setCur v).quads = s.quads := rfl
@[simp] theorem State.setCur_hops (s : State) (v : Ctx) : (s.setCur v).hops = s.hops := rfl
@[simp] theorem State.setCur_parts (s : State) (v : Ctx) : (s.setCur v).parts = s.parts := rfl
@[simp] theorem State.setCur_probes (s : State) (v : Ctx) : (s.setCur v).probes = s.probes := rfl
@[simp] theorem State.setCur_gates (s : State) (v : Ctx) : (s.setCur v).gates = s.gates := rfl
@[simp] theorem State.setCur_refills (s : State) (v : Ctx) : (s.setCur v).refills = s.refills := rfl
@[simp] theorem State.setCur_gateMoves (s : State) (v : Ctx) : (s.setCur v).gateMoves = s.gateMoves := rfl
@[simp] theorem State.setCur_rings (s : State) (v : Ctx) : (s.setCur v).rings = s.rings := rfl
@[simp] theorem State.setCur_nextToken (s : State) (v : Ctx) : (s.setCur v).nextToken = s.nextToken := rfl
@[simp] theorem State.setCur_esb (s : State) (v : Ctx) : (s.setCur v).esb = s.esb := rfl
@[simp] theorem State.setCur_temps (s : State) (v : Ctx) : (s.setCur v).temps = s.temps := rfl
@[simp] theorem State.setCur_hot (s : State) (v : Ctx) : (s.setCur v).hot = s.hot := rfl
@[simp] theorem State.setCur_therm (s : State) (v : Ctx) : (s.setCur v).therm = s.therm := rfl
@[simp] theorem State.setCur_gated (s : State) (v : Ctx) : (s.setCur v).gated = s.gated := rfl
@[simp] theorem State.setCur_arrivals (s : State) (v : Ctx) : (s.setCur v).arrivals = s.arrivals := rfl
@[simp] theorem State.setCur_pkgnum (s : State) (v : Ctx) : (s.setCur v).pkgnum = s.pkgnum := rfl
@[simp] theorem State.setCur_board (s : State) (v : Ctx) : (s.setCur v).board = s.board := rfl
@[simp] theorem State.setCur_slotA (s : State) (v : Ctx) : (s.setCur v).slotA = s.slotA := rfl
@[simp] theorem State.setCur_slotB (s : State) (v : Ctx) : (s.setCur v).slotB = s.slotB := rfl
@[simp] theorem State.setCur_marker0 (s : State) (v : Ctx) : (s.setCur v).marker0 = s.marker0 := rfl
@[simp] theorem State.setCur_marker1 (s : State) (v : Ctx) : (s.setCur v).marker1 = s.marker1 := rfl
@[simp] theorem State.setCur_booted (s : State) (v : Ctx) : (s.setCur v).booted = s.booted := rfl
@[simp] theorem State.setCur_bootImage (s : State) (v : Ctx) : (s.setCur v).bootImage = s.bootImage := rfl
@[simp] theorem State.setCur_pcie (s : State) (v : Ctx) : (s.setCur v).pcie = s.pcie := rfl
@[simp] theorem State.setCur_links (s : State) (v : Ctx) : (s.setCur v).links = s.links := rfl
@[simp] theorem State.setCur_cmdRing (s : State) (v : Ctx) : (s.setCur v).cmdRing = s.cmdRing := rfl
@[simp] theorem State.setCur_ringPos (s : State) (v : Ctx) : (s.setCur v).ringPos = s.ringPos := rfl
@[simp] theorem State.setCur_statReads (s : State) (v : Ctx) : (s.setCur v).statReads = s.statReads := rfl
@[simp] theorem State.setCur_updated (s : State) (v : Ctx) : (s.setCur v).updated = s.updated := rfl
@[simp] theorem State.setCur_draws (s : State) (v : Ctx) : (s.setCur v).draws = s.draws := rfl
@[simp] theorem State.setCur_corrected (s : State) (v : Ctx) : (s.setCur v).corrected = s.corrected := rfl
@[simp] theorem State.setCur_pkgKey (s : State) (v : Ctx) : (s.setCur v).pkgKey = s.pkgKey := rfl

/-! ### State.setHere -/

@[simp] theorem State.setHere_cycle (s : State) (c : CoreSt) : (s.setHere c).cycle = s.cycle := rfl
@[simp] theorem State.setHere_agenda (s : State) (c : CoreSt) : (s.setHere c).agenda = s.agenda := rfl
@[simp] theorem State.setHere_core (s : State) (c : CoreSt) : (s.setHere c).core = s.core := rfl
@[simp] theorem State.setHere_ctx (s : State) (c : CoreSt) : (s.setHere c).ctx = s.ctx := rfl
@[simp] theorem State.setHere_ev (s : State) (c : CoreSt) : (s.setHere c).ev = s.ev := rfl
@[simp] theorem State.setHere_freeCnt (s : State) (c : CoreSt) : (s.setHere c).freeCnt = s.freeCnt := rfl
@[simp] theorem State.setHere_mem (s : State) (c : CoreSt) : (s.setHere c).mem = s.mem := rfl
@[simp] theorem State.setHere_lines (s : State) (c : CoreSt) : (s.setHere c).lines = s.lines := rfl
@[simp] theorem State.setHere_owners (s : State) (c : CoreSt) : (s.setHere c).owners = s.owners := rfl
@[simp] theorem State.setHere_invals (s : State) (c : CoreSt) : (s.setHere c).invals = s.invals := rfl
@[simp] theorem State.setHere_invSeq (s : State) (c : CoreSt) : (s.setHere c).invSeq = s.invSeq := rfl
@[simp] theorem State.setHere_l2Acc (s : State) (c : CoreSt) : (s.setHere c).l2Acc = s.l2Acc := rfl
@[simp] theorem State.setHere_l2Miss (s : State) (c : CoreSt) : (s.setHere c).l2Miss = s.l2Miss := rfl
@[simp] theorem State.setHere_hioQ (s : State) (c : CoreSt) : (s.setHere c).hioQ = s.hioQ := rfl
@[simp] theorem State.setHere_hioSeq (s : State) (c : CoreSt) : (s.setHere c).hioSeq = s.hioSeq := rfl
@[simp] theorem State.setHere_hioRefused (s : State) (c : CoreSt) : (s.setHere c).hioRefused = s.hioRefused := rfl
@[simp] theorem State.setHere_tags (s : State) (c : CoreSt) : (s.setHere c).tags = s.tags := rfl
@[simp] theorem State.setHere_scrubs (s : State) (c : CoreSt) : (s.setHere c).scrubs = s.scrubs := rfl
@[simp] theorem State.setHere_devQ (s : State) (c : CoreSt) : (s.setHere c).devQ = s.devQ := rfl
@[simp] theorem State.setHere_worlds (s : State) (c : CoreSt) : (s.setHere c).worlds = s.worlds := rfl
@[simp] theorem State.setHere_peers (s : State) (c : CoreSt) : (s.setHere c).peers = s.peers := rfl
@[simp] theorem State.setHere_clusters (s : State) (c : CoreSt) : (s.setHere c).clusters = s.clusters := rfl
@[simp] theorem State.setHere_quads (s : State) (c : CoreSt) : (s.setHere c).quads = s.quads := rfl
@[simp] theorem State.setHere_hops (s : State) (c : CoreSt) : (s.setHere c).hops = s.hops := rfl
@[simp] theorem State.setHere_parts (s : State) (c : CoreSt) : (s.setHere c).parts = s.parts := rfl
@[simp] theorem State.setHere_probes (s : State) (c : CoreSt) : (s.setHere c).probes = s.probes := rfl
@[simp] theorem State.setHere_gates (s : State) (c : CoreSt) : (s.setHere c).gates = s.gates := rfl
@[simp] theorem State.setHere_refills (s : State) (c : CoreSt) : (s.setHere c).refills = s.refills := rfl
@[simp] theorem State.setHere_gateMoves (s : State) (c : CoreSt) : (s.setHere c).gateMoves = s.gateMoves := rfl
@[simp] theorem State.setHere_rings (s : State) (c : CoreSt) : (s.setHere c).rings = s.rings := rfl
@[simp] theorem State.setHere_nextToken (s : State) (c : CoreSt) : (s.setHere c).nextToken = s.nextToken := rfl
@[simp] theorem State.setHere_esb (s : State) (c : CoreSt) : (s.setHere c).esb = s.esb := rfl
@[simp] theorem State.setHere_temps (s : State) (c : CoreSt) : (s.setHere c).temps = s.temps := rfl
@[simp] theorem State.setHere_hot (s : State) (c : CoreSt) : (s.setHere c).hot = s.hot := rfl
@[simp] theorem State.setHere_therm (s : State) (c : CoreSt) : (s.setHere c).therm = s.therm := rfl
@[simp] theorem State.setHere_gated (s : State) (c : CoreSt) : (s.setHere c).gated = s.gated := rfl
@[simp] theorem State.setHere_arrivals (s : State) (c : CoreSt) : (s.setHere c).arrivals = s.arrivals := rfl
@[simp] theorem State.setHere_pkgnum (s : State) (c : CoreSt) : (s.setHere c).pkgnum = s.pkgnum := rfl
@[simp] theorem State.setHere_board (s : State) (c : CoreSt) : (s.setHere c).board = s.board := rfl
@[simp] theorem State.setHere_slotA (s : State) (c : CoreSt) : (s.setHere c).slotA = s.slotA := rfl
@[simp] theorem State.setHere_slotB (s : State) (c : CoreSt) : (s.setHere c).slotB = s.slotB := rfl
@[simp] theorem State.setHere_marker0 (s : State) (c : CoreSt) : (s.setHere c).marker0 = s.marker0 := rfl
@[simp] theorem State.setHere_marker1 (s : State) (c : CoreSt) : (s.setHere c).marker1 = s.marker1 := rfl
@[simp] theorem State.setHere_booted (s : State) (c : CoreSt) : (s.setHere c).booted = s.booted := rfl
@[simp] theorem State.setHere_bootImage (s : State) (c : CoreSt) : (s.setHere c).bootImage = s.bootImage := rfl
@[simp] theorem State.setHere_pcie (s : State) (c : CoreSt) : (s.setHere c).pcie = s.pcie := rfl
@[simp] theorem State.setHere_links (s : State) (c : CoreSt) : (s.setHere c).links = s.links := rfl
@[simp] theorem State.setHere_cmdRing (s : State) (c : CoreSt) : (s.setHere c).cmdRing = s.cmdRing := rfl
@[simp] theorem State.setHere_ringPos (s : State) (c : CoreSt) : (s.setHere c).ringPos = s.ringPos := rfl
@[simp] theorem State.setHere_statReads (s : State) (c : CoreSt) : (s.setHere c).statReads = s.statReads := rfl
@[simp] theorem State.setHere_updated (s : State) (c : CoreSt) : (s.setHere c).updated = s.updated := rfl
@[simp] theorem State.setHere_draws (s : State) (c : CoreSt) : (s.setHere c).draws = s.draws := rfl
@[simp] theorem State.setHere_corrected (s : State) (c : CoreSt) : (s.setHere c).corrected = s.corrected := rfl
@[simp] theorem State.setHere_pkgKey (s : State) (c : CoreSt) : (s.setHere c).pkgKey = s.pkgKey := rfl

/-! ### State.modCore -/

@[simp] theorem State.modCore_cycle (s : State) (g : Nat) (f : CoreSt → CoreSt) : (s.modCore g f).cycle = s.cycle := rfl
@[simp] theorem State.modCore_agenda (s : State) (g : Nat) (f : CoreSt → CoreSt) : (s.modCore g f).agenda = s.agenda := rfl
@[simp] theorem State.modCore_core (s : State) (g : Nat) (f : CoreSt → CoreSt) : (s.modCore g f).core = s.core := rfl
@[simp] theorem State.modCore_ctx (s : State) (g : Nat) (f : CoreSt → CoreSt) : (s.modCore g f).ctx = s.ctx := rfl
@[simp] theorem State.modCore_ev (s : State) (g : Nat) (f : CoreSt → CoreSt) : (s.modCore g f).ev = s.ev := rfl
@[simp] theorem State.modCore_freeCnt (s : State) (g : Nat) (f : CoreSt → CoreSt) : (s.modCore g f).freeCnt = s.freeCnt := rfl
@[simp] theorem State.modCore_mem (s : State) (g : Nat) (f : CoreSt → CoreSt) : (s.modCore g f).mem = s.mem := rfl
@[simp] theorem State.modCore_lines (s : State) (g : Nat) (f : CoreSt → CoreSt) : (s.modCore g f).lines = s.lines := rfl
@[simp] theorem State.modCore_owners (s : State) (g : Nat) (f : CoreSt → CoreSt) : (s.modCore g f).owners = s.owners := rfl
@[simp] theorem State.modCore_invals (s : State) (g : Nat) (f : CoreSt → CoreSt) : (s.modCore g f).invals = s.invals := rfl
@[simp] theorem State.modCore_invSeq (s : State) (g : Nat) (f : CoreSt → CoreSt) : (s.modCore g f).invSeq = s.invSeq := rfl
@[simp] theorem State.modCore_l2Acc (s : State) (g : Nat) (f : CoreSt → CoreSt) : (s.modCore g f).l2Acc = s.l2Acc := rfl
@[simp] theorem State.modCore_l2Miss (s : State) (g : Nat) (f : CoreSt → CoreSt) : (s.modCore g f).l2Miss = s.l2Miss := rfl
@[simp] theorem State.modCore_hioQ (s : State) (g : Nat) (f : CoreSt → CoreSt) : (s.modCore g f).hioQ = s.hioQ := rfl
@[simp] theorem State.modCore_hioSeq (s : State) (g : Nat) (f : CoreSt → CoreSt) : (s.modCore g f).hioSeq = s.hioSeq := rfl
@[simp] theorem State.modCore_hioRefused (s : State) (g : Nat) (f : CoreSt → CoreSt) : (s.modCore g f).hioRefused = s.hioRefused := rfl
@[simp] theorem State.modCore_tags (s : State) (g : Nat) (f : CoreSt → CoreSt) : (s.modCore g f).tags = s.tags := rfl
@[simp] theorem State.modCore_scrubs (s : State) (g : Nat) (f : CoreSt → CoreSt) : (s.modCore g f).scrubs = s.scrubs := rfl
@[simp] theorem State.modCore_devQ (s : State) (g : Nat) (f : CoreSt → CoreSt) : (s.modCore g f).devQ = s.devQ := rfl
@[simp] theorem State.modCore_worlds (s : State) (g : Nat) (f : CoreSt → CoreSt) : (s.modCore g f).worlds = s.worlds := rfl
@[simp] theorem State.modCore_peers (s : State) (g : Nat) (f : CoreSt → CoreSt) : (s.modCore g f).peers = s.peers := rfl
@[simp] theorem State.modCore_clusters (s : State) (g : Nat) (f : CoreSt → CoreSt) : (s.modCore g f).clusters = s.clusters := rfl
@[simp] theorem State.modCore_quads (s : State) (g : Nat) (f : CoreSt → CoreSt) : (s.modCore g f).quads = s.quads := rfl
@[simp] theorem State.modCore_hops (s : State) (g : Nat) (f : CoreSt → CoreSt) : (s.modCore g f).hops = s.hops := rfl
@[simp] theorem State.modCore_parts (s : State) (g : Nat) (f : CoreSt → CoreSt) : (s.modCore g f).parts = s.parts := rfl
@[simp] theorem State.modCore_probes (s : State) (g : Nat) (f : CoreSt → CoreSt) : (s.modCore g f).probes = s.probes := rfl
@[simp] theorem State.modCore_gates (s : State) (g : Nat) (f : CoreSt → CoreSt) : (s.modCore g f).gates = s.gates := rfl
@[simp] theorem State.modCore_refills (s : State) (g : Nat) (f : CoreSt → CoreSt) : (s.modCore g f).refills = s.refills := rfl
@[simp] theorem State.modCore_gateMoves (s : State) (g : Nat) (f : CoreSt → CoreSt) : (s.modCore g f).gateMoves = s.gateMoves := rfl
@[simp] theorem State.modCore_rings (s : State) (g : Nat) (f : CoreSt → CoreSt) : (s.modCore g f).rings = s.rings := rfl
@[simp] theorem State.modCore_nextToken (s : State) (g : Nat) (f : CoreSt → CoreSt) : (s.modCore g f).nextToken = s.nextToken := rfl
@[simp] theorem State.modCore_esb (s : State) (g : Nat) (f : CoreSt → CoreSt) : (s.modCore g f).esb = s.esb := rfl
@[simp] theorem State.modCore_temps (s : State) (g : Nat) (f : CoreSt → CoreSt) : (s.modCore g f).temps = s.temps := rfl
@[simp] theorem State.modCore_hot (s : State) (g : Nat) (f : CoreSt → CoreSt) : (s.modCore g f).hot = s.hot := rfl
@[simp] theorem State.modCore_therm (s : State) (g : Nat) (f : CoreSt → CoreSt) : (s.modCore g f).therm = s.therm := rfl
@[simp] theorem State.modCore_gated (s : State) (g : Nat) (f : CoreSt → CoreSt) : (s.modCore g f).gated = s.gated := rfl
@[simp] theorem State.modCore_arrivals (s : State) (g : Nat) (f : CoreSt → CoreSt) : (s.modCore g f).arrivals = s.arrivals := rfl
@[simp] theorem State.modCore_pkgnum (s : State) (g : Nat) (f : CoreSt → CoreSt) : (s.modCore g f).pkgnum = s.pkgnum := rfl
@[simp] theorem State.modCore_board (s : State) (g : Nat) (f : CoreSt → CoreSt) : (s.modCore g f).board = s.board := rfl
@[simp] theorem State.modCore_slotA (s : State) (g : Nat) (f : CoreSt → CoreSt) : (s.modCore g f).slotA = s.slotA := rfl
@[simp] theorem State.modCore_slotB (s : State) (g : Nat) (f : CoreSt → CoreSt) : (s.modCore g f).slotB = s.slotB := rfl
@[simp] theorem State.modCore_marker0 (s : State) (g : Nat) (f : CoreSt → CoreSt) : (s.modCore g f).marker0 = s.marker0 := rfl
@[simp] theorem State.modCore_marker1 (s : State) (g : Nat) (f : CoreSt → CoreSt) : (s.modCore g f).marker1 = s.marker1 := rfl
@[simp] theorem State.modCore_booted (s : State) (g : Nat) (f : CoreSt → CoreSt) : (s.modCore g f).booted = s.booted := rfl
@[simp] theorem State.modCore_bootImage (s : State) (g : Nat) (f : CoreSt → CoreSt) : (s.modCore g f).bootImage = s.bootImage := rfl
@[simp] theorem State.modCore_pcie (s : State) (g : Nat) (f : CoreSt → CoreSt) : (s.modCore g f).pcie = s.pcie := rfl
@[simp] theorem State.modCore_links (s : State) (g : Nat) (f : CoreSt → CoreSt) : (s.modCore g f).links = s.links := rfl
@[simp] theorem State.modCore_cmdRing (s : State) (g : Nat) (f : CoreSt → CoreSt) : (s.modCore g f).cmdRing = s.cmdRing := rfl
@[simp] theorem State.modCore_ringPos (s : State) (g : Nat) (f : CoreSt → CoreSt) : (s.modCore g f).ringPos = s.ringPos := rfl
@[simp] theorem State.modCore_statReads (s : State) (g : Nat) (f : CoreSt → CoreSt) : (s.modCore g f).statReads = s.statReads := rfl
@[simp] theorem State.modCore_updated (s : State) (g : Nat) (f : CoreSt → CoreSt) : (s.modCore g f).updated = s.updated := rfl
@[simp] theorem State.modCore_draws (s : State) (g : Nat) (f : CoreSt → CoreSt) : (s.modCore g f).draws = s.draws := rfl
@[simp] theorem State.modCore_corrected (s : State) (g : Nat) (f : CoreSt → CoreSt) : (s.modCore g f).corrected = s.corrected := rfl
@[simp] theorem State.modCore_pkgKey (s : State) (g : Nat) (f : CoreSt → CoreSt) : (s.modCore g f).pkgKey = s.pkgKey := rfl

/-! ### State.modCtx -/

@[simp] theorem State.modCtx_cycle (s : State) (g : Nat) (x : Fin 16) (f : Ctx → Ctx) : (s.modCtx g x f).cycle = s.cycle := rfl
@[simp] theorem State.modCtx_agenda (s : State) (g : Nat) (x : Fin 16) (f : Ctx → Ctx) : (s.modCtx g x f).agenda = s.agenda := rfl
@[simp] theorem State.modCtx_core (s : State) (g : Nat) (x : Fin 16) (f : Ctx → Ctx) : (s.modCtx g x f).core = s.core := rfl
@[simp] theorem State.modCtx_ctx (s : State) (g : Nat) (x : Fin 16) (f : Ctx → Ctx) : (s.modCtx g x f).ctx = s.ctx := rfl
@[simp] theorem State.modCtx_ev (s : State) (g : Nat) (x : Fin 16) (f : Ctx → Ctx) : (s.modCtx g x f).ev = s.ev := rfl
@[simp] theorem State.modCtx_freeCnt (s : State) (g : Nat) (x : Fin 16) (f : Ctx → Ctx) : (s.modCtx g x f).freeCnt = s.freeCnt := rfl
@[simp] theorem State.modCtx_mem (s : State) (g : Nat) (x : Fin 16) (f : Ctx → Ctx) : (s.modCtx g x f).mem = s.mem := rfl
@[simp] theorem State.modCtx_lines (s : State) (g : Nat) (x : Fin 16) (f : Ctx → Ctx) : (s.modCtx g x f).lines = s.lines := rfl
@[simp] theorem State.modCtx_owners (s : State) (g : Nat) (x : Fin 16) (f : Ctx → Ctx) : (s.modCtx g x f).owners = s.owners := rfl
@[simp] theorem State.modCtx_invals (s : State) (g : Nat) (x : Fin 16) (f : Ctx → Ctx) : (s.modCtx g x f).invals = s.invals := rfl
@[simp] theorem State.modCtx_invSeq (s : State) (g : Nat) (x : Fin 16) (f : Ctx → Ctx) : (s.modCtx g x f).invSeq = s.invSeq := rfl
@[simp] theorem State.modCtx_l2Acc (s : State) (g : Nat) (x : Fin 16) (f : Ctx → Ctx) : (s.modCtx g x f).l2Acc = s.l2Acc := rfl
@[simp] theorem State.modCtx_l2Miss (s : State) (g : Nat) (x : Fin 16) (f : Ctx → Ctx) : (s.modCtx g x f).l2Miss = s.l2Miss := rfl
@[simp] theorem State.modCtx_hioQ (s : State) (g : Nat) (x : Fin 16) (f : Ctx → Ctx) : (s.modCtx g x f).hioQ = s.hioQ := rfl
@[simp] theorem State.modCtx_hioSeq (s : State) (g : Nat) (x : Fin 16) (f : Ctx → Ctx) : (s.modCtx g x f).hioSeq = s.hioSeq := rfl
@[simp] theorem State.modCtx_hioRefused (s : State) (g : Nat) (x : Fin 16) (f : Ctx → Ctx) : (s.modCtx g x f).hioRefused = s.hioRefused := rfl
@[simp] theorem State.modCtx_tags (s : State) (g : Nat) (x : Fin 16) (f : Ctx → Ctx) : (s.modCtx g x f).tags = s.tags := rfl
@[simp] theorem State.modCtx_scrubs (s : State) (g : Nat) (x : Fin 16) (f : Ctx → Ctx) : (s.modCtx g x f).scrubs = s.scrubs := rfl
@[simp] theorem State.modCtx_devQ (s : State) (g : Nat) (x : Fin 16) (f : Ctx → Ctx) : (s.modCtx g x f).devQ = s.devQ := rfl
@[simp] theorem State.modCtx_worlds (s : State) (g : Nat) (x : Fin 16) (f : Ctx → Ctx) : (s.modCtx g x f).worlds = s.worlds := rfl
@[simp] theorem State.modCtx_peers (s : State) (g : Nat) (x : Fin 16) (f : Ctx → Ctx) : (s.modCtx g x f).peers = s.peers := rfl
@[simp] theorem State.modCtx_clusters (s : State) (g : Nat) (x : Fin 16) (f : Ctx → Ctx) : (s.modCtx g x f).clusters = s.clusters := rfl
@[simp] theorem State.modCtx_quads (s : State) (g : Nat) (x : Fin 16) (f : Ctx → Ctx) : (s.modCtx g x f).quads = s.quads := rfl
@[simp] theorem State.modCtx_hops (s : State) (g : Nat) (x : Fin 16) (f : Ctx → Ctx) : (s.modCtx g x f).hops = s.hops := rfl
@[simp] theorem State.modCtx_parts (s : State) (g : Nat) (x : Fin 16) (f : Ctx → Ctx) : (s.modCtx g x f).parts = s.parts := rfl
@[simp] theorem State.modCtx_probes (s : State) (g : Nat) (x : Fin 16) (f : Ctx → Ctx) : (s.modCtx g x f).probes = s.probes := rfl
@[simp] theorem State.modCtx_gates (s : State) (g : Nat) (x : Fin 16) (f : Ctx → Ctx) : (s.modCtx g x f).gates = s.gates := rfl
@[simp] theorem State.modCtx_refills (s : State) (g : Nat) (x : Fin 16) (f : Ctx → Ctx) : (s.modCtx g x f).refills = s.refills := rfl
@[simp] theorem State.modCtx_gateMoves (s : State) (g : Nat) (x : Fin 16) (f : Ctx → Ctx) : (s.modCtx g x f).gateMoves = s.gateMoves := rfl
@[simp] theorem State.modCtx_rings (s : State) (g : Nat) (x : Fin 16) (f : Ctx → Ctx) : (s.modCtx g x f).rings = s.rings := rfl
@[simp] theorem State.modCtx_nextToken (s : State) (g : Nat) (x : Fin 16) (f : Ctx → Ctx) : (s.modCtx g x f).nextToken = s.nextToken := rfl
@[simp] theorem State.modCtx_esb (s : State) (g : Nat) (x : Fin 16) (f : Ctx → Ctx) : (s.modCtx g x f).esb = s.esb := rfl
@[simp] theorem State.modCtx_temps (s : State) (g : Nat) (x : Fin 16) (f : Ctx → Ctx) : (s.modCtx g x f).temps = s.temps := rfl
@[simp] theorem State.modCtx_hot (s : State) (g : Nat) (x : Fin 16) (f : Ctx → Ctx) : (s.modCtx g x f).hot = s.hot := rfl
@[simp] theorem State.modCtx_therm (s : State) (g : Nat) (x : Fin 16) (f : Ctx → Ctx) : (s.modCtx g x f).therm = s.therm := rfl
@[simp] theorem State.modCtx_gated (s : State) (g : Nat) (x : Fin 16) (f : Ctx → Ctx) : (s.modCtx g x f).gated = s.gated := rfl
@[simp] theorem State.modCtx_arrivals (s : State) (g : Nat) (x : Fin 16) (f : Ctx → Ctx) : (s.modCtx g x f).arrivals = s.arrivals := rfl
@[simp] theorem State.modCtx_pkgnum (s : State) (g : Nat) (x : Fin 16) (f : Ctx → Ctx) : (s.modCtx g x f).pkgnum = s.pkgnum := rfl
@[simp] theorem State.modCtx_board (s : State) (g : Nat) (x : Fin 16) (f : Ctx → Ctx) : (s.modCtx g x f).board = s.board := rfl
@[simp] theorem State.modCtx_slotA (s : State) (g : Nat) (x : Fin 16) (f : Ctx → Ctx) : (s.modCtx g x f).slotA = s.slotA := rfl
@[simp] theorem State.modCtx_slotB (s : State) (g : Nat) (x : Fin 16) (f : Ctx → Ctx) : (s.modCtx g x f).slotB = s.slotB := rfl
@[simp] theorem State.modCtx_marker0 (s : State) (g : Nat) (x : Fin 16) (f : Ctx → Ctx) : (s.modCtx g x f).marker0 = s.marker0 := rfl
@[simp] theorem State.modCtx_marker1 (s : State) (g : Nat) (x : Fin 16) (f : Ctx → Ctx) : (s.modCtx g x f).marker1 = s.marker1 := rfl
@[simp] theorem State.modCtx_booted (s : State) (g : Nat) (x : Fin 16) (f : Ctx → Ctx) : (s.modCtx g x f).booted = s.booted := rfl
@[simp] theorem State.modCtx_bootImage (s : State) (g : Nat) (x : Fin 16) (f : Ctx → Ctx) : (s.modCtx g x f).bootImage = s.bootImage := rfl
@[simp] theorem State.modCtx_pcie (s : State) (g : Nat) (x : Fin 16) (f : Ctx → Ctx) : (s.modCtx g x f).pcie = s.pcie := rfl
@[simp] theorem State.modCtx_links (s : State) (g : Nat) (x : Fin 16) (f : Ctx → Ctx) : (s.modCtx g x f).links = s.links := rfl
@[simp] theorem State.modCtx_cmdRing (s : State) (g : Nat) (x : Fin 16) (f : Ctx → Ctx) : (s.modCtx g x f).cmdRing = s.cmdRing := rfl
@[simp] theorem State.modCtx_ringPos (s : State) (g : Nat) (x : Fin 16) (f : Ctx → Ctx) : (s.modCtx g x f).ringPos = s.ringPos := rfl
@[simp] theorem State.modCtx_statReads (s : State) (g : Nat) (x : Fin 16) (f : Ctx → Ctx) : (s.modCtx g x f).statReads = s.statReads := rfl
@[simp] theorem State.modCtx_updated (s : State) (g : Nat) (x : Fin 16) (f : Ctx → Ctx) : (s.modCtx g x f).updated = s.updated := rfl
@[simp] theorem State.modCtx_draws (s : State) (g : Nat) (x : Fin 16) (f : Ctx → Ctx) : (s.modCtx g x f).draws = s.draws := rfl
@[simp] theorem State.modCtx_corrected (s : State) (g : Nat) (x : Fin 16) (f : Ctx → Ctx) : (s.modCtx g x f).corrected = s.corrected := rfl
@[simp] theorem State.modCtx_pkgKey (s : State) (g : Nat) (x : Fin 16) (f : Ctx → Ctx) : (s.modCtx g x f).pkgKey = s.pkgKey := rfl

/-! ### State.modCur -/

@[simp] theorem State.modCur_cycle (s : State) (f : Ctx → Ctx) : (s.modCur f).cycle = s.cycle := rfl
@[simp] theorem State.modCur_agenda (s : State) (f : Ctx → Ctx) : (s.modCur f).agenda = s.agenda := rfl
@[simp] theorem State.modCur_core (s : State) (f : Ctx → Ctx) : (s.modCur f).core = s.core := rfl
@[simp] theorem State.modCur_ctx (s : State) (f : Ctx → Ctx) : (s.modCur f).ctx = s.ctx := rfl
@[simp] theorem State.modCur_ev (s : State) (f : Ctx → Ctx) : (s.modCur f).ev = s.ev := rfl
@[simp] theorem State.modCur_freeCnt (s : State) (f : Ctx → Ctx) : (s.modCur f).freeCnt = s.freeCnt := rfl
@[simp] theorem State.modCur_mem (s : State) (f : Ctx → Ctx) : (s.modCur f).mem = s.mem := rfl
@[simp] theorem State.modCur_lines (s : State) (f : Ctx → Ctx) : (s.modCur f).lines = s.lines := rfl
@[simp] theorem State.modCur_owners (s : State) (f : Ctx → Ctx) : (s.modCur f).owners = s.owners := rfl
@[simp] theorem State.modCur_invals (s : State) (f : Ctx → Ctx) : (s.modCur f).invals = s.invals := rfl
@[simp] theorem State.modCur_invSeq (s : State) (f : Ctx → Ctx) : (s.modCur f).invSeq = s.invSeq := rfl
@[simp] theorem State.modCur_l2Acc (s : State) (f : Ctx → Ctx) : (s.modCur f).l2Acc = s.l2Acc := rfl
@[simp] theorem State.modCur_l2Miss (s : State) (f : Ctx → Ctx) : (s.modCur f).l2Miss = s.l2Miss := rfl
@[simp] theorem State.modCur_hioQ (s : State) (f : Ctx → Ctx) : (s.modCur f).hioQ = s.hioQ := rfl
@[simp] theorem State.modCur_hioSeq (s : State) (f : Ctx → Ctx) : (s.modCur f).hioSeq = s.hioSeq := rfl
@[simp] theorem State.modCur_hioRefused (s : State) (f : Ctx → Ctx) : (s.modCur f).hioRefused = s.hioRefused := rfl
@[simp] theorem State.modCur_tags (s : State) (f : Ctx → Ctx) : (s.modCur f).tags = s.tags := rfl
@[simp] theorem State.modCur_scrubs (s : State) (f : Ctx → Ctx) : (s.modCur f).scrubs = s.scrubs := rfl
@[simp] theorem State.modCur_devQ (s : State) (f : Ctx → Ctx) : (s.modCur f).devQ = s.devQ := rfl
@[simp] theorem State.modCur_worlds (s : State) (f : Ctx → Ctx) : (s.modCur f).worlds = s.worlds := rfl
@[simp] theorem State.modCur_peers (s : State) (f : Ctx → Ctx) : (s.modCur f).peers = s.peers := rfl
@[simp] theorem State.modCur_clusters (s : State) (f : Ctx → Ctx) : (s.modCur f).clusters = s.clusters := rfl
@[simp] theorem State.modCur_quads (s : State) (f : Ctx → Ctx) : (s.modCur f).quads = s.quads := rfl
@[simp] theorem State.modCur_hops (s : State) (f : Ctx → Ctx) : (s.modCur f).hops = s.hops := rfl
@[simp] theorem State.modCur_parts (s : State) (f : Ctx → Ctx) : (s.modCur f).parts = s.parts := rfl
@[simp] theorem State.modCur_probes (s : State) (f : Ctx → Ctx) : (s.modCur f).probes = s.probes := rfl
@[simp] theorem State.modCur_gates (s : State) (f : Ctx → Ctx) : (s.modCur f).gates = s.gates := rfl
@[simp] theorem State.modCur_refills (s : State) (f : Ctx → Ctx) : (s.modCur f).refills = s.refills := rfl
@[simp] theorem State.modCur_gateMoves (s : State) (f : Ctx → Ctx) : (s.modCur f).gateMoves = s.gateMoves := rfl
@[simp] theorem State.modCur_rings (s : State) (f : Ctx → Ctx) : (s.modCur f).rings = s.rings := rfl
@[simp] theorem State.modCur_nextToken (s : State) (f : Ctx → Ctx) : (s.modCur f).nextToken = s.nextToken := rfl
@[simp] theorem State.modCur_esb (s : State) (f : Ctx → Ctx) : (s.modCur f).esb = s.esb := rfl
@[simp] theorem State.modCur_temps (s : State) (f : Ctx → Ctx) : (s.modCur f).temps = s.temps := rfl
@[simp] theorem State.modCur_hot (s : State) (f : Ctx → Ctx) : (s.modCur f).hot = s.hot := rfl
@[simp] theorem State.modCur_therm (s : State) (f : Ctx → Ctx) : (s.modCur f).therm = s.therm := rfl
@[simp] theorem State.modCur_gated (s : State) (f : Ctx → Ctx) : (s.modCur f).gated = s.gated := rfl
@[simp] theorem State.modCur_arrivals (s : State) (f : Ctx → Ctx) : (s.modCur f).arrivals = s.arrivals := rfl
@[simp] theorem State.modCur_pkgnum (s : State) (f : Ctx → Ctx) : (s.modCur f).pkgnum = s.pkgnum := rfl
@[simp] theorem State.modCur_board (s : State) (f : Ctx → Ctx) : (s.modCur f).board = s.board := rfl
@[simp] theorem State.modCur_slotA (s : State) (f : Ctx → Ctx) : (s.modCur f).slotA = s.slotA := rfl
@[simp] theorem State.modCur_slotB (s : State) (f : Ctx → Ctx) : (s.modCur f).slotB = s.slotB := rfl
@[simp] theorem State.modCur_marker0 (s : State) (f : Ctx → Ctx) : (s.modCur f).marker0 = s.marker0 := rfl
@[simp] theorem State.modCur_marker1 (s : State) (f : Ctx → Ctx) : (s.modCur f).marker1 = s.marker1 := rfl
@[simp] theorem State.modCur_booted (s : State) (f : Ctx → Ctx) : (s.modCur f).booted = s.booted := rfl
@[simp] theorem State.modCur_bootImage (s : State) (f : Ctx → Ctx) : (s.modCur f).bootImage = s.bootImage := rfl
@[simp] theorem State.modCur_pcie (s : State) (f : Ctx → Ctx) : (s.modCur f).pcie = s.pcie := rfl
@[simp] theorem State.modCur_links (s : State) (f : Ctx → Ctx) : (s.modCur f).links = s.links := rfl
@[simp] theorem State.modCur_cmdRing (s : State) (f : Ctx → Ctx) : (s.modCur f).cmdRing = s.cmdRing := rfl
@[simp] theorem State.modCur_ringPos (s : State) (f : Ctx → Ctx) : (s.modCur f).ringPos = s.ringPos := rfl
@[simp] theorem State.modCur_statReads (s : State) (f : Ctx → Ctx) : (s.modCur f).statReads = s.statReads := rfl
@[simp] theorem State.modCur_updated (s : State) (f : Ctx → Ctx) : (s.modCur f).updated = s.updated := rfl
@[simp] theorem State.modCur_draws (s : State) (f : Ctx → Ctx) : (s.modCur f).draws = s.draws := rfl
@[simp] theorem State.modCur_corrected (s : State) (f : Ctx → Ctx) : (s.modCur f).corrected = s.corrected := rfl
@[simp] theorem State.modCur_pkgKey (s : State) (f : Ctx → Ctx) : (s.modCur f).pkgKey = s.pkgKey := rfl

/-! ### State.modHere -/

@[simp] theorem State.modHere_cycle (s : State) (f : CoreSt → CoreSt) : (s.modHere f).cycle = s.cycle := rfl
@[simp] theorem State.modHere_agenda (s : State) (f : CoreSt → CoreSt) : (s.modHere f).agenda = s.agenda := rfl
@[simp] theorem State.modHere_core (s : State) (f : CoreSt → CoreSt) : (s.modHere f).core = s.core := rfl
@[simp] theorem State.modHere_ctx (s : State) (f : CoreSt → CoreSt) : (s.modHere f).ctx = s.ctx := rfl
@[simp] theorem State.modHere_ev (s : State) (f : CoreSt → CoreSt) : (s.modHere f).ev = s.ev := rfl
@[simp] theorem State.modHere_freeCnt (s : State) (f : CoreSt → CoreSt) : (s.modHere f).freeCnt = s.freeCnt := rfl
@[simp] theorem State.modHere_mem (s : State) (f : CoreSt → CoreSt) : (s.modHere f).mem = s.mem := rfl
@[simp] theorem State.modHere_lines (s : State) (f : CoreSt → CoreSt) : (s.modHere f).lines = s.lines := rfl
@[simp] theorem State.modHere_owners (s : State) (f : CoreSt → CoreSt) : (s.modHere f).owners = s.owners := rfl
@[simp] theorem State.modHere_invals (s : State) (f : CoreSt → CoreSt) : (s.modHere f).invals = s.invals := rfl
@[simp] theorem State.modHere_invSeq (s : State) (f : CoreSt → CoreSt) : (s.modHere f).invSeq = s.invSeq := rfl
@[simp] theorem State.modHere_l2Acc (s : State) (f : CoreSt → CoreSt) : (s.modHere f).l2Acc = s.l2Acc := rfl
@[simp] theorem State.modHere_l2Miss (s : State) (f : CoreSt → CoreSt) : (s.modHere f).l2Miss = s.l2Miss := rfl
@[simp] theorem State.modHere_hioQ (s : State) (f : CoreSt → CoreSt) : (s.modHere f).hioQ = s.hioQ := rfl
@[simp] theorem State.modHere_hioSeq (s : State) (f : CoreSt → CoreSt) : (s.modHere f).hioSeq = s.hioSeq := rfl
@[simp] theorem State.modHere_hioRefused (s : State) (f : CoreSt → CoreSt) : (s.modHere f).hioRefused = s.hioRefused := rfl
@[simp] theorem State.modHere_tags (s : State) (f : CoreSt → CoreSt) : (s.modHere f).tags = s.tags := rfl
@[simp] theorem State.modHere_scrubs (s : State) (f : CoreSt → CoreSt) : (s.modHere f).scrubs = s.scrubs := rfl
@[simp] theorem State.modHere_devQ (s : State) (f : CoreSt → CoreSt) : (s.modHere f).devQ = s.devQ := rfl
@[simp] theorem State.modHere_worlds (s : State) (f : CoreSt → CoreSt) : (s.modHere f).worlds = s.worlds := rfl
@[simp] theorem State.modHere_peers (s : State) (f : CoreSt → CoreSt) : (s.modHere f).peers = s.peers := rfl
@[simp] theorem State.modHere_clusters (s : State) (f : CoreSt → CoreSt) : (s.modHere f).clusters = s.clusters := rfl
@[simp] theorem State.modHere_quads (s : State) (f : CoreSt → CoreSt) : (s.modHere f).quads = s.quads := rfl
@[simp] theorem State.modHere_hops (s : State) (f : CoreSt → CoreSt) : (s.modHere f).hops = s.hops := rfl
@[simp] theorem State.modHere_parts (s : State) (f : CoreSt → CoreSt) : (s.modHere f).parts = s.parts := rfl
@[simp] theorem State.modHere_probes (s : State) (f : CoreSt → CoreSt) : (s.modHere f).probes = s.probes := rfl
@[simp] theorem State.modHere_gates (s : State) (f : CoreSt → CoreSt) : (s.modHere f).gates = s.gates := rfl
@[simp] theorem State.modHere_refills (s : State) (f : CoreSt → CoreSt) : (s.modHere f).refills = s.refills := rfl
@[simp] theorem State.modHere_gateMoves (s : State) (f : CoreSt → CoreSt) : (s.modHere f).gateMoves = s.gateMoves := rfl
@[simp] theorem State.modHere_rings (s : State) (f : CoreSt → CoreSt) : (s.modHere f).rings = s.rings := rfl
@[simp] theorem State.modHere_nextToken (s : State) (f : CoreSt → CoreSt) : (s.modHere f).nextToken = s.nextToken := rfl
@[simp] theorem State.modHere_esb (s : State) (f : CoreSt → CoreSt) : (s.modHere f).esb = s.esb := rfl
@[simp] theorem State.modHere_temps (s : State) (f : CoreSt → CoreSt) : (s.modHere f).temps = s.temps := rfl
@[simp] theorem State.modHere_hot (s : State) (f : CoreSt → CoreSt) : (s.modHere f).hot = s.hot := rfl
@[simp] theorem State.modHere_therm (s : State) (f : CoreSt → CoreSt) : (s.modHere f).therm = s.therm := rfl
@[simp] theorem State.modHere_gated (s : State) (f : CoreSt → CoreSt) : (s.modHere f).gated = s.gated := rfl
@[simp] theorem State.modHere_arrivals (s : State) (f : CoreSt → CoreSt) : (s.modHere f).arrivals = s.arrivals := rfl
@[simp] theorem State.modHere_pkgnum (s : State) (f : CoreSt → CoreSt) : (s.modHere f).pkgnum = s.pkgnum := rfl
@[simp] theorem State.modHere_board (s : State) (f : CoreSt → CoreSt) : (s.modHere f).board = s.board := rfl
@[simp] theorem State.modHere_slotA (s : State) (f : CoreSt → CoreSt) : (s.modHere f).slotA = s.slotA := rfl
@[simp] theorem State.modHere_slotB (s : State) (f : CoreSt → CoreSt) : (s.modHere f).slotB = s.slotB := rfl
@[simp] theorem State.modHere_marker0 (s : State) (f : CoreSt → CoreSt) : (s.modHere f).marker0 = s.marker0 := rfl
@[simp] theorem State.modHere_marker1 (s : State) (f : CoreSt → CoreSt) : (s.modHere f).marker1 = s.marker1 := rfl
@[simp] theorem State.modHere_booted (s : State) (f : CoreSt → CoreSt) : (s.modHere f).booted = s.booted := rfl
@[simp] theorem State.modHere_bootImage (s : State) (f : CoreSt → CoreSt) : (s.modHere f).bootImage = s.bootImage := rfl
@[simp] theorem State.modHere_pcie (s : State) (f : CoreSt → CoreSt) : (s.modHere f).pcie = s.pcie := rfl
@[simp] theorem State.modHere_links (s : State) (f : CoreSt → CoreSt) : (s.modHere f).links = s.links := rfl
@[simp] theorem State.modHere_cmdRing (s : State) (f : CoreSt → CoreSt) : (s.modHere f).cmdRing = s.cmdRing := rfl
@[simp] theorem State.modHere_ringPos (s : State) (f : CoreSt → CoreSt) : (s.modHere f).ringPos = s.ringPos := rfl
@[simp] theorem State.modHere_statReads (s : State) (f : CoreSt → CoreSt) : (s.modHere f).statReads = s.statReads := rfl
@[simp] theorem State.modHere_updated (s : State) (f : CoreSt → CoreSt) : (s.modHere f).updated = s.updated := rfl
@[simp] theorem State.modHere_draws (s : State) (f : CoreSt → CoreSt) : (s.modHere f).draws = s.draws := rfl
@[simp] theorem State.modHere_corrected (s : State) (f : CoreSt → CoreSt) : (s.modHere f).corrected = s.corrected := rfl
@[simp] theorem State.modHere_pkgKey (s : State) (f : CoreSt → CoreSt) : (s.modHere f).pkgKey = s.pkgKey := rfl

/-! ### State.advance -/

@[simp] theorem State.advance_cycle (s : State) (n : Nat) : (s.advance n).cycle = s.cycle := rfl
@[simp] theorem State.advance_agenda (s : State) (n : Nat) : (s.advance n).agenda = s.agenda := rfl
@[simp] theorem State.advance_core (s : State) (n : Nat) : (s.advance n).core = s.core := rfl
@[simp] theorem State.advance_ctx (s : State) (n : Nat) : (s.advance n).ctx = s.ctx := rfl
@[simp] theorem State.advance_ev (s : State) (n : Nat) : (s.advance n).ev = s.ev := rfl
@[simp] theorem State.advance_freeCnt (s : State) (n : Nat) : (s.advance n).freeCnt = s.freeCnt := rfl
@[simp] theorem State.advance_mem (s : State) (n : Nat) : (s.advance n).mem = s.mem := rfl
@[simp] theorem State.advance_lines (s : State) (n : Nat) : (s.advance n).lines = s.lines := rfl
@[simp] theorem State.advance_owners (s : State) (n : Nat) : (s.advance n).owners = s.owners := rfl
@[simp] theorem State.advance_invals (s : State) (n : Nat) : (s.advance n).invals = s.invals := rfl
@[simp] theorem State.advance_invSeq (s : State) (n : Nat) : (s.advance n).invSeq = s.invSeq := rfl
@[simp] theorem State.advance_l2Acc (s : State) (n : Nat) : (s.advance n).l2Acc = s.l2Acc := rfl
@[simp] theorem State.advance_l2Miss (s : State) (n : Nat) : (s.advance n).l2Miss = s.l2Miss := rfl
@[simp] theorem State.advance_hioQ (s : State) (n : Nat) : (s.advance n).hioQ = s.hioQ := rfl
@[simp] theorem State.advance_hioSeq (s : State) (n : Nat) : (s.advance n).hioSeq = s.hioSeq := rfl
@[simp] theorem State.advance_hioRefused (s : State) (n : Nat) : (s.advance n).hioRefused = s.hioRefused := rfl
@[simp] theorem State.advance_tags (s : State) (n : Nat) : (s.advance n).tags = s.tags := rfl
@[simp] theorem State.advance_scrubs (s : State) (n : Nat) : (s.advance n).scrubs = s.scrubs := rfl
@[simp] theorem State.advance_devQ (s : State) (n : Nat) : (s.advance n).devQ = s.devQ := rfl
@[simp] theorem State.advance_worlds (s : State) (n : Nat) : (s.advance n).worlds = s.worlds := rfl
@[simp] theorem State.advance_peers (s : State) (n : Nat) : (s.advance n).peers = s.peers := rfl
@[simp] theorem State.advance_clusters (s : State) (n : Nat) : (s.advance n).clusters = s.clusters := rfl
@[simp] theorem State.advance_quads (s : State) (n : Nat) : (s.advance n).quads = s.quads := rfl
@[simp] theorem State.advance_hops (s : State) (n : Nat) : (s.advance n).hops = s.hops := rfl
@[simp] theorem State.advance_parts (s : State) (n : Nat) : (s.advance n).parts = s.parts := rfl
@[simp] theorem State.advance_probes (s : State) (n : Nat) : (s.advance n).probes = s.probes := rfl
@[simp] theorem State.advance_gates (s : State) (n : Nat) : (s.advance n).gates = s.gates := rfl
@[simp] theorem State.advance_refills (s : State) (n : Nat) : (s.advance n).refills = s.refills := rfl
@[simp] theorem State.advance_gateMoves (s : State) (n : Nat) : (s.advance n).gateMoves = s.gateMoves := rfl
@[simp] theorem State.advance_rings (s : State) (n : Nat) : (s.advance n).rings = s.rings := rfl
@[simp] theorem State.advance_nextToken (s : State) (n : Nat) : (s.advance n).nextToken = s.nextToken := rfl
@[simp] theorem State.advance_esb (s : State) (n : Nat) : (s.advance n).esb = s.esb := rfl
@[simp] theorem State.advance_temps (s : State) (n : Nat) : (s.advance n).temps = s.temps := rfl
@[simp] theorem State.advance_hot (s : State) (n : Nat) : (s.advance n).hot = s.hot := rfl
@[simp] theorem State.advance_therm (s : State) (n : Nat) : (s.advance n).therm = s.therm := rfl
@[simp] theorem State.advance_gated (s : State) (n : Nat) : (s.advance n).gated = s.gated := rfl
@[simp] theorem State.advance_arrivals (s : State) (n : Nat) : (s.advance n).arrivals = s.arrivals := rfl
@[simp] theorem State.advance_pkgnum (s : State) (n : Nat) : (s.advance n).pkgnum = s.pkgnum := rfl
@[simp] theorem State.advance_board (s : State) (n : Nat) : (s.advance n).board = s.board := rfl
@[simp] theorem State.advance_slotA (s : State) (n : Nat) : (s.advance n).slotA = s.slotA := rfl
@[simp] theorem State.advance_slotB (s : State) (n : Nat) : (s.advance n).slotB = s.slotB := rfl
@[simp] theorem State.advance_marker0 (s : State) (n : Nat) : (s.advance n).marker0 = s.marker0 := rfl
@[simp] theorem State.advance_marker1 (s : State) (n : Nat) : (s.advance n).marker1 = s.marker1 := rfl
@[simp] theorem State.advance_booted (s : State) (n : Nat) : (s.advance n).booted = s.booted := rfl
@[simp] theorem State.advance_bootImage (s : State) (n : Nat) : (s.advance n).bootImage = s.bootImage := rfl
@[simp] theorem State.advance_pcie (s : State) (n : Nat) : (s.advance n).pcie = s.pcie := rfl
@[simp] theorem State.advance_links (s : State) (n : Nat) : (s.advance n).links = s.links := rfl
@[simp] theorem State.advance_cmdRing (s : State) (n : Nat) : (s.advance n).cmdRing = s.cmdRing := rfl
@[simp] theorem State.advance_ringPos (s : State) (n : Nat) : (s.advance n).ringPos = s.ringPos := rfl
@[simp] theorem State.advance_statReads (s : State) (n : Nat) : (s.advance n).statReads = s.statReads := rfl
@[simp] theorem State.advance_updated (s : State) (n : Nat) : (s.advance n).updated = s.updated := rfl
@[simp] theorem State.advance_draws (s : State) (n : Nat) : (s.advance n).draws = s.draws := rfl
@[simp] theorem State.advance_corrected (s : State) (n : Nat) : (s.advance n).corrected = s.corrected := rfl
@[simp] theorem State.advance_pkgKey (s : State) (n : Nat) : (s.advance n).pkgKey = s.pkgKey := rfl

/-! ### State.focus -/

@[simp] theorem State.focus_cycle (s : State) (g : Nat) (x : Fin 16) : (s.focus g x).cycle = s.cycle := rfl
@[simp] theorem State.focus_agenda (s : State) (g : Nat) (x : Fin 16) : (s.focus g x).agenda = s.agenda := rfl
@[simp] theorem State.focus_core (s : State) (g : Nat) (x : Fin 16) : (s.focus g x).core = g := rfl
@[simp] theorem State.focus_ctx (s : State) (g : Nat) (x : Fin 16) : (s.focus g x).ctx = x := rfl
@[simp] theorem State.focus_ev (s : State) (g : Nat) (x : Fin 16) : (s.focus g x).ev = s.ev := rfl
@[simp] theorem State.focus_freeCnt (s : State) (g : Nat) (x : Fin 16) : (s.focus g x).freeCnt = s.freeCnt := rfl
@[simp] theorem State.focus_mem (s : State) (g : Nat) (x : Fin 16) : (s.focus g x).mem = s.mem := rfl
@[simp] theorem State.focus_lines (s : State) (g : Nat) (x : Fin 16) : (s.focus g x).lines = s.lines := rfl
@[simp] theorem State.focus_owners (s : State) (g : Nat) (x : Fin 16) : (s.focus g x).owners = s.owners := rfl
@[simp] theorem State.focus_invals (s : State) (g : Nat) (x : Fin 16) : (s.focus g x).invals = s.invals := rfl
@[simp] theorem State.focus_invSeq (s : State) (g : Nat) (x : Fin 16) : (s.focus g x).invSeq = s.invSeq := rfl
@[simp] theorem State.focus_l2Acc (s : State) (g : Nat) (x : Fin 16) : (s.focus g x).l2Acc = s.l2Acc := rfl
@[simp] theorem State.focus_l2Miss (s : State) (g : Nat) (x : Fin 16) : (s.focus g x).l2Miss = s.l2Miss := rfl
@[simp] theorem State.focus_hioQ (s : State) (g : Nat) (x : Fin 16) : (s.focus g x).hioQ = s.hioQ := rfl
@[simp] theorem State.focus_hioSeq (s : State) (g : Nat) (x : Fin 16) : (s.focus g x).hioSeq = s.hioSeq := rfl
@[simp] theorem State.focus_hioRefused (s : State) (g : Nat) (x : Fin 16) : (s.focus g x).hioRefused = s.hioRefused := rfl
@[simp] theorem State.focus_tags (s : State) (g : Nat) (x : Fin 16) : (s.focus g x).tags = s.tags := rfl
@[simp] theorem State.focus_scrubs (s : State) (g : Nat) (x : Fin 16) : (s.focus g x).scrubs = s.scrubs := rfl
@[simp] theorem State.focus_devQ (s : State) (g : Nat) (x : Fin 16) : (s.focus g x).devQ = s.devQ := rfl
@[simp] theorem State.focus_worlds (s : State) (g : Nat) (x : Fin 16) : (s.focus g x).worlds = s.worlds := rfl
@[simp] theorem State.focus_peers (s : State) (g : Nat) (x : Fin 16) : (s.focus g x).peers = s.peers := rfl
@[simp] theorem State.focus_clusters (s : State) (g : Nat) (x : Fin 16) : (s.focus g x).clusters = s.clusters := rfl
@[simp] theorem State.focus_quads (s : State) (g : Nat) (x : Fin 16) : (s.focus g x).quads = s.quads := rfl
@[simp] theorem State.focus_cores (s : State) (g : Nat) (x : Fin 16) : (s.focus g x).cores = s.cores := rfl
@[simp] theorem State.focus_hops (s : State) (g : Nat) (x : Fin 16) : (s.focus g x).hops = s.hops := rfl
@[simp] theorem State.focus_parts (s : State) (g : Nat) (x : Fin 16) : (s.focus g x).parts = s.parts := rfl
@[simp] theorem State.focus_probes (s : State) (g : Nat) (x : Fin 16) : (s.focus g x).probes = s.probes := rfl
@[simp] theorem State.focus_gates (s : State) (g : Nat) (x : Fin 16) : (s.focus g x).gates = s.gates := rfl
@[simp] theorem State.focus_refills (s : State) (g : Nat) (x : Fin 16) : (s.focus g x).refills = s.refills := rfl
@[simp] theorem State.focus_gateMoves (s : State) (g : Nat) (x : Fin 16) : (s.focus g x).gateMoves = s.gateMoves := rfl
@[simp] theorem State.focus_rings (s : State) (g : Nat) (x : Fin 16) : (s.focus g x).rings = s.rings := rfl
@[simp] theorem State.focus_nextToken (s : State) (g : Nat) (x : Fin 16) : (s.focus g x).nextToken = s.nextToken := rfl
@[simp] theorem State.focus_esb (s : State) (g : Nat) (x : Fin 16) : (s.focus g x).esb = s.esb := rfl
@[simp] theorem State.focus_temps (s : State) (g : Nat) (x : Fin 16) : (s.focus g x).temps = s.temps := rfl
@[simp] theorem State.focus_hot (s : State) (g : Nat) (x : Fin 16) : (s.focus g x).hot = s.hot := rfl
@[simp] theorem State.focus_therm (s : State) (g : Nat) (x : Fin 16) : (s.focus g x).therm = s.therm := rfl
@[simp] theorem State.focus_gated (s : State) (g : Nat) (x : Fin 16) : (s.focus g x).gated = s.gated := rfl
@[simp] theorem State.focus_arrivals (s : State) (g : Nat) (x : Fin 16) : (s.focus g x).arrivals = s.arrivals := rfl
@[simp] theorem State.focus_pkgnum (s : State) (g : Nat) (x : Fin 16) : (s.focus g x).pkgnum = s.pkgnum := rfl
@[simp] theorem State.focus_board (s : State) (g : Nat) (x : Fin 16) : (s.focus g x).board = s.board := rfl
@[simp] theorem State.focus_slotA (s : State) (g : Nat) (x : Fin 16) : (s.focus g x).slotA = s.slotA := rfl
@[simp] theorem State.focus_slotB (s : State) (g : Nat) (x : Fin 16) : (s.focus g x).slotB = s.slotB := rfl
@[simp] theorem State.focus_marker0 (s : State) (g : Nat) (x : Fin 16) : (s.focus g x).marker0 = s.marker0 := rfl
@[simp] theorem State.focus_marker1 (s : State) (g : Nat) (x : Fin 16) : (s.focus g x).marker1 = s.marker1 := rfl
@[simp] theorem State.focus_booted (s : State) (g : Nat) (x : Fin 16) : (s.focus g x).booted = s.booted := rfl
@[simp] theorem State.focus_bootImage (s : State) (g : Nat) (x : Fin 16) : (s.focus g x).bootImage = s.bootImage := rfl
@[simp] theorem State.focus_pcie (s : State) (g : Nat) (x : Fin 16) : (s.focus g x).pcie = s.pcie := rfl
@[simp] theorem State.focus_links (s : State) (g : Nat) (x : Fin 16) : (s.focus g x).links = s.links := rfl
@[simp] theorem State.focus_cmdRing (s : State) (g : Nat) (x : Fin 16) : (s.focus g x).cmdRing = s.cmdRing := rfl
@[simp] theorem State.focus_ringPos (s : State) (g : Nat) (x : Fin 16) : (s.focus g x).ringPos = s.ringPos := rfl
@[simp] theorem State.focus_statReads (s : State) (g : Nat) (x : Fin 16) : (s.focus g x).statReads = s.statReads := rfl
@[simp] theorem State.focus_updated (s : State) (g : Nat) (x : Fin 16) : (s.focus g x).updated = s.updated := rfl
@[simp] theorem State.focus_draws (s : State) (g : Nat) (x : Fin 16) : (s.focus g x).draws = s.draws := rfl
@[simp] theorem State.focus_corrected (s : State) (g : Nat) (x : Fin 16) : (s.focus g x).corrected = s.corrected := rfl
@[simp] theorem State.focus_pkgKey (s : State) (g : Nat) (x : Fin 16) : (s.focus g x).pkgKey = s.pkgKey := rfl

/-! ### State.setCluster -/

@[simp] theorem State.setCluster_cycle (s : State) (h : Nat) (c : Cluster) : (s.setCluster h c).cycle = s.cycle := rfl
@[simp] theorem State.setCluster_agenda (s : State) (h : Nat) (c : Cluster) : (s.setCluster h c).agenda = s.agenda := rfl
@[simp] theorem State.setCluster_core (s : State) (h : Nat) (c : Cluster) : (s.setCluster h c).core = s.core := rfl
@[simp] theorem State.setCluster_ctx (s : State) (h : Nat) (c : Cluster) : (s.setCluster h c).ctx = s.ctx := rfl
@[simp] theorem State.setCluster_ev (s : State) (h : Nat) (c : Cluster) : (s.setCluster h c).ev = s.ev := rfl
@[simp] theorem State.setCluster_freeCnt (s : State) (h : Nat) (c : Cluster) : (s.setCluster h c).freeCnt = s.freeCnt := rfl
@[simp] theorem State.setCluster_mem (s : State) (h : Nat) (c : Cluster) : (s.setCluster h c).mem = s.mem := rfl
@[simp] theorem State.setCluster_lines (s : State) (h : Nat) (c : Cluster) : (s.setCluster h c).lines = s.lines := rfl
@[simp] theorem State.setCluster_owners (s : State) (h : Nat) (c : Cluster) : (s.setCluster h c).owners = s.owners := rfl
@[simp] theorem State.setCluster_invals (s : State) (h : Nat) (c : Cluster) : (s.setCluster h c).invals = s.invals := rfl
@[simp] theorem State.setCluster_invSeq (s : State) (h : Nat) (c : Cluster) : (s.setCluster h c).invSeq = s.invSeq := rfl
@[simp] theorem State.setCluster_l2Acc (s : State) (h : Nat) (c : Cluster) : (s.setCluster h c).l2Acc = s.l2Acc := rfl
@[simp] theorem State.setCluster_l2Miss (s : State) (h : Nat) (c : Cluster) : (s.setCluster h c).l2Miss = s.l2Miss := rfl
@[simp] theorem State.setCluster_hioQ (s : State) (h : Nat) (c : Cluster) : (s.setCluster h c).hioQ = s.hioQ := rfl
@[simp] theorem State.setCluster_hioSeq (s : State) (h : Nat) (c : Cluster) : (s.setCluster h c).hioSeq = s.hioSeq := rfl
@[simp] theorem State.setCluster_hioRefused (s : State) (h : Nat) (c : Cluster) : (s.setCluster h c).hioRefused = s.hioRefused := rfl
@[simp] theorem State.setCluster_tags (s : State) (h : Nat) (c : Cluster) : (s.setCluster h c).tags = s.tags := rfl
@[simp] theorem State.setCluster_scrubs (s : State) (h : Nat) (c : Cluster) : (s.setCluster h c).scrubs = s.scrubs := rfl
@[simp] theorem State.setCluster_devQ (s : State) (h : Nat) (c : Cluster) : (s.setCluster h c).devQ = s.devQ := rfl
@[simp] theorem State.setCluster_worlds (s : State) (h : Nat) (c : Cluster) : (s.setCluster h c).worlds = s.worlds := rfl
@[simp] theorem State.setCluster_peers (s : State) (h : Nat) (c : Cluster) : (s.setCluster h c).peers = s.peers := rfl
@[simp] theorem State.setCluster_quads (s : State) (h : Nat) (c : Cluster) : (s.setCluster h c).quads = s.quads := rfl
@[simp] theorem State.setCluster_cores (s : State) (h : Nat) (c : Cluster) : (s.setCluster h c).cores = s.cores := rfl
@[simp] theorem State.setCluster_hops (s : State) (h : Nat) (c : Cluster) : (s.setCluster h c).hops = s.hops := rfl
@[simp] theorem State.setCluster_parts (s : State) (h : Nat) (c : Cluster) : (s.setCluster h c).parts = s.parts := rfl
@[simp] theorem State.setCluster_probes (s : State) (h : Nat) (c : Cluster) : (s.setCluster h c).probes = s.probes := rfl
@[simp] theorem State.setCluster_gates (s : State) (h : Nat) (c : Cluster) : (s.setCluster h c).gates = s.gates := rfl
@[simp] theorem State.setCluster_refills (s : State) (h : Nat) (c : Cluster) : (s.setCluster h c).refills = s.refills := rfl
@[simp] theorem State.setCluster_gateMoves (s : State) (h : Nat) (c : Cluster) : (s.setCluster h c).gateMoves = s.gateMoves := rfl
@[simp] theorem State.setCluster_rings (s : State) (h : Nat) (c : Cluster) : (s.setCluster h c).rings = s.rings := rfl
@[simp] theorem State.setCluster_nextToken (s : State) (h : Nat) (c : Cluster) : (s.setCluster h c).nextToken = s.nextToken := rfl
@[simp] theorem State.setCluster_esb (s : State) (h : Nat) (c : Cluster) : (s.setCluster h c).esb = s.esb := rfl
@[simp] theorem State.setCluster_temps (s : State) (h : Nat) (c : Cluster) : (s.setCluster h c).temps = s.temps := rfl
@[simp] theorem State.setCluster_hot (s : State) (h : Nat) (c : Cluster) : (s.setCluster h c).hot = s.hot := rfl
@[simp] theorem State.setCluster_therm (s : State) (h : Nat) (c : Cluster) : (s.setCluster h c).therm = s.therm := rfl
@[simp] theorem State.setCluster_gated (s : State) (h : Nat) (c : Cluster) : (s.setCluster h c).gated = s.gated := rfl
@[simp] theorem State.setCluster_arrivals (s : State) (h : Nat) (c : Cluster) : (s.setCluster h c).arrivals = s.arrivals := rfl
@[simp] theorem State.setCluster_pkgnum (s : State) (h : Nat) (c : Cluster) : (s.setCluster h c).pkgnum = s.pkgnum := rfl
@[simp] theorem State.setCluster_board (s : State) (h : Nat) (c : Cluster) : (s.setCluster h c).board = s.board := rfl
@[simp] theorem State.setCluster_slotA (s : State) (h : Nat) (c : Cluster) : (s.setCluster h c).slotA = s.slotA := rfl
@[simp] theorem State.setCluster_slotB (s : State) (h : Nat) (c : Cluster) : (s.setCluster h c).slotB = s.slotB := rfl
@[simp] theorem State.setCluster_marker0 (s : State) (h : Nat) (c : Cluster) : (s.setCluster h c).marker0 = s.marker0 := rfl
@[simp] theorem State.setCluster_marker1 (s : State) (h : Nat) (c : Cluster) : (s.setCluster h c).marker1 = s.marker1 := rfl
@[simp] theorem State.setCluster_booted (s : State) (h : Nat) (c : Cluster) : (s.setCluster h c).booted = s.booted := rfl
@[simp] theorem State.setCluster_bootImage (s : State) (h : Nat) (c : Cluster) : (s.setCluster h c).bootImage = s.bootImage := rfl
@[simp] theorem State.setCluster_pcie (s : State) (h : Nat) (c : Cluster) : (s.setCluster h c).pcie = s.pcie := rfl
@[simp] theorem State.setCluster_links (s : State) (h : Nat) (c : Cluster) : (s.setCluster h c).links = s.links := rfl
@[simp] theorem State.setCluster_cmdRing (s : State) (h : Nat) (c : Cluster) : (s.setCluster h c).cmdRing = s.cmdRing := rfl
@[simp] theorem State.setCluster_ringPos (s : State) (h : Nat) (c : Cluster) : (s.setCluster h c).ringPos = s.ringPos := rfl
@[simp] theorem State.setCluster_statReads (s : State) (h : Nat) (c : Cluster) : (s.setCluster h c).statReads = s.statReads := rfl
@[simp] theorem State.setCluster_updated (s : State) (h : Nat) (c : Cluster) : (s.setCluster h c).updated = s.updated := rfl
@[simp] theorem State.setCluster_draws (s : State) (h : Nat) (c : Cluster) : (s.setCluster h c).draws = s.draws := rfl
@[simp] theorem State.setCluster_corrected (s : State) (h : Nat) (c : Cluster) : (s.setCluster h c).corrected = s.corrected := rfl
@[simp] theorem State.setCluster_pkgKey (s : State) (h : Nat) (c : Cluster) : (s.setCluster h c).pkgKey = s.pkgKey := rfl

/-! ### State.modCluster -/

@[simp] theorem State.modCluster_cycle (s : State) (h : Nat) (f : Cluster → Cluster) : (s.modCluster h f).cycle = s.cycle := rfl
@[simp] theorem State.modCluster_agenda (s : State) (h : Nat) (f : Cluster → Cluster) : (s.modCluster h f).agenda = s.agenda := rfl
@[simp] theorem State.modCluster_core (s : State) (h : Nat) (f : Cluster → Cluster) : (s.modCluster h f).core = s.core := rfl
@[simp] theorem State.modCluster_ctx (s : State) (h : Nat) (f : Cluster → Cluster) : (s.modCluster h f).ctx = s.ctx := rfl
@[simp] theorem State.modCluster_ev (s : State) (h : Nat) (f : Cluster → Cluster) : (s.modCluster h f).ev = s.ev := rfl
@[simp] theorem State.modCluster_freeCnt (s : State) (h : Nat) (f : Cluster → Cluster) : (s.modCluster h f).freeCnt = s.freeCnt := rfl
@[simp] theorem State.modCluster_mem (s : State) (h : Nat) (f : Cluster → Cluster) : (s.modCluster h f).mem = s.mem := rfl
@[simp] theorem State.modCluster_lines (s : State) (h : Nat) (f : Cluster → Cluster) : (s.modCluster h f).lines = s.lines := rfl
@[simp] theorem State.modCluster_owners (s : State) (h : Nat) (f : Cluster → Cluster) : (s.modCluster h f).owners = s.owners := rfl
@[simp] theorem State.modCluster_invals (s : State) (h : Nat) (f : Cluster → Cluster) : (s.modCluster h f).invals = s.invals := rfl
@[simp] theorem State.modCluster_invSeq (s : State) (h : Nat) (f : Cluster → Cluster) : (s.modCluster h f).invSeq = s.invSeq := rfl
@[simp] theorem State.modCluster_l2Acc (s : State) (h : Nat) (f : Cluster → Cluster) : (s.modCluster h f).l2Acc = s.l2Acc := rfl
@[simp] theorem State.modCluster_l2Miss (s : State) (h : Nat) (f : Cluster → Cluster) : (s.modCluster h f).l2Miss = s.l2Miss := rfl
@[simp] theorem State.modCluster_hioQ (s : State) (h : Nat) (f : Cluster → Cluster) : (s.modCluster h f).hioQ = s.hioQ := rfl
@[simp] theorem State.modCluster_hioSeq (s : State) (h : Nat) (f : Cluster → Cluster) : (s.modCluster h f).hioSeq = s.hioSeq := rfl
@[simp] theorem State.modCluster_hioRefused (s : State) (h : Nat) (f : Cluster → Cluster) : (s.modCluster h f).hioRefused = s.hioRefused := rfl
@[simp] theorem State.modCluster_tags (s : State) (h : Nat) (f : Cluster → Cluster) : (s.modCluster h f).tags = s.tags := rfl
@[simp] theorem State.modCluster_scrubs (s : State) (h : Nat) (f : Cluster → Cluster) : (s.modCluster h f).scrubs = s.scrubs := rfl
@[simp] theorem State.modCluster_devQ (s : State) (h : Nat) (f : Cluster → Cluster) : (s.modCluster h f).devQ = s.devQ := rfl
@[simp] theorem State.modCluster_worlds (s : State) (h : Nat) (f : Cluster → Cluster) : (s.modCluster h f).worlds = s.worlds := rfl
@[simp] theorem State.modCluster_peers (s : State) (h : Nat) (f : Cluster → Cluster) : (s.modCluster h f).peers = s.peers := rfl
@[simp] theorem State.modCluster_quads (s : State) (h : Nat) (f : Cluster → Cluster) : (s.modCluster h f).quads = s.quads := rfl
@[simp] theorem State.modCluster_cores (s : State) (h : Nat) (f : Cluster → Cluster) : (s.modCluster h f).cores = s.cores := rfl
@[simp] theorem State.modCluster_hops (s : State) (h : Nat) (f : Cluster → Cluster) : (s.modCluster h f).hops = s.hops := rfl
@[simp] theorem State.modCluster_parts (s : State) (h : Nat) (f : Cluster → Cluster) : (s.modCluster h f).parts = s.parts := rfl
@[simp] theorem State.modCluster_probes (s : State) (h : Nat) (f : Cluster → Cluster) : (s.modCluster h f).probes = s.probes := rfl
@[simp] theorem State.modCluster_gates (s : State) (h : Nat) (f : Cluster → Cluster) : (s.modCluster h f).gates = s.gates := rfl
@[simp] theorem State.modCluster_refills (s : State) (h : Nat) (f : Cluster → Cluster) : (s.modCluster h f).refills = s.refills := rfl
@[simp] theorem State.modCluster_gateMoves (s : State) (h : Nat) (f : Cluster → Cluster) : (s.modCluster h f).gateMoves = s.gateMoves := rfl
@[simp] theorem State.modCluster_rings (s : State) (h : Nat) (f : Cluster → Cluster) : (s.modCluster h f).rings = s.rings := rfl
@[simp] theorem State.modCluster_nextToken (s : State) (h : Nat) (f : Cluster → Cluster) : (s.modCluster h f).nextToken = s.nextToken := rfl
@[simp] theorem State.modCluster_esb (s : State) (h : Nat) (f : Cluster → Cluster) : (s.modCluster h f).esb = s.esb := rfl
@[simp] theorem State.modCluster_temps (s : State) (h : Nat) (f : Cluster → Cluster) : (s.modCluster h f).temps = s.temps := rfl
@[simp] theorem State.modCluster_hot (s : State) (h : Nat) (f : Cluster → Cluster) : (s.modCluster h f).hot = s.hot := rfl
@[simp] theorem State.modCluster_therm (s : State) (h : Nat) (f : Cluster → Cluster) : (s.modCluster h f).therm = s.therm := rfl
@[simp] theorem State.modCluster_gated (s : State) (h : Nat) (f : Cluster → Cluster) : (s.modCluster h f).gated = s.gated := rfl
@[simp] theorem State.modCluster_arrivals (s : State) (h : Nat) (f : Cluster → Cluster) : (s.modCluster h f).arrivals = s.arrivals := rfl
@[simp] theorem State.modCluster_pkgnum (s : State) (h : Nat) (f : Cluster → Cluster) : (s.modCluster h f).pkgnum = s.pkgnum := rfl
@[simp] theorem State.modCluster_board (s : State) (h : Nat) (f : Cluster → Cluster) : (s.modCluster h f).board = s.board := rfl
@[simp] theorem State.modCluster_slotA (s : State) (h : Nat) (f : Cluster → Cluster) : (s.modCluster h f).slotA = s.slotA := rfl
@[simp] theorem State.modCluster_slotB (s : State) (h : Nat) (f : Cluster → Cluster) : (s.modCluster h f).slotB = s.slotB := rfl
@[simp] theorem State.modCluster_marker0 (s : State) (h : Nat) (f : Cluster → Cluster) : (s.modCluster h f).marker0 = s.marker0 := rfl
@[simp] theorem State.modCluster_marker1 (s : State) (h : Nat) (f : Cluster → Cluster) : (s.modCluster h f).marker1 = s.marker1 := rfl
@[simp] theorem State.modCluster_booted (s : State) (h : Nat) (f : Cluster → Cluster) : (s.modCluster h f).booted = s.booted := rfl
@[simp] theorem State.modCluster_bootImage (s : State) (h : Nat) (f : Cluster → Cluster) : (s.modCluster h f).bootImage = s.bootImage := rfl
@[simp] theorem State.modCluster_pcie (s : State) (h : Nat) (f : Cluster → Cluster) : (s.modCluster h f).pcie = s.pcie := rfl
@[simp] theorem State.modCluster_links (s : State) (h : Nat) (f : Cluster → Cluster) : (s.modCluster h f).links = s.links := rfl
@[simp] theorem State.modCluster_cmdRing (s : State) (h : Nat) (f : Cluster → Cluster) : (s.modCluster h f).cmdRing = s.cmdRing := rfl
@[simp] theorem State.modCluster_ringPos (s : State) (h : Nat) (f : Cluster → Cluster) : (s.modCluster h f).ringPos = s.ringPos := rfl
@[simp] theorem State.modCluster_statReads (s : State) (h : Nat) (f : Cluster → Cluster) : (s.modCluster h f).statReads = s.statReads := rfl
@[simp] theorem State.modCluster_updated (s : State) (h : Nat) (f : Cluster → Cluster) : (s.modCluster h f).updated = s.updated := rfl
@[simp] theorem State.modCluster_draws (s : State) (h : Nat) (f : Cluster → Cluster) : (s.modCluster h f).draws = s.draws := rfl
@[simp] theorem State.modCluster_corrected (s : State) (h : Nat) (f : Cluster → Cluster) : (s.modCluster h f).corrected = s.corrected := rfl
@[simp] theorem State.modCluster_pkgKey (s : State) (h : Nat) (f : Cluster → Cluster) : (s.modCluster h f).pkgKey = s.pkgKey := rfl

/-! ### State.setQuad -/

@[simp] theorem State.setQuad_cycle (s : State) (q : Nat) (c : Quad) : (s.setQuad q c).cycle = s.cycle := rfl
@[simp] theorem State.setQuad_agenda (s : State) (q : Nat) (c : Quad) : (s.setQuad q c).agenda = s.agenda := rfl
@[simp] theorem State.setQuad_core (s : State) (q : Nat) (c : Quad) : (s.setQuad q c).core = s.core := rfl
@[simp] theorem State.setQuad_ctx (s : State) (q : Nat) (c : Quad) : (s.setQuad q c).ctx = s.ctx := rfl
@[simp] theorem State.setQuad_ev (s : State) (q : Nat) (c : Quad) : (s.setQuad q c).ev = s.ev := rfl
@[simp] theorem State.setQuad_freeCnt (s : State) (q : Nat) (c : Quad) : (s.setQuad q c).freeCnt = s.freeCnt := rfl
@[simp] theorem State.setQuad_mem (s : State) (q : Nat) (c : Quad) : (s.setQuad q c).mem = s.mem := rfl
@[simp] theorem State.setQuad_lines (s : State) (q : Nat) (c : Quad) : (s.setQuad q c).lines = s.lines := rfl
@[simp] theorem State.setQuad_owners (s : State) (q : Nat) (c : Quad) : (s.setQuad q c).owners = s.owners := rfl
@[simp] theorem State.setQuad_invals (s : State) (q : Nat) (c : Quad) : (s.setQuad q c).invals = s.invals := rfl
@[simp] theorem State.setQuad_invSeq (s : State) (q : Nat) (c : Quad) : (s.setQuad q c).invSeq = s.invSeq := rfl
@[simp] theorem State.setQuad_l2Acc (s : State) (q : Nat) (c : Quad) : (s.setQuad q c).l2Acc = s.l2Acc := rfl
@[simp] theorem State.setQuad_l2Miss (s : State) (q : Nat) (c : Quad) : (s.setQuad q c).l2Miss = s.l2Miss := rfl
@[simp] theorem State.setQuad_hioQ (s : State) (q : Nat) (c : Quad) : (s.setQuad q c).hioQ = s.hioQ := rfl
@[simp] theorem State.setQuad_hioSeq (s : State) (q : Nat) (c : Quad) : (s.setQuad q c).hioSeq = s.hioSeq := rfl
@[simp] theorem State.setQuad_hioRefused (s : State) (q : Nat) (c : Quad) : (s.setQuad q c).hioRefused = s.hioRefused := rfl
@[simp] theorem State.setQuad_tags (s : State) (q : Nat) (c : Quad) : (s.setQuad q c).tags = s.tags := rfl
@[simp] theorem State.setQuad_scrubs (s : State) (q : Nat) (c : Quad) : (s.setQuad q c).scrubs = s.scrubs := rfl
@[simp] theorem State.setQuad_devQ (s : State) (q : Nat) (c : Quad) : (s.setQuad q c).devQ = s.devQ := rfl
@[simp] theorem State.setQuad_worlds (s : State) (q : Nat) (c : Quad) : (s.setQuad q c).worlds = s.worlds := rfl
@[simp] theorem State.setQuad_peers (s : State) (q : Nat) (c : Quad) : (s.setQuad q c).peers = s.peers := rfl
@[simp] theorem State.setQuad_clusters (s : State) (q : Nat) (c : Quad) : (s.setQuad q c).clusters = s.clusters := rfl
@[simp] theorem State.setQuad_cores (s : State) (q : Nat) (c : Quad) : (s.setQuad q c).cores = s.cores := rfl
@[simp] theorem State.setQuad_hops (s : State) (q : Nat) (c : Quad) : (s.setQuad q c).hops = s.hops := rfl
@[simp] theorem State.setQuad_parts (s : State) (q : Nat) (c : Quad) : (s.setQuad q c).parts = s.parts := rfl
@[simp] theorem State.setQuad_probes (s : State) (q : Nat) (c : Quad) : (s.setQuad q c).probes = s.probes := rfl
@[simp] theorem State.setQuad_gates (s : State) (q : Nat) (c : Quad) : (s.setQuad q c).gates = s.gates := rfl
@[simp] theorem State.setQuad_refills (s : State) (q : Nat) (c : Quad) : (s.setQuad q c).refills = s.refills := rfl
@[simp] theorem State.setQuad_gateMoves (s : State) (q : Nat) (c : Quad) : (s.setQuad q c).gateMoves = s.gateMoves := rfl
@[simp] theorem State.setQuad_rings (s : State) (q : Nat) (c : Quad) : (s.setQuad q c).rings = s.rings := rfl
@[simp] theorem State.setQuad_nextToken (s : State) (q : Nat) (c : Quad) : (s.setQuad q c).nextToken = s.nextToken := rfl
@[simp] theorem State.setQuad_esb (s : State) (q : Nat) (c : Quad) : (s.setQuad q c).esb = s.esb := rfl
@[simp] theorem State.setQuad_temps (s : State) (q : Nat) (c : Quad) : (s.setQuad q c).temps = s.temps := rfl
@[simp] theorem State.setQuad_hot (s : State) (q : Nat) (c : Quad) : (s.setQuad q c).hot = s.hot := rfl
@[simp] theorem State.setQuad_therm (s : State) (q : Nat) (c : Quad) : (s.setQuad q c).therm = s.therm := rfl
@[simp] theorem State.setQuad_gated (s : State) (q : Nat) (c : Quad) : (s.setQuad q c).gated = s.gated := rfl
@[simp] theorem State.setQuad_arrivals (s : State) (q : Nat) (c : Quad) : (s.setQuad q c).arrivals = s.arrivals := rfl
@[simp] theorem State.setQuad_pkgnum (s : State) (q : Nat) (c : Quad) : (s.setQuad q c).pkgnum = s.pkgnum := rfl
@[simp] theorem State.setQuad_board (s : State) (q : Nat) (c : Quad) : (s.setQuad q c).board = s.board := rfl
@[simp] theorem State.setQuad_slotA (s : State) (q : Nat) (c : Quad) : (s.setQuad q c).slotA = s.slotA := rfl
@[simp] theorem State.setQuad_slotB (s : State) (q : Nat) (c : Quad) : (s.setQuad q c).slotB = s.slotB := rfl
@[simp] theorem State.setQuad_marker0 (s : State) (q : Nat) (c : Quad) : (s.setQuad q c).marker0 = s.marker0 := rfl
@[simp] theorem State.setQuad_marker1 (s : State) (q : Nat) (c : Quad) : (s.setQuad q c).marker1 = s.marker1 := rfl
@[simp] theorem State.setQuad_booted (s : State) (q : Nat) (c : Quad) : (s.setQuad q c).booted = s.booted := rfl
@[simp] theorem State.setQuad_bootImage (s : State) (q : Nat) (c : Quad) : (s.setQuad q c).bootImage = s.bootImage := rfl
@[simp] theorem State.setQuad_pcie (s : State) (q : Nat) (c : Quad) : (s.setQuad q c).pcie = s.pcie := rfl
@[simp] theorem State.setQuad_links (s : State) (q : Nat) (c : Quad) : (s.setQuad q c).links = s.links := rfl
@[simp] theorem State.setQuad_cmdRing (s : State) (q : Nat) (c : Quad) : (s.setQuad q c).cmdRing = s.cmdRing := rfl
@[simp] theorem State.setQuad_ringPos (s : State) (q : Nat) (c : Quad) : (s.setQuad q c).ringPos = s.ringPos := rfl
@[simp] theorem State.setQuad_statReads (s : State) (q : Nat) (c : Quad) : (s.setQuad q c).statReads = s.statReads := rfl
@[simp] theorem State.setQuad_updated (s : State) (q : Nat) (c : Quad) : (s.setQuad q c).updated = s.updated := rfl
@[simp] theorem State.setQuad_draws (s : State) (q : Nat) (c : Quad) : (s.setQuad q c).draws = s.draws := rfl
@[simp] theorem State.setQuad_corrected (s : State) (q : Nat) (c : Quad) : (s.setQuad q c).corrected = s.corrected := rfl
@[simp] theorem State.setQuad_pkgKey (s : State) (q : Nat) (c : Quad) : (s.setQuad q c).pkgKey = s.pkgKey := rfl

/-! ### State.modQuad -/

@[simp] theorem State.modQuad_cycle (s : State) (q : Nat) (f : Quad → Quad) : (s.modQuad q f).cycle = s.cycle := rfl
@[simp] theorem State.modQuad_agenda (s : State) (q : Nat) (f : Quad → Quad) : (s.modQuad q f).agenda = s.agenda := rfl
@[simp] theorem State.modQuad_core (s : State) (q : Nat) (f : Quad → Quad) : (s.modQuad q f).core = s.core := rfl
@[simp] theorem State.modQuad_ctx (s : State) (q : Nat) (f : Quad → Quad) : (s.modQuad q f).ctx = s.ctx := rfl
@[simp] theorem State.modQuad_ev (s : State) (q : Nat) (f : Quad → Quad) : (s.modQuad q f).ev = s.ev := rfl
@[simp] theorem State.modQuad_freeCnt (s : State) (q : Nat) (f : Quad → Quad) : (s.modQuad q f).freeCnt = s.freeCnt := rfl
@[simp] theorem State.modQuad_mem (s : State) (q : Nat) (f : Quad → Quad) : (s.modQuad q f).mem = s.mem := rfl
@[simp] theorem State.modQuad_lines (s : State) (q : Nat) (f : Quad → Quad) : (s.modQuad q f).lines = s.lines := rfl
@[simp] theorem State.modQuad_owners (s : State) (q : Nat) (f : Quad → Quad) : (s.modQuad q f).owners = s.owners := rfl
@[simp] theorem State.modQuad_invals (s : State) (q : Nat) (f : Quad → Quad) : (s.modQuad q f).invals = s.invals := rfl
@[simp] theorem State.modQuad_invSeq (s : State) (q : Nat) (f : Quad → Quad) : (s.modQuad q f).invSeq = s.invSeq := rfl
@[simp] theorem State.modQuad_l2Acc (s : State) (q : Nat) (f : Quad → Quad) : (s.modQuad q f).l2Acc = s.l2Acc := rfl
@[simp] theorem State.modQuad_l2Miss (s : State) (q : Nat) (f : Quad → Quad) : (s.modQuad q f).l2Miss = s.l2Miss := rfl
@[simp] theorem State.modQuad_hioQ (s : State) (q : Nat) (f : Quad → Quad) : (s.modQuad q f).hioQ = s.hioQ := rfl
@[simp] theorem State.modQuad_hioSeq (s : State) (q : Nat) (f : Quad → Quad) : (s.modQuad q f).hioSeq = s.hioSeq := rfl
@[simp] theorem State.modQuad_hioRefused (s : State) (q : Nat) (f : Quad → Quad) : (s.modQuad q f).hioRefused = s.hioRefused := rfl
@[simp] theorem State.modQuad_tags (s : State) (q : Nat) (f : Quad → Quad) : (s.modQuad q f).tags = s.tags := rfl
@[simp] theorem State.modQuad_scrubs (s : State) (q : Nat) (f : Quad → Quad) : (s.modQuad q f).scrubs = s.scrubs := rfl
@[simp] theorem State.modQuad_devQ (s : State) (q : Nat) (f : Quad → Quad) : (s.modQuad q f).devQ = s.devQ := rfl
@[simp] theorem State.modQuad_worlds (s : State) (q : Nat) (f : Quad → Quad) : (s.modQuad q f).worlds = s.worlds := rfl
@[simp] theorem State.modQuad_peers (s : State) (q : Nat) (f : Quad → Quad) : (s.modQuad q f).peers = s.peers := rfl
@[simp] theorem State.modQuad_clusters (s : State) (q : Nat) (f : Quad → Quad) : (s.modQuad q f).clusters = s.clusters := rfl
@[simp] theorem State.modQuad_cores (s : State) (q : Nat) (f : Quad → Quad) : (s.modQuad q f).cores = s.cores := rfl
@[simp] theorem State.modQuad_hops (s : State) (q : Nat) (f : Quad → Quad) : (s.modQuad q f).hops = s.hops := rfl
@[simp] theorem State.modQuad_parts (s : State) (q : Nat) (f : Quad → Quad) : (s.modQuad q f).parts = s.parts := rfl
@[simp] theorem State.modQuad_probes (s : State) (q : Nat) (f : Quad → Quad) : (s.modQuad q f).probes = s.probes := rfl
@[simp] theorem State.modQuad_gates (s : State) (q : Nat) (f : Quad → Quad) : (s.modQuad q f).gates = s.gates := rfl
@[simp] theorem State.modQuad_refills (s : State) (q : Nat) (f : Quad → Quad) : (s.modQuad q f).refills = s.refills := rfl
@[simp] theorem State.modQuad_gateMoves (s : State) (q : Nat) (f : Quad → Quad) : (s.modQuad q f).gateMoves = s.gateMoves := rfl
@[simp] theorem State.modQuad_rings (s : State) (q : Nat) (f : Quad → Quad) : (s.modQuad q f).rings = s.rings := rfl
@[simp] theorem State.modQuad_nextToken (s : State) (q : Nat) (f : Quad → Quad) : (s.modQuad q f).nextToken = s.nextToken := rfl
@[simp] theorem State.modQuad_esb (s : State) (q : Nat) (f : Quad → Quad) : (s.modQuad q f).esb = s.esb := rfl
@[simp] theorem State.modQuad_temps (s : State) (q : Nat) (f : Quad → Quad) : (s.modQuad q f).temps = s.temps := rfl
@[simp] theorem State.modQuad_hot (s : State) (q : Nat) (f : Quad → Quad) : (s.modQuad q f).hot = s.hot := rfl
@[simp] theorem State.modQuad_therm (s : State) (q : Nat) (f : Quad → Quad) : (s.modQuad q f).therm = s.therm := rfl
@[simp] theorem State.modQuad_gated (s : State) (q : Nat) (f : Quad → Quad) : (s.modQuad q f).gated = s.gated := rfl
@[simp] theorem State.modQuad_arrivals (s : State) (q : Nat) (f : Quad → Quad) : (s.modQuad q f).arrivals = s.arrivals := rfl
@[simp] theorem State.modQuad_pkgnum (s : State) (q : Nat) (f : Quad → Quad) : (s.modQuad q f).pkgnum = s.pkgnum := rfl
@[simp] theorem State.modQuad_board (s : State) (q : Nat) (f : Quad → Quad) : (s.modQuad q f).board = s.board := rfl
@[simp] theorem State.modQuad_slotA (s : State) (q : Nat) (f : Quad → Quad) : (s.modQuad q f).slotA = s.slotA := rfl
@[simp] theorem State.modQuad_slotB (s : State) (q : Nat) (f : Quad → Quad) : (s.modQuad q f).slotB = s.slotB := rfl
@[simp] theorem State.modQuad_marker0 (s : State) (q : Nat) (f : Quad → Quad) : (s.modQuad q f).marker0 = s.marker0 := rfl
@[simp] theorem State.modQuad_marker1 (s : State) (q : Nat) (f : Quad → Quad) : (s.modQuad q f).marker1 = s.marker1 := rfl
@[simp] theorem State.modQuad_booted (s : State) (q : Nat) (f : Quad → Quad) : (s.modQuad q f).booted = s.booted := rfl
@[simp] theorem State.modQuad_bootImage (s : State) (q : Nat) (f : Quad → Quad) : (s.modQuad q f).bootImage = s.bootImage := rfl
@[simp] theorem State.modQuad_pcie (s : State) (q : Nat) (f : Quad → Quad) : (s.modQuad q f).pcie = s.pcie := rfl
@[simp] theorem State.modQuad_links (s : State) (q : Nat) (f : Quad → Quad) : (s.modQuad q f).links = s.links := rfl
@[simp] theorem State.modQuad_cmdRing (s : State) (q : Nat) (f : Quad → Quad) : (s.modQuad q f).cmdRing = s.cmdRing := rfl
@[simp] theorem State.modQuad_ringPos (s : State) (q : Nat) (f : Quad → Quad) : (s.modQuad q f).ringPos = s.ringPos := rfl
@[simp] theorem State.modQuad_statReads (s : State) (q : Nat) (f : Quad → Quad) : (s.modQuad q f).statReads = s.statReads := rfl
@[simp] theorem State.modQuad_updated (s : State) (q : Nat) (f : Quad → Quad) : (s.modQuad q f).updated = s.updated := rfl
@[simp] theorem State.modQuad_draws (s : State) (q : Nat) (f : Quad → Quad) : (s.modQuad q f).draws = s.draws := rfl
@[simp] theorem State.modQuad_corrected (s : State) (q : Nat) (f : Quad → Quad) : (s.modQuad q f).corrected = s.corrected := rfl
@[simp] theorem State.modQuad_pkgKey (s : State) (q : Nat) (f : Quad → Quad) : (s.modQuad q f).pkgKey = s.pkgKey := rfl

/-! ### State.setPart -/

@[simp] theorem State.setPart_cycle (s : State) (p : Nat) (v : Part) : (s.setPart p v).cycle = s.cycle := rfl
@[simp] theorem State.setPart_agenda (s : State) (p : Nat) (v : Part) : (s.setPart p v).agenda = s.agenda := rfl
@[simp] theorem State.setPart_core (s : State) (p : Nat) (v : Part) : (s.setPart p v).core = s.core := rfl
@[simp] theorem State.setPart_ctx (s : State) (p : Nat) (v : Part) : (s.setPart p v).ctx = s.ctx := rfl
@[simp] theorem State.setPart_ev (s : State) (p : Nat) (v : Part) : (s.setPart p v).ev = s.ev := rfl
@[simp] theorem State.setPart_freeCnt (s : State) (p : Nat) (v : Part) : (s.setPart p v).freeCnt = s.freeCnt := rfl
@[simp] theorem State.setPart_mem (s : State) (p : Nat) (v : Part) : (s.setPart p v).mem = s.mem := rfl
@[simp] theorem State.setPart_lines (s : State) (p : Nat) (v : Part) : (s.setPart p v).lines = s.lines := rfl
@[simp] theorem State.setPart_owners (s : State) (p : Nat) (v : Part) : (s.setPart p v).owners = s.owners := rfl
@[simp] theorem State.setPart_invals (s : State) (p : Nat) (v : Part) : (s.setPart p v).invals = s.invals := rfl
@[simp] theorem State.setPart_invSeq (s : State) (p : Nat) (v : Part) : (s.setPart p v).invSeq = s.invSeq := rfl
@[simp] theorem State.setPart_l2Acc (s : State) (p : Nat) (v : Part) : (s.setPart p v).l2Acc = s.l2Acc := rfl
@[simp] theorem State.setPart_l2Miss (s : State) (p : Nat) (v : Part) : (s.setPart p v).l2Miss = s.l2Miss := rfl
@[simp] theorem State.setPart_hioQ (s : State) (p : Nat) (v : Part) : (s.setPart p v).hioQ = s.hioQ := rfl
@[simp] theorem State.setPart_hioSeq (s : State) (p : Nat) (v : Part) : (s.setPart p v).hioSeq = s.hioSeq := rfl
@[simp] theorem State.setPart_hioRefused (s : State) (p : Nat) (v : Part) : (s.setPart p v).hioRefused = s.hioRefused := rfl
@[simp] theorem State.setPart_tags (s : State) (p : Nat) (v : Part) : (s.setPart p v).tags = s.tags := rfl
@[simp] theorem State.setPart_scrubs (s : State) (p : Nat) (v : Part) : (s.setPart p v).scrubs = s.scrubs := rfl
@[simp] theorem State.setPart_devQ (s : State) (p : Nat) (v : Part) : (s.setPart p v).devQ = s.devQ := rfl
@[simp] theorem State.setPart_worlds (s : State) (p : Nat) (v : Part) : (s.setPart p v).worlds = s.worlds := rfl
@[simp] theorem State.setPart_peers (s : State) (p : Nat) (v : Part) : (s.setPart p v).peers = s.peers := rfl
@[simp] theorem State.setPart_clusters (s : State) (p : Nat) (v : Part) : (s.setPart p v).clusters = s.clusters := rfl
@[simp] theorem State.setPart_quads (s : State) (p : Nat) (v : Part) : (s.setPart p v).quads = s.quads := rfl
@[simp] theorem State.setPart_cores (s : State) (p : Nat) (v : Part) : (s.setPart p v).cores = s.cores := rfl
@[simp] theorem State.setPart_hops (s : State) (p : Nat) (v : Part) : (s.setPart p v).hops = s.hops := rfl
@[simp] theorem State.setPart_probes (s : State) (p : Nat) (v : Part) : (s.setPart p v).probes = s.probes := rfl
@[simp] theorem State.setPart_gates (s : State) (p : Nat) (v : Part) : (s.setPart p v).gates = s.gates := rfl
@[simp] theorem State.setPart_refills (s : State) (p : Nat) (v : Part) : (s.setPart p v).refills = s.refills := rfl
@[simp] theorem State.setPart_gateMoves (s : State) (p : Nat) (v : Part) : (s.setPart p v).gateMoves = s.gateMoves := rfl
@[simp] theorem State.setPart_rings (s : State) (p : Nat) (v : Part) : (s.setPart p v).rings = s.rings := rfl
@[simp] theorem State.setPart_nextToken (s : State) (p : Nat) (v : Part) : (s.setPart p v).nextToken = s.nextToken := rfl
@[simp] theorem State.setPart_esb (s : State) (p : Nat) (v : Part) : (s.setPart p v).esb = s.esb := rfl
@[simp] theorem State.setPart_temps (s : State) (p : Nat) (v : Part) : (s.setPart p v).temps = s.temps := rfl
@[simp] theorem State.setPart_hot (s : State) (p : Nat) (v : Part) : (s.setPart p v).hot = s.hot := rfl
@[simp] theorem State.setPart_therm (s : State) (p : Nat) (v : Part) : (s.setPart p v).therm = s.therm := rfl
@[simp] theorem State.setPart_gated (s : State) (p : Nat) (v : Part) : (s.setPart p v).gated = s.gated := rfl
@[simp] theorem State.setPart_arrivals (s : State) (p : Nat) (v : Part) : (s.setPart p v).arrivals = s.arrivals := rfl
@[simp] theorem State.setPart_pkgnum (s : State) (p : Nat) (v : Part) : (s.setPart p v).pkgnum = s.pkgnum := rfl
@[simp] theorem State.setPart_board (s : State) (p : Nat) (v : Part) : (s.setPart p v).board = s.board := rfl
@[simp] theorem State.setPart_slotA (s : State) (p : Nat) (v : Part) : (s.setPart p v).slotA = s.slotA := rfl
@[simp] theorem State.setPart_slotB (s : State) (p : Nat) (v : Part) : (s.setPart p v).slotB = s.slotB := rfl
@[simp] theorem State.setPart_marker0 (s : State) (p : Nat) (v : Part) : (s.setPart p v).marker0 = s.marker0 := rfl
@[simp] theorem State.setPart_marker1 (s : State) (p : Nat) (v : Part) : (s.setPart p v).marker1 = s.marker1 := rfl
@[simp] theorem State.setPart_booted (s : State) (p : Nat) (v : Part) : (s.setPart p v).booted = s.booted := rfl
@[simp] theorem State.setPart_bootImage (s : State) (p : Nat) (v : Part) : (s.setPart p v).bootImage = s.bootImage := rfl
@[simp] theorem State.setPart_pcie (s : State) (p : Nat) (v : Part) : (s.setPart p v).pcie = s.pcie := rfl
@[simp] theorem State.setPart_links (s : State) (p : Nat) (v : Part) : (s.setPart p v).links = s.links := rfl
@[simp] theorem State.setPart_cmdRing (s : State) (p : Nat) (v : Part) : (s.setPart p v).cmdRing = s.cmdRing := rfl
@[simp] theorem State.setPart_ringPos (s : State) (p : Nat) (v : Part) : (s.setPart p v).ringPos = s.ringPos := rfl
@[simp] theorem State.setPart_statReads (s : State) (p : Nat) (v : Part) : (s.setPart p v).statReads = s.statReads := rfl
@[simp] theorem State.setPart_updated (s : State) (p : Nat) (v : Part) : (s.setPart p v).updated = s.updated := rfl
@[simp] theorem State.setPart_draws (s : State) (p : Nat) (v : Part) : (s.setPart p v).draws = s.draws := rfl
@[simp] theorem State.setPart_corrected (s : State) (p : Nat) (v : Part) : (s.setPart p v).corrected = s.corrected := rfl
@[simp] theorem State.setPart_pkgKey (s : State) (p : Nat) (v : Part) : (s.setPart p v).pkgKey = s.pkgKey := rfl

/-! ### State.modPart -/

@[simp] theorem State.modPart_cycle (s : State) (p : Nat) (f : Part → Part) : (s.modPart p f).cycle = s.cycle := rfl
@[simp] theorem State.modPart_agenda (s : State) (p : Nat) (f : Part → Part) : (s.modPart p f).agenda = s.agenda := rfl
@[simp] theorem State.modPart_core (s : State) (p : Nat) (f : Part → Part) : (s.modPart p f).core = s.core := rfl
@[simp] theorem State.modPart_ctx (s : State) (p : Nat) (f : Part → Part) : (s.modPart p f).ctx = s.ctx := rfl
@[simp] theorem State.modPart_ev (s : State) (p : Nat) (f : Part → Part) : (s.modPart p f).ev = s.ev := rfl
@[simp] theorem State.modPart_freeCnt (s : State) (p : Nat) (f : Part → Part) : (s.modPart p f).freeCnt = s.freeCnt := rfl
@[simp] theorem State.modPart_mem (s : State) (p : Nat) (f : Part → Part) : (s.modPart p f).mem = s.mem := rfl
@[simp] theorem State.modPart_lines (s : State) (p : Nat) (f : Part → Part) : (s.modPart p f).lines = s.lines := rfl
@[simp] theorem State.modPart_owners (s : State) (p : Nat) (f : Part → Part) : (s.modPart p f).owners = s.owners := rfl
@[simp] theorem State.modPart_invals (s : State) (p : Nat) (f : Part → Part) : (s.modPart p f).invals = s.invals := rfl
@[simp] theorem State.modPart_invSeq (s : State) (p : Nat) (f : Part → Part) : (s.modPart p f).invSeq = s.invSeq := rfl
@[simp] theorem State.modPart_l2Acc (s : State) (p : Nat) (f : Part → Part) : (s.modPart p f).l2Acc = s.l2Acc := rfl
@[simp] theorem State.modPart_l2Miss (s : State) (p : Nat) (f : Part → Part) : (s.modPart p f).l2Miss = s.l2Miss := rfl
@[simp] theorem State.modPart_hioQ (s : State) (p : Nat) (f : Part → Part) : (s.modPart p f).hioQ = s.hioQ := rfl
@[simp] theorem State.modPart_hioSeq (s : State) (p : Nat) (f : Part → Part) : (s.modPart p f).hioSeq = s.hioSeq := rfl
@[simp] theorem State.modPart_hioRefused (s : State) (p : Nat) (f : Part → Part) : (s.modPart p f).hioRefused = s.hioRefused := rfl
@[simp] theorem State.modPart_tags (s : State) (p : Nat) (f : Part → Part) : (s.modPart p f).tags = s.tags := rfl
@[simp] theorem State.modPart_scrubs (s : State) (p : Nat) (f : Part → Part) : (s.modPart p f).scrubs = s.scrubs := rfl
@[simp] theorem State.modPart_devQ (s : State) (p : Nat) (f : Part → Part) : (s.modPart p f).devQ = s.devQ := rfl
@[simp] theorem State.modPart_worlds (s : State) (p : Nat) (f : Part → Part) : (s.modPart p f).worlds = s.worlds := rfl
@[simp] theorem State.modPart_peers (s : State) (p : Nat) (f : Part → Part) : (s.modPart p f).peers = s.peers := rfl
@[simp] theorem State.modPart_clusters (s : State) (p : Nat) (f : Part → Part) : (s.modPart p f).clusters = s.clusters := rfl
@[simp] theorem State.modPart_quads (s : State) (p : Nat) (f : Part → Part) : (s.modPart p f).quads = s.quads := rfl
@[simp] theorem State.modPart_cores (s : State) (p : Nat) (f : Part → Part) : (s.modPart p f).cores = s.cores := rfl
@[simp] theorem State.modPart_hops (s : State) (p : Nat) (f : Part → Part) : (s.modPart p f).hops = s.hops := rfl
@[simp] theorem State.modPart_probes (s : State) (p : Nat) (f : Part → Part) : (s.modPart p f).probes = s.probes := rfl
@[simp] theorem State.modPart_gates (s : State) (p : Nat) (f : Part → Part) : (s.modPart p f).gates = s.gates := rfl
@[simp] theorem State.modPart_refills (s : State) (p : Nat) (f : Part → Part) : (s.modPart p f).refills = s.refills := rfl
@[simp] theorem State.modPart_gateMoves (s : State) (p : Nat) (f : Part → Part) : (s.modPart p f).gateMoves = s.gateMoves := rfl
@[simp] theorem State.modPart_rings (s : State) (p : Nat) (f : Part → Part) : (s.modPart p f).rings = s.rings := rfl
@[simp] theorem State.modPart_nextToken (s : State) (p : Nat) (f : Part → Part) : (s.modPart p f).nextToken = s.nextToken := rfl
@[simp] theorem State.modPart_esb (s : State) (p : Nat) (f : Part → Part) : (s.modPart p f).esb = s.esb := rfl
@[simp] theorem State.modPart_temps (s : State) (p : Nat) (f : Part → Part) : (s.modPart p f).temps = s.temps := rfl
@[simp] theorem State.modPart_hot (s : State) (p : Nat) (f : Part → Part) : (s.modPart p f).hot = s.hot := rfl
@[simp] theorem State.modPart_therm (s : State) (p : Nat) (f : Part → Part) : (s.modPart p f).therm = s.therm := rfl
@[simp] theorem State.modPart_gated (s : State) (p : Nat) (f : Part → Part) : (s.modPart p f).gated = s.gated := rfl
@[simp] theorem State.modPart_arrivals (s : State) (p : Nat) (f : Part → Part) : (s.modPart p f).arrivals = s.arrivals := rfl
@[simp] theorem State.modPart_pkgnum (s : State) (p : Nat) (f : Part → Part) : (s.modPart p f).pkgnum = s.pkgnum := rfl
@[simp] theorem State.modPart_board (s : State) (p : Nat) (f : Part → Part) : (s.modPart p f).board = s.board := rfl
@[simp] theorem State.modPart_slotA (s : State) (p : Nat) (f : Part → Part) : (s.modPart p f).slotA = s.slotA := rfl
@[simp] theorem State.modPart_slotB (s : State) (p : Nat) (f : Part → Part) : (s.modPart p f).slotB = s.slotB := rfl
@[simp] theorem State.modPart_marker0 (s : State) (p : Nat) (f : Part → Part) : (s.modPart p f).marker0 = s.marker0 := rfl
@[simp] theorem State.modPart_marker1 (s : State) (p : Nat) (f : Part → Part) : (s.modPart p f).marker1 = s.marker1 := rfl
@[simp] theorem State.modPart_booted (s : State) (p : Nat) (f : Part → Part) : (s.modPart p f).booted = s.booted := rfl
@[simp] theorem State.modPart_bootImage (s : State) (p : Nat) (f : Part → Part) : (s.modPart p f).bootImage = s.bootImage := rfl
@[simp] theorem State.modPart_pcie (s : State) (p : Nat) (f : Part → Part) : (s.modPart p f).pcie = s.pcie := rfl
@[simp] theorem State.modPart_links (s : State) (p : Nat) (f : Part → Part) : (s.modPart p f).links = s.links := rfl
@[simp] theorem State.modPart_cmdRing (s : State) (p : Nat) (f : Part → Part) : (s.modPart p f).cmdRing = s.cmdRing := rfl
@[simp] theorem State.modPart_ringPos (s : State) (p : Nat) (f : Part → Part) : (s.modPart p f).ringPos = s.ringPos := rfl
@[simp] theorem State.modPart_statReads (s : State) (p : Nat) (f : Part → Part) : (s.modPart p f).statReads = s.statReads := rfl
@[simp] theorem State.modPart_updated (s : State) (p : Nat) (f : Part → Part) : (s.modPart p f).updated = s.updated := rfl
@[simp] theorem State.modPart_draws (s : State) (p : Nat) (f : Part → Part) : (s.modPart p f).draws = s.draws := rfl
@[simp] theorem State.modPart_corrected (s : State) (p : Nat) (f : Part → Part) : (s.modPart p f).corrected = s.corrected := rfl
@[simp] theorem State.modPart_pkgKey (s : State) (p : Nat) (f : Part → Part) : (s.modPart p f).pkgKey = s.pkgKey := rfl

/-! ### State.modWorld -/

@[simp] theorem State.modWorld_cycle (s : State) (w : Nat) (f : World → World) : (s.modWorld w f).cycle = s.cycle := rfl
@[simp] theorem State.modWorld_agenda (s : State) (w : Nat) (f : World → World) : (s.modWorld w f).agenda = s.agenda := rfl
@[simp] theorem State.modWorld_core (s : State) (w : Nat) (f : World → World) : (s.modWorld w f).core = s.core := rfl
@[simp] theorem State.modWorld_ctx (s : State) (w : Nat) (f : World → World) : (s.modWorld w f).ctx = s.ctx := rfl
@[simp] theorem State.modWorld_ev (s : State) (w : Nat) (f : World → World) : (s.modWorld w f).ev = s.ev := rfl
@[simp] theorem State.modWorld_freeCnt (s : State) (w : Nat) (f : World → World) : (s.modWorld w f).freeCnt = s.freeCnt := rfl
@[simp] theorem State.modWorld_mem (s : State) (w : Nat) (f : World → World) : (s.modWorld w f).mem = s.mem := rfl
@[simp] theorem State.modWorld_lines (s : State) (w : Nat) (f : World → World) : (s.modWorld w f).lines = s.lines := rfl
@[simp] theorem State.modWorld_owners (s : State) (w : Nat) (f : World → World) : (s.modWorld w f).owners = s.owners := rfl
@[simp] theorem State.modWorld_invals (s : State) (w : Nat) (f : World → World) : (s.modWorld w f).invals = s.invals := rfl
@[simp] theorem State.modWorld_invSeq (s : State) (w : Nat) (f : World → World) : (s.modWorld w f).invSeq = s.invSeq := rfl
@[simp] theorem State.modWorld_l2Acc (s : State) (w : Nat) (f : World → World) : (s.modWorld w f).l2Acc = s.l2Acc := rfl
@[simp] theorem State.modWorld_l2Miss (s : State) (w : Nat) (f : World → World) : (s.modWorld w f).l2Miss = s.l2Miss := rfl
@[simp] theorem State.modWorld_hioQ (s : State) (w : Nat) (f : World → World) : (s.modWorld w f).hioQ = s.hioQ := rfl
@[simp] theorem State.modWorld_hioSeq (s : State) (w : Nat) (f : World → World) : (s.modWorld w f).hioSeq = s.hioSeq := rfl
@[simp] theorem State.modWorld_hioRefused (s : State) (w : Nat) (f : World → World) : (s.modWorld w f).hioRefused = s.hioRefused := rfl
@[simp] theorem State.modWorld_tags (s : State) (w : Nat) (f : World → World) : (s.modWorld w f).tags = s.tags := rfl
@[simp] theorem State.modWorld_scrubs (s : State) (w : Nat) (f : World → World) : (s.modWorld w f).scrubs = s.scrubs := rfl
@[simp] theorem State.modWorld_devQ (s : State) (w : Nat) (f : World → World) : (s.modWorld w f).devQ = s.devQ := rfl
@[simp] theorem State.modWorld_peers (s : State) (w : Nat) (f : World → World) : (s.modWorld w f).peers = s.peers := rfl
@[simp] theorem State.modWorld_clusters (s : State) (w : Nat) (f : World → World) : (s.modWorld w f).clusters = s.clusters := rfl
@[simp] theorem State.modWorld_quads (s : State) (w : Nat) (f : World → World) : (s.modWorld w f).quads = s.quads := rfl
@[simp] theorem State.modWorld_cores (s : State) (w : Nat) (f : World → World) : (s.modWorld w f).cores = s.cores := rfl
@[simp] theorem State.modWorld_hops (s : State) (w : Nat) (f : World → World) : (s.modWorld w f).hops = s.hops := rfl
@[simp] theorem State.modWorld_parts (s : State) (w : Nat) (f : World → World) : (s.modWorld w f).parts = s.parts := rfl
@[simp] theorem State.modWorld_probes (s : State) (w : Nat) (f : World → World) : (s.modWorld w f).probes = s.probes := rfl
@[simp] theorem State.modWorld_gates (s : State) (w : Nat) (f : World → World) : (s.modWorld w f).gates = s.gates := rfl
@[simp] theorem State.modWorld_refills (s : State) (w : Nat) (f : World → World) : (s.modWorld w f).refills = s.refills := rfl
@[simp] theorem State.modWorld_gateMoves (s : State) (w : Nat) (f : World → World) : (s.modWorld w f).gateMoves = s.gateMoves := rfl
@[simp] theorem State.modWorld_rings (s : State) (w : Nat) (f : World → World) : (s.modWorld w f).rings = s.rings := rfl
@[simp] theorem State.modWorld_nextToken (s : State) (w : Nat) (f : World → World) : (s.modWorld w f).nextToken = s.nextToken := rfl
@[simp] theorem State.modWorld_esb (s : State) (w : Nat) (f : World → World) : (s.modWorld w f).esb = s.esb := rfl
@[simp] theorem State.modWorld_temps (s : State) (w : Nat) (f : World → World) : (s.modWorld w f).temps = s.temps := rfl
@[simp] theorem State.modWorld_hot (s : State) (w : Nat) (f : World → World) : (s.modWorld w f).hot = s.hot := rfl
@[simp] theorem State.modWorld_therm (s : State) (w : Nat) (f : World → World) : (s.modWorld w f).therm = s.therm := rfl
@[simp] theorem State.modWorld_gated (s : State) (w : Nat) (f : World → World) : (s.modWorld w f).gated = s.gated := rfl
@[simp] theorem State.modWorld_arrivals (s : State) (w : Nat) (f : World → World) : (s.modWorld w f).arrivals = s.arrivals := rfl
@[simp] theorem State.modWorld_pkgnum (s : State) (w : Nat) (f : World → World) : (s.modWorld w f).pkgnum = s.pkgnum := rfl
@[simp] theorem State.modWorld_board (s : State) (w : Nat) (f : World → World) : (s.modWorld w f).board = s.board := rfl
@[simp] theorem State.modWorld_slotA (s : State) (w : Nat) (f : World → World) : (s.modWorld w f).slotA = s.slotA := rfl
@[simp] theorem State.modWorld_slotB (s : State) (w : Nat) (f : World → World) : (s.modWorld w f).slotB = s.slotB := rfl
@[simp] theorem State.modWorld_marker0 (s : State) (w : Nat) (f : World → World) : (s.modWorld w f).marker0 = s.marker0 := rfl
@[simp] theorem State.modWorld_marker1 (s : State) (w : Nat) (f : World → World) : (s.modWorld w f).marker1 = s.marker1 := rfl
@[simp] theorem State.modWorld_booted (s : State) (w : Nat) (f : World → World) : (s.modWorld w f).booted = s.booted := rfl
@[simp] theorem State.modWorld_bootImage (s : State) (w : Nat) (f : World → World) : (s.modWorld w f).bootImage = s.bootImage := rfl
@[simp] theorem State.modWorld_pcie (s : State) (w : Nat) (f : World → World) : (s.modWorld w f).pcie = s.pcie := rfl
@[simp] theorem State.modWorld_links (s : State) (w : Nat) (f : World → World) : (s.modWorld w f).links = s.links := rfl
@[simp] theorem State.modWorld_cmdRing (s : State) (w : Nat) (f : World → World) : (s.modWorld w f).cmdRing = s.cmdRing := rfl
@[simp] theorem State.modWorld_ringPos (s : State) (w : Nat) (f : World → World) : (s.modWorld w f).ringPos = s.ringPos := rfl
@[simp] theorem State.modWorld_statReads (s : State) (w : Nat) (f : World → World) : (s.modWorld w f).statReads = s.statReads := rfl
@[simp] theorem State.modWorld_updated (s : State) (w : Nat) (f : World → World) : (s.modWorld w f).updated = s.updated := rfl
@[simp] theorem State.modWorld_draws (s : State) (w : Nat) (f : World → World) : (s.modWorld w f).draws = s.draws := rfl
@[simp] theorem State.modWorld_corrected (s : State) (w : Nat) (f : World → World) : (s.modWorld w f).corrected = s.corrected := rfl
@[simp] theorem State.modWorld_pkgKey (s : State) (w : Nat) (f : World → World) : (s.modWorld w f).pkgKey = s.pkgKey := rfl

/-! ### CoreSt.setCtx -/

@[simp] theorem CoreSt.setCtx_ctxs (c : CoreSt) (x : Fin 16) (v : Ctx) : (c.setCtx x v).ctxs = c.ctxs.set x v := rfl
@[simp] theorem CoreSt.setCtx_pad (c : CoreSt) (x : Fin 16) (v : Ctx) : (c.setCtx x v).pad = c.pad := rfl
@[simp] theorem CoreSt.setCtx_tiles (c : CoreSt) (x : Fin 16) (v : Ctx) : (c.setCtx x v).tiles = c.tiles := rfl
@[simp] theorem CoreSt.setCtx_dcache (c : CoreSt) (x : Fin 16) (v : Ctx) : (c.setCtx x v).dcache = c.dcache := rfl
@[simp] theorem CoreSt.setCtx_dstamp (c : CoreSt) (x : Fin 16) (v : Ctx) : (c.setCtx x v).dstamp = c.dstamp := rfl
@[simp] theorem CoreSt.setCtx_sb (c : CoreSt) (x : Fin 16) (v : Ctx) : (c.setCtx x v).sb = c.sb := rfl
@[simp] theorem CoreSt.setCtx_sbSeq (c : CoreSt) (x : Fin 16) (v : Ctx) : (c.setCtx x v).sbSeq = c.sbSeq := rfl
@[simp] theorem CoreSt.setCtx_sfq (c : CoreSt) (x : Fin 16) (v : Ctx) : (c.setCtx x v).sfq = c.sfq := rfl
@[simp] theorem CoreSt.setCtx_win (c : CoreSt) (x : Fin 16) (v : Ctx) : (c.setCtx x v).win = c.win := rfl
@[simp] theorem CoreSt.setCtx_chans (c : CoreSt) (x : Fin 16) (v : Ctx) : (c.setCtx x v).chans = c.chans := rfl
@[simp] theorem CoreSt.setCtx_chanQ (c : CoreSt) (x : Fin 16) (v : Ctx) : (c.setCtx x v).chanQ = c.chanQ := rfl
@[simp] theorem CoreSt.setCtx_tvec (c : CoreSt) (x : Fin 16) (v : Ctx) : (c.setCtx x v).tvec = c.tvec := rfl
@[simp] theorem CoreSt.setCtx_tepc (c : CoreSt) (x : Fin 16) (v : Ctx) : (c.setCtx x v).tepc = c.tepc := rfl
@[simp] theorem CoreSt.setCtx_tact (c : CoreSt) (x : Fin 16) (v : Ctx) : (c.setCtx x v).tact = c.tact := rfl
@[simp] theorem CoreSt.setCtx_tpend (c : CoreSt) (x : Fin 16) (v : Ctx) : (c.setCtx x v).tpend = c.tpend := rfl
@[simp] theorem CoreSt.setCtx_tsel (c : CoreSt) (x : Fin 16) (v : Ctx) : (c.setCtx x v).tsel = c.tsel := rfl
@[simp] theorem CoreSt.setCtx_tpc (c : CoreSt) (x : Fin 16) (v : Ctx) : (c.setCtx x v).tpc = c.tpc := rfl
@[simp] theorem CoreSt.setCtx_tscr (c : CoreSt) (x : Fin 16) (v : Ctx) : (c.setCtx x v).tscr = c.tscr := rfl
@[simp] theorem CoreSt.setCtx_slots (c : CoreSt) (x : Fin 16) (v : Ctx) : (c.setCtx x v).slots = c.slots := rfl
@[simp] theorem CoreSt.setCtx_acc (c : CoreSt) (x : Fin 16) (v : Ctx) : (c.setCtx x v).acc = c.acc := rfl
@[simp] theorem CoreSt.setCtx_copyQ (c : CoreSt) (x : Fin 16) (v : Ctx) : (c.setCtx x v).copyQ = c.copyQ := rfl
@[simp] theorem CoreSt.setCtx_copyId (c : CoreSt) (x : Fin 16) (v : Ctx) : (c.setCtx x v).copyId = c.copyId := rfl
@[simp] theorem CoreSt.setCtx_copyStat (c : CoreSt) (x : Fin 16) (v : Ctx) : (c.setCtx x v).copyStat = c.copyStat := rfl
@[simp] theorem CoreSt.setCtx_mxQ (c : CoreSt) (x : Fin 16) (v : Ctx) : (c.setCtx x v).mxQ = c.mxQ := rfl
@[simp] theorem CoreSt.setCtx_mxId (c : CoreSt) (x : Fin 16) (v : Ctx) : (c.setCtx x v).mxId = c.mxId := rfl
@[simp] theorem CoreSt.setCtx_mxStat (c : CoreSt) (x : Fin 16) (v : Ctx) : (c.setCtx x v).mxStat = c.mxStat := rfl
@[simp] theorem CoreSt.setCtx_mxEnded (c : CoreSt) (x : Fin 16) (v : Ctx) : (c.setCtx x v).mxEnded = c.mxEnded := rfl
@[simp] theorem CoreSt.setCtx_lastIssuer (c : CoreSt) (x : Fin 16) (v : Ctx) : (c.setCtx x v).lastIssuer = c.lastIssuer := rfl
@[simp] theorem CoreSt.setCtx_issuedAt (c : CoreSt) (x : Fin 16) (v : Ctx) : (c.setCtx x v).issuedAt = c.issuedAt := rfl
@[simp] theorem CoreSt.setCtx_tkeep (c : CoreSt) (x : Fin 16) (v : Ctx) : (c.setCtx x v).tkeep = c.tkeep := rfl
@[simp] theorem CoreSt.setCtx_fallen (c : CoreSt) (x : Fin 16) (v : Ctx) : (c.setCtx x v).fallen = c.fallen := rfl
@[simp] theorem CoreSt.setCtx_falling (c : CoreSt) (x : Fin 16) (v : Ctx) : (c.setCtx x v).falling = c.falling := rfl
@[simp] theorem CoreSt.setCtx_stopping (c : CoreSt) (x : Fin 16) (v : Ctx) : (c.setCtx x v).stopping = c.stopping := rfl
@[simp] theorem CoreSt.setCtx_away (c : CoreSt) (x : Fin 16) (v : Ctx) : (c.setCtx x v).away = c.away := rfl
@[simp] theorem CoreSt.setCtx_inbox (c : CoreSt) (x : Fin 16) (v : Ctx) : (c.setCtx x v).inbox = c.inbox := rfl
@[simp] theorem CoreSt.setCtx_launch (c : CoreSt) (x : Fin 16) (v : Ctx) : (c.setCtx x v).launch = c.launch := rfl
@[simp] theorem CoreSt.setCtx_lwave (c : CoreSt) (x : Fin 16) (v : Ctx) : (c.setCtx x v).lwave = c.lwave := rfl
@[simp] theorem CoreSt.setCtx_halted (c : CoreSt) (x : Fin 16) (v : Ctx) : (c.setCtx x v).halted = c.halted := rfl

/-! ### Ctx.setG -/

@[simp] theorem Ctx.setG_st (c : Ctx) (r : Reg) (v : W) : (c.setG r v).st = c.st := rfl
@[simp] theorem Ctx.setG_park (c : Ctx) (r : Reg) (v : W) : (c.setG r v).park = c.park := rfl
@[simp] theorem Ctx.setG_notBefore (c : Ctx) (r : Reg) (v : W) : (c.setG r v).notBefore = c.notBefore := rfl
@[simp] theorem Ctx.setG_yields (c : Ctx) (r : Reg) (v : W) : (c.setG r v).yields = c.yields := rfl
@[simp] theorem Ctx.setG_pc (c : Ctx) (r : Reg) (v : W) : (c.setG r v).pc = c.pc := rfl
@[simp] theorem Ctx.setG_iword (c : Ctx) (r : Reg) (v : W) : (c.setG r v).iword = c.iword := rfl
@[simp] theorem Ctx.setG_g (c : Ctx) (r : Reg) (v : W) : (c.setG r v).g = c.g.set r v := rfl
@[simp] theorem Ctx.setG_full (c : Ctx) (r : Reg) (v : W) : (c.setG r v).full = c.full ||| (1#16 <<< r.val) := rfl
@[simp] theorem Ctx.setG_k (c : Ctx) (r : Reg) (v : W) : (c.setG r v).k = c.k := rfl
@[simp] theorem Ctx.setG_sgb (c : Ctx) (r : Reg) (v : W) : (c.setG r v).sgb = c.sgb := rfl
@[simp] theorem Ctx.setG_sgl (c : Ctx) (r : Reg) (v : W) : (c.setG r v).sgl = c.sgl := rfl
@[simp] theorem Ctx.setG_clamped (c : Ctx) (r : Reg) (v : W) : (c.setG r v).clamped = c.clamped := rfl
@[simp] theorem Ctx.setG_gydonMode (c : Ctx) (r : Reg) (v : W) : (c.setG r v).gydonMode = c.gydonMode := rfl
@[simp] theorem Ctx.setG_trace (c : Ctx) (r : Reg) (v : W) : (c.setG r v).trace = c.trace := rfl
@[simp] theorem Ctx.setG_gang (c : Ctx) (r : Reg) (v : W) : (c.setG r v).gang = c.gang := rfl
@[simp] theorem Ctx.setG_gangOld (c : Ctx) (r : Reg) (v : W) : (c.setG r v).gangOld = c.gangOld := rfl
@[simp] theorem Ctx.setG_gword (c : Ctx) (r : Reg) (v : W) : (c.setG r v).gword = c.gword := rfl
@[simp] theorem Ctx.setG_gout (c : Ctx) (r : Reg) (v : W) : (c.setG r v).gout = c.gout := rfl
@[simp] theorem Ctx.setG_fpc (c : Ctx) (r : Reg) (v : W) : (c.setG r v).fpc = c.fpc := rfl
@[simp] theorem Ctx.setG_geom (c : Ctx) (r : Reg) (v : W) : (c.setG r v).geom = c.geom := rfl
@[simp] theorem Ctx.setG_rstk (c : Ctx) (r : Reg) (v : W) : (c.setG r v).rstk = c.rstk := rfl
@[simp] theorem Ctx.setG_sc (c : Ctx) (r : Reg) (v : W) : (c.setG r v).sc = c.sc := rfl
@[simp] theorem Ctx.setG_ports (c : Ctx) (r : Reg) (v : W) : (c.setG r v).ports = c.ports := rfl
@[simp] theorem Ctx.setG_trm (c : Ctx) (r : Reg) (v : W) : (c.setG r v).trm = c.trm := rfl
@[simp] theorem Ctx.setG_gth (c : Ctx) (r : Reg) (v : W) : (c.setG r v).gth = c.gth := rfl
@[simp] theorem Ctx.setG_cnt (c : Ctx) (r : Reg) (v : W) : (c.setG r v).cnt = c.cnt := rfl
@[simp] theorem Ctx.setG_pendWake (c : Ctx) (r : Reg) (v : W) : (c.setG r v).pendWake = c.pendWake := rfl
@[simp] theorem Ctx.setG_token (c : Ctx) (r : Reg) (v : W) : (c.setG r v).token = c.token := rfl
@[simp] theorem Ctx.setG_deadline (c : Ctx) (r : Reg) (v : W) : (c.setG r v).deadline = c.deadline := rfl
@[simp] theorem Ctx.setG_parkedAt (c : Ctx) (r : Reg) (v : W) : (c.setG r v).parkedAt = c.parkedAt := rfl
@[simp] theorem Ctx.setG_comp (c : Ctx) (r : Reg) (v : W) : (c.setG r v).comp = c.comp := rfl
@[simp] theorem Ctx.setG_role (c : Ctx) (r : Reg) (v : W) : (c.setG r v).role = c.role := rfl
@[simp] theorem Ctx.setG_reads (c : Ctx) (r : Reg) (v : W) : (c.setG r v).reads = c.reads := rfl
@[simp] theorem Ctx.setG_req (c : Ctx) (r : Reg) (v : W) : (c.setG r v).req = c.req := rfl
@[simp] theorem Ctx.setG_undo (c : Ctx) (r : Reg) (v : W) : (c.setG r v).undo = c.undo := rfl
@[simp] theorem Ctx.setG_prog (c : Ctx) (r : Reg) (v : W) : (c.setG r v).prog = c.prog := rfl
@[simp] theorem Ctx.setG_observed (c : Ctx) (r : Reg) (v : W) : (c.setG r v).observed = c.observed := rfl
@[simp] theorem Ctx.setG_cores (c : Ctx) (r : Reg) (v : W) : (c.setG r v).cores = c.cores := rfl
@[simp] theorem Ctx.setG_draining (c : Ctx) (r : Reg) (v : W) : (c.setG r v).draining = c.draining := rfl
@[simp] theorem Ctx.setG_giveUp (c : Ctx) (r : Reg) (v : W) : (c.setG r v).giveUp = c.giveUp := rfl
@[simp] theorem Ctx.setG_entryWait (c : Ctx) (r : Reg) (v : W) : (c.setG r v).entryWait = c.entryWait := rfl
@[simp] theorem Ctx.setG_step (c : Ctx) (r : Reg) (v : W) : (c.setG r v).step = c.step := rfl
@[simp] theorem Ctx.setG_back (c : Ctx) (r : Reg) (v : W) : (c.setG r v).back = c.back := rfl
@[simp] theorem Ctx.setG_aside (c : Ctx) (r : Reg) (v : W) : (c.setG r v).aside = c.aside := rfl
@[simp] theorem Ctx.setG_later (c : Ctx) (r : Reg) (v : W) : (c.setG r v).later = c.later := rfl
@[simp] theorem Ctx.setG_gangLost (c : Ctx) (r : Reg) (v : W) : (c.setG r v).gangLost = c.gangLost := rfl
@[simp] theorem Ctx.setG_fresh (c : Ctx) (r : Reg) (v : W) : (c.setG r v).fresh = c.fresh := rfl
@[simp] theorem Ctx.setG_reaping (c : Ctx) (r : Reg) (v : W) : (c.setG r v).reaping = c.reaping := rfl
@[simp] theorem Ctx.setG_gyd (c : Ctx) (r : Reg) (v : W) : (c.setG r v).gyd = c.gyd := rfl

/-! ### Ctx.clearFull -/

@[simp] theorem Ctx.clearFull_st (c : Ctx) (r : Reg) : (c.clearFull r).st = c.st := rfl
@[simp] theorem Ctx.clearFull_park (c : Ctx) (r : Reg) : (c.clearFull r).park = c.park := rfl
@[simp] theorem Ctx.clearFull_notBefore (c : Ctx) (r : Reg) : (c.clearFull r).notBefore = c.notBefore := rfl
@[simp] theorem Ctx.clearFull_yields (c : Ctx) (r : Reg) : (c.clearFull r).yields = c.yields := rfl
@[simp] theorem Ctx.clearFull_pc (c : Ctx) (r : Reg) : (c.clearFull r).pc = c.pc := rfl
@[simp] theorem Ctx.clearFull_iword (c : Ctx) (r : Reg) : (c.clearFull r).iword = c.iword := rfl
@[simp] theorem Ctx.clearFull_g (c : Ctx) (r : Reg) : (c.clearFull r).g = c.g := rfl
@[simp] theorem Ctx.clearFull_full (c : Ctx) (r : Reg) : (c.clearFull r).full = c.full &&& ~~~(1#16 <<< r.val) := rfl
@[simp] theorem Ctx.clearFull_k (c : Ctx) (r : Reg) : (c.clearFull r).k = c.k := rfl
@[simp] theorem Ctx.clearFull_sgb (c : Ctx) (r : Reg) : (c.clearFull r).sgb = c.sgb := rfl
@[simp] theorem Ctx.clearFull_sgl (c : Ctx) (r : Reg) : (c.clearFull r).sgl = c.sgl := rfl
@[simp] theorem Ctx.clearFull_clamped (c : Ctx) (r : Reg) : (c.clearFull r).clamped = c.clamped := rfl
@[simp] theorem Ctx.clearFull_gydonMode (c : Ctx) (r : Reg) : (c.clearFull r).gydonMode = c.gydonMode := rfl
@[simp] theorem Ctx.clearFull_trace (c : Ctx) (r : Reg) : (c.clearFull r).trace = c.trace := rfl
@[simp] theorem Ctx.clearFull_gang (c : Ctx) (r : Reg) : (c.clearFull r).gang = c.gang := rfl
@[simp] theorem Ctx.clearFull_gangOld (c : Ctx) (r : Reg) : (c.clearFull r).gangOld = c.gangOld := rfl
@[simp] theorem Ctx.clearFull_gword (c : Ctx) (r : Reg) : (c.clearFull r).gword = c.gword := rfl
@[simp] theorem Ctx.clearFull_gout (c : Ctx) (r : Reg) : (c.clearFull r).gout = c.gout := rfl
@[simp] theorem Ctx.clearFull_fpc (c : Ctx) (r : Reg) : (c.clearFull r).fpc = c.fpc := rfl
@[simp] theorem Ctx.clearFull_geom (c : Ctx) (r : Reg) : (c.clearFull r).geom = c.geom := rfl
@[simp] theorem Ctx.clearFull_rstk (c : Ctx) (r : Reg) : (c.clearFull r).rstk = c.rstk := rfl
@[simp] theorem Ctx.clearFull_sc (c : Ctx) (r : Reg) : (c.clearFull r).sc = c.sc := rfl
@[simp] theorem Ctx.clearFull_ports (c : Ctx) (r : Reg) : (c.clearFull r).ports = c.ports := rfl
@[simp] theorem Ctx.clearFull_trm (c : Ctx) (r : Reg) : (c.clearFull r).trm = c.trm := rfl
@[simp] theorem Ctx.clearFull_gth (c : Ctx) (r : Reg) : (c.clearFull r).gth = c.gth := rfl
@[simp] theorem Ctx.clearFull_cnt (c : Ctx) (r : Reg) : (c.clearFull r).cnt = c.cnt := rfl
@[simp] theorem Ctx.clearFull_pendWake (c : Ctx) (r : Reg) : (c.clearFull r).pendWake = c.pendWake := rfl
@[simp] theorem Ctx.clearFull_token (c : Ctx) (r : Reg) : (c.clearFull r).token = c.token := rfl
@[simp] theorem Ctx.clearFull_deadline (c : Ctx) (r : Reg) : (c.clearFull r).deadline = c.deadline := rfl
@[simp] theorem Ctx.clearFull_parkedAt (c : Ctx) (r : Reg) : (c.clearFull r).parkedAt = c.parkedAt := rfl
@[simp] theorem Ctx.clearFull_comp (c : Ctx) (r : Reg) : (c.clearFull r).comp = c.comp := rfl
@[simp] theorem Ctx.clearFull_role (c : Ctx) (r : Reg) : (c.clearFull r).role = c.role := rfl
@[simp] theorem Ctx.clearFull_reads (c : Ctx) (r : Reg) : (c.clearFull r).reads = c.reads := rfl
@[simp] theorem Ctx.clearFull_req (c : Ctx) (r : Reg) : (c.clearFull r).req = c.req := rfl
@[simp] theorem Ctx.clearFull_undo (c : Ctx) (r : Reg) : (c.clearFull r).undo = c.undo := rfl
@[simp] theorem Ctx.clearFull_prog (c : Ctx) (r : Reg) : (c.clearFull r).prog = c.prog := rfl
@[simp] theorem Ctx.clearFull_observed (c : Ctx) (r : Reg) : (c.clearFull r).observed = c.observed := rfl
@[simp] theorem Ctx.clearFull_cores (c : Ctx) (r : Reg) : (c.clearFull r).cores = c.cores := rfl
@[simp] theorem Ctx.clearFull_draining (c : Ctx) (r : Reg) : (c.clearFull r).draining = c.draining := rfl
@[simp] theorem Ctx.clearFull_giveUp (c : Ctx) (r : Reg) : (c.clearFull r).giveUp = c.giveUp := rfl
@[simp] theorem Ctx.clearFull_entryWait (c : Ctx) (r : Reg) : (c.clearFull r).entryWait = c.entryWait := rfl
@[simp] theorem Ctx.clearFull_step (c : Ctx) (r : Reg) : (c.clearFull r).step = c.step := rfl
@[simp] theorem Ctx.clearFull_back (c : Ctx) (r : Reg) : (c.clearFull r).back = c.back := rfl
@[simp] theorem Ctx.clearFull_aside (c : Ctx) (r : Reg) : (c.clearFull r).aside = c.aside := rfl
@[simp] theorem Ctx.clearFull_later (c : Ctx) (r : Reg) : (c.clearFull r).later = c.later := rfl
@[simp] theorem Ctx.clearFull_gangLost (c : Ctx) (r : Reg) : (c.clearFull r).gangLost = c.gangLost := rfl
@[simp] theorem Ctx.clearFull_fresh (c : Ctx) (r : Reg) : (c.clearFull r).fresh = c.fresh := rfl
@[simp] theorem Ctx.clearFull_reaping (c : Ctx) (r : Reg) : (c.clearFull r).reaping = c.reaping := rfl
@[simp] theorem Ctx.clearFull_gyd (c : Ctx) (r : Reg) : (c.clearFull r).gyd = c.gyd := rfl

/-! ### Ctx.setMask -/

@[simp] theorem Ctx.setMask_st (c : Ctx) (r : Reg) (v : BitVec 8) : (c.setMask r v).st = c.st := rfl
@[simp] theorem Ctx.setMask_park (c : Ctx) (r : Reg) (v : BitVec 8) : (c.setMask r v).park = c.park := rfl
@[simp] theorem Ctx.setMask_notBefore (c : Ctx) (r : Reg) (v : BitVec 8) : (c.setMask r v).notBefore = c.notBefore := rfl
@[simp] theorem Ctx.setMask_yields (c : Ctx) (r : Reg) (v : BitVec 8) : (c.setMask r v).yields = c.yields := rfl
@[simp] theorem Ctx.setMask_pc (c : Ctx) (r : Reg) (v : BitVec 8) : (c.setMask r v).pc = c.pc := rfl
@[simp] theorem Ctx.setMask_iword (c : Ctx) (r : Reg) (v : BitVec 8) : (c.setMask r v).iword = c.iword := rfl
@[simp] theorem Ctx.setMask_g (c : Ctx) (r : Reg) (v : BitVec 8) : (c.setMask r v).g = c.g := rfl
@[simp] theorem Ctx.setMask_full (c : Ctx) (r : Reg) (v : BitVec 8) : (c.setMask r v).full = c.full := rfl
@[simp] theorem Ctx.setMask_k (c : Ctx) (r : Reg) (v : BitVec 8) : (c.setMask r v).k = c.k.set (Fin.ofNat 4 r.val) v := rfl
@[simp] theorem Ctx.setMask_sgb (c : Ctx) (r : Reg) (v : BitVec 8) : (c.setMask r v).sgb = c.sgb := rfl
@[simp] theorem Ctx.setMask_sgl (c : Ctx) (r : Reg) (v : BitVec 8) : (c.setMask r v).sgl = c.sgl := rfl
@[simp] theorem Ctx.setMask_clamped (c : Ctx) (r : Reg) (v : BitVec 8) : (c.setMask r v).clamped = c.clamped := rfl
@[simp] theorem Ctx.setMask_gydonMode (c : Ctx) (r : Reg) (v : BitVec 8) : (c.setMask r v).gydonMode = c.gydonMode := rfl
@[simp] theorem Ctx.setMask_trace (c : Ctx) (r : Reg) (v : BitVec 8) : (c.setMask r v).trace = c.trace := rfl
@[simp] theorem Ctx.setMask_gang (c : Ctx) (r : Reg) (v : BitVec 8) : (c.setMask r v).gang = c.gang := rfl
@[simp] theorem Ctx.setMask_gangOld (c : Ctx) (r : Reg) (v : BitVec 8) : (c.setMask r v).gangOld = c.gangOld := rfl
@[simp] theorem Ctx.setMask_gword (c : Ctx) (r : Reg) (v : BitVec 8) : (c.setMask r v).gword = c.gword := rfl
@[simp] theorem Ctx.setMask_gout (c : Ctx) (r : Reg) (v : BitVec 8) : (c.setMask r v).gout = c.gout := rfl
@[simp] theorem Ctx.setMask_fpc (c : Ctx) (r : Reg) (v : BitVec 8) : (c.setMask r v).fpc = c.fpc := rfl
@[simp] theorem Ctx.setMask_geom (c : Ctx) (r : Reg) (v : BitVec 8) : (c.setMask r v).geom = c.geom := rfl
@[simp] theorem Ctx.setMask_rstk (c : Ctx) (r : Reg) (v : BitVec 8) : (c.setMask r v).rstk = c.rstk := rfl
@[simp] theorem Ctx.setMask_sc (c : Ctx) (r : Reg) (v : BitVec 8) : (c.setMask r v).sc = c.sc := rfl
@[simp] theorem Ctx.setMask_ports (c : Ctx) (r : Reg) (v : BitVec 8) : (c.setMask r v).ports = c.ports := rfl
@[simp] theorem Ctx.setMask_trm (c : Ctx) (r : Reg) (v : BitVec 8) : (c.setMask r v).trm = c.trm := rfl
@[simp] theorem Ctx.setMask_gth (c : Ctx) (r : Reg) (v : BitVec 8) : (c.setMask r v).gth = c.gth := rfl
@[simp] theorem Ctx.setMask_cnt (c : Ctx) (r : Reg) (v : BitVec 8) : (c.setMask r v).cnt = c.cnt := rfl
@[simp] theorem Ctx.setMask_pendWake (c : Ctx) (r : Reg) (v : BitVec 8) : (c.setMask r v).pendWake = c.pendWake := rfl
@[simp] theorem Ctx.setMask_token (c : Ctx) (r : Reg) (v : BitVec 8) : (c.setMask r v).token = c.token := rfl
@[simp] theorem Ctx.setMask_deadline (c : Ctx) (r : Reg) (v : BitVec 8) : (c.setMask r v).deadline = c.deadline := rfl
@[simp] theorem Ctx.setMask_parkedAt (c : Ctx) (r : Reg) (v : BitVec 8) : (c.setMask r v).parkedAt = c.parkedAt := rfl
@[simp] theorem Ctx.setMask_comp (c : Ctx) (r : Reg) (v : BitVec 8) : (c.setMask r v).comp = c.comp := rfl
@[simp] theorem Ctx.setMask_role (c : Ctx) (r : Reg) (v : BitVec 8) : (c.setMask r v).role = c.role := rfl
@[simp] theorem Ctx.setMask_reads (c : Ctx) (r : Reg) (v : BitVec 8) : (c.setMask r v).reads = c.reads := rfl
@[simp] theorem Ctx.setMask_req (c : Ctx) (r : Reg) (v : BitVec 8) : (c.setMask r v).req = c.req := rfl
@[simp] theorem Ctx.setMask_undo (c : Ctx) (r : Reg) (v : BitVec 8) : (c.setMask r v).undo = c.undo := rfl
@[simp] theorem Ctx.setMask_prog (c : Ctx) (r : Reg) (v : BitVec 8) : (c.setMask r v).prog = c.prog := rfl
@[simp] theorem Ctx.setMask_observed (c : Ctx) (r : Reg) (v : BitVec 8) : (c.setMask r v).observed = c.observed := rfl
@[simp] theorem Ctx.setMask_cores (c : Ctx) (r : Reg) (v : BitVec 8) : (c.setMask r v).cores = c.cores := rfl
@[simp] theorem Ctx.setMask_draining (c : Ctx) (r : Reg) (v : BitVec 8) : (c.setMask r v).draining = c.draining := rfl
@[simp] theorem Ctx.setMask_giveUp (c : Ctx) (r : Reg) (v : BitVec 8) : (c.setMask r v).giveUp = c.giveUp := rfl
@[simp] theorem Ctx.setMask_entryWait (c : Ctx) (r : Reg) (v : BitVec 8) : (c.setMask r v).entryWait = c.entryWait := rfl
@[simp] theorem Ctx.setMask_step (c : Ctx) (r : Reg) (v : BitVec 8) : (c.setMask r v).step = c.step := rfl
@[simp] theorem Ctx.setMask_back (c : Ctx) (r : Reg) (v : BitVec 8) : (c.setMask r v).back = c.back := rfl
@[simp] theorem Ctx.setMask_aside (c : Ctx) (r : Reg) (v : BitVec 8) : (c.setMask r v).aside = c.aside := rfl
@[simp] theorem Ctx.setMask_later (c : Ctx) (r : Reg) (v : BitVec 8) : (c.setMask r v).later = c.later := rfl
@[simp] theorem Ctx.setMask_gangLost (c : Ctx) (r : Reg) (v : BitVec 8) : (c.setMask r v).gangLost = c.gangLost := rfl
@[simp] theorem Ctx.setMask_fresh (c : Ctx) (r : Reg) (v : BitVec 8) : (c.setMask r v).fresh = c.fresh := rfl
@[simp] theorem Ctx.setMask_reaping (c : Ctx) (r : Reg) (v : BitVec 8) : (c.setMask r v).reaping = c.reaping := rfl
@[simp] theorem Ctx.setMask_gyd (c : Ctx) (r : Reg) (v : BitVec 8) : (c.setMask r v).gyd = c.gyd := rfl

/-! ### Ctx.advance -/

@[simp] theorem Ctx.advance_st (c : Ctx) (n : Nat) : (c.advance n).st = c.st := rfl
@[simp] theorem Ctx.advance_park (c : Ctx) (n : Nat) : (c.advance n).park = c.park := rfl
@[simp] theorem Ctx.advance_notBefore (c : Ctx) (n : Nat) : (c.advance n).notBefore = c.notBefore := rfl
@[simp] theorem Ctx.advance_yields (c : Ctx) (n : Nat) : (c.advance n).yields = c.yields := rfl
@[simp] theorem Ctx.advance_pc (c : Ctx) (n : Nat) : (c.advance n).pc = c.pc + .ofNat 64 n := rfl
@[simp] theorem Ctx.advance_iword (c : Ctx) (n : Nat) : (c.advance n).iword = c.iword := rfl
@[simp] theorem Ctx.advance_g (c : Ctx) (n : Nat) : (c.advance n).g = c.g := rfl
@[simp] theorem Ctx.advance_full (c : Ctx) (n : Nat) : (c.advance n).full = c.full := rfl
@[simp] theorem Ctx.advance_k (c : Ctx) (n : Nat) : (c.advance n).k = c.k := rfl
@[simp] theorem Ctx.advance_sgb (c : Ctx) (n : Nat) : (c.advance n).sgb = c.sgb := rfl
@[simp] theorem Ctx.advance_sgl (c : Ctx) (n : Nat) : (c.advance n).sgl = c.sgl := rfl
@[simp] theorem Ctx.advance_clamped (c : Ctx) (n : Nat) : (c.advance n).clamped = c.clamped := rfl
@[simp] theorem Ctx.advance_gydonMode (c : Ctx) (n : Nat) : (c.advance n).gydonMode = c.gydonMode := rfl
@[simp] theorem Ctx.advance_trace (c : Ctx) (n : Nat) : (c.advance n).trace = c.trace := rfl
@[simp] theorem Ctx.advance_gang (c : Ctx) (n : Nat) : (c.advance n).gang = c.gang := rfl
@[simp] theorem Ctx.advance_gangOld (c : Ctx) (n : Nat) : (c.advance n).gangOld = c.gangOld := rfl
@[simp] theorem Ctx.advance_gword (c : Ctx) (n : Nat) : (c.advance n).gword = c.gword := rfl
@[simp] theorem Ctx.advance_gout (c : Ctx) (n : Nat) : (c.advance n).gout = c.gout := rfl
@[simp] theorem Ctx.advance_fpc (c : Ctx) (n : Nat) : (c.advance n).fpc = c.fpc := rfl
@[simp] theorem Ctx.advance_geom (c : Ctx) (n : Nat) : (c.advance n).geom = c.geom := rfl
@[simp] theorem Ctx.advance_rstk (c : Ctx) (n : Nat) : (c.advance n).rstk = c.rstk := rfl
@[simp] theorem Ctx.advance_sc (c : Ctx) (n : Nat) : (c.advance n).sc = c.sc := rfl
@[simp] theorem Ctx.advance_ports (c : Ctx) (n : Nat) : (c.advance n).ports = c.ports := rfl
@[simp] theorem Ctx.advance_trm (c : Ctx) (n : Nat) : (c.advance n).trm = c.trm := rfl
@[simp] theorem Ctx.advance_gth (c : Ctx) (n : Nat) : (c.advance n).gth = c.gth := rfl
@[simp] theorem Ctx.advance_cnt (c : Ctx) (n : Nat) : (c.advance n).cnt = c.cnt := rfl
@[simp] theorem Ctx.advance_pendWake (c : Ctx) (n : Nat) : (c.advance n).pendWake = c.pendWake := rfl
@[simp] theorem Ctx.advance_token (c : Ctx) (n : Nat) : (c.advance n).token = c.token := rfl
@[simp] theorem Ctx.advance_deadline (c : Ctx) (n : Nat) : (c.advance n).deadline = c.deadline := rfl
@[simp] theorem Ctx.advance_parkedAt (c : Ctx) (n : Nat) : (c.advance n).parkedAt = c.parkedAt := rfl
@[simp] theorem Ctx.advance_comp (c : Ctx) (n : Nat) : (c.advance n).comp = c.comp := rfl
@[simp] theorem Ctx.advance_role (c : Ctx) (n : Nat) : (c.advance n).role = c.role := rfl
@[simp] theorem Ctx.advance_reads (c : Ctx) (n : Nat) : (c.advance n).reads = c.reads := rfl
@[simp] theorem Ctx.advance_req (c : Ctx) (n : Nat) : (c.advance n).req = c.req := rfl
@[simp] theorem Ctx.advance_undo (c : Ctx) (n : Nat) : (c.advance n).undo = c.undo := rfl
@[simp] theorem Ctx.advance_prog (c : Ctx) (n : Nat) : (c.advance n).prog = c.prog := rfl
@[simp] theorem Ctx.advance_observed (c : Ctx) (n : Nat) : (c.advance n).observed = c.observed := rfl
@[simp] theorem Ctx.advance_cores (c : Ctx) (n : Nat) : (c.advance n).cores = c.cores := rfl
@[simp] theorem Ctx.advance_draining (c : Ctx) (n : Nat) : (c.advance n).draining = c.draining := rfl
@[simp] theorem Ctx.advance_giveUp (c : Ctx) (n : Nat) : (c.advance n).giveUp = c.giveUp := rfl
@[simp] theorem Ctx.advance_entryWait (c : Ctx) (n : Nat) : (c.advance n).entryWait = c.entryWait := rfl
@[simp] theorem Ctx.advance_step (c : Ctx) (n : Nat) : (c.advance n).step = c.step := rfl
@[simp] theorem Ctx.advance_back (c : Ctx) (n : Nat) : (c.advance n).back = c.back := rfl
@[simp] theorem Ctx.advance_aside (c : Ctx) (n : Nat) : (c.advance n).aside = c.aside := rfl
@[simp] theorem Ctx.advance_later (c : Ctx) (n : Nat) : (c.advance n).later = c.later := rfl
@[simp] theorem Ctx.advance_gangLost (c : Ctx) (n : Nat) : (c.advance n).gangLost = c.gangLost := rfl
@[simp] theorem Ctx.advance_fresh (c : Ctx) (n : Nat) : (c.advance n).fresh = c.fresh := rfl
@[simp] theorem Ctx.advance_reaping (c : Ctx) (n : Nat) : (c.advance n).reaping = c.reaping := rfl
@[simp] theorem Ctx.advance_gyd (c : Ctx) (n : Nat) : (c.advance n).gyd = c.gyd := rfl

/-! ### Ctx.flag -/

@[simp] theorem Ctx.flag_st (c : Ctx) (f : FFlags) : (c.flag f).st = c.st := rfl
@[simp] theorem Ctx.flag_park (c : Ctx) (f : FFlags) : (c.flag f).park = c.park := rfl
@[simp] theorem Ctx.flag_notBefore (c : Ctx) (f : FFlags) : (c.flag f).notBefore = c.notBefore := rfl
@[simp] theorem Ctx.flag_yields (c : Ctx) (f : FFlags) : (c.flag f).yields = c.yields := rfl
@[simp] theorem Ctx.flag_pc (c : Ctx) (f : FFlags) : (c.flag f).pc = c.pc := rfl
@[simp] theorem Ctx.flag_iword (c : Ctx) (f : FFlags) : (c.flag f).iword = c.iword := rfl
@[simp] theorem Ctx.flag_g (c : Ctx) (f : FFlags) : (c.flag f).g = c.g := rfl
@[simp] theorem Ctx.flag_full (c : Ctx) (f : FFlags) : (c.flag f).full = c.full := rfl
@[simp] theorem Ctx.flag_k (c : Ctx) (f : FFlags) : (c.flag f).k = c.k := rfl
@[simp] theorem Ctx.flag_sgb (c : Ctx) (f : FFlags) : (c.flag f).sgb = c.sgb := rfl
@[simp] theorem Ctx.flag_sgl (c : Ctx) (f : FFlags) : (c.flag f).sgl = c.sgl := rfl
@[simp] theorem Ctx.flag_clamped (c : Ctx) (f : FFlags) : (c.flag f).clamped = c.clamped := rfl
@[simp] theorem Ctx.flag_gydonMode (c : Ctx) (f : FFlags) : (c.flag f).gydonMode = c.gydonMode := rfl
@[simp] theorem Ctx.flag_trace (c : Ctx) (f : FFlags) : (c.flag f).trace = c.trace := rfl
@[simp] theorem Ctx.flag_gang (c : Ctx) (f : FFlags) : (c.flag f).gang = c.gang := rfl
@[simp] theorem Ctx.flag_gangOld (c : Ctx) (f : FFlags) : (c.flag f).gangOld = c.gangOld := rfl
@[simp] theorem Ctx.flag_gword (c : Ctx) (f : FFlags) : (c.flag f).gword = c.gword := rfl
@[simp] theorem Ctx.flag_gout (c : Ctx) (f : FFlags) : (c.flag f).gout = c.gout := rfl
@[simp] theorem Ctx.flag_fpc (c : Ctx) (f : FFlags) : (c.flag f).fpc = c.fpc ||| f.bits := rfl
@[simp] theorem Ctx.flag_geom (c : Ctx) (f : FFlags) : (c.flag f).geom = c.geom := rfl
@[simp] theorem Ctx.flag_rstk (c : Ctx) (f : FFlags) : (c.flag f).rstk = c.rstk := rfl
@[simp] theorem Ctx.flag_sc (c : Ctx) (f : FFlags) : (c.flag f).sc = c.sc := rfl
@[simp] theorem Ctx.flag_ports (c : Ctx) (f : FFlags) : (c.flag f).ports = c.ports := rfl
@[simp] theorem Ctx.flag_trm (c : Ctx) (f : FFlags) : (c.flag f).trm = c.trm := rfl
@[simp] theorem Ctx.flag_gth (c : Ctx) (f : FFlags) : (c.flag f).gth = c.gth := rfl
@[simp] theorem Ctx.flag_cnt (c : Ctx) (f : FFlags) : (c.flag f).cnt = c.cnt := rfl
@[simp] theorem Ctx.flag_pendWake (c : Ctx) (f : FFlags) : (c.flag f).pendWake = c.pendWake := rfl
@[simp] theorem Ctx.flag_token (c : Ctx) (f : FFlags) : (c.flag f).token = c.token := rfl
@[simp] theorem Ctx.flag_deadline (c : Ctx) (f : FFlags) : (c.flag f).deadline = c.deadline := rfl
@[simp] theorem Ctx.flag_parkedAt (c : Ctx) (f : FFlags) : (c.flag f).parkedAt = c.parkedAt := rfl
@[simp] theorem Ctx.flag_comp (c : Ctx) (f : FFlags) : (c.flag f).comp = c.comp := rfl
@[simp] theorem Ctx.flag_role (c : Ctx) (f : FFlags) : (c.flag f).role = c.role := rfl
@[simp] theorem Ctx.flag_reads (c : Ctx) (f : FFlags) : (c.flag f).reads = c.reads := rfl
@[simp] theorem Ctx.flag_req (c : Ctx) (f : FFlags) : (c.flag f).req = c.req := rfl
@[simp] theorem Ctx.flag_undo (c : Ctx) (f : FFlags) : (c.flag f).undo = c.undo := rfl
@[simp] theorem Ctx.flag_prog (c : Ctx) (f : FFlags) : (c.flag f).prog = c.prog := rfl
@[simp] theorem Ctx.flag_observed (c : Ctx) (f : FFlags) : (c.flag f).observed = c.observed := rfl
@[simp] theorem Ctx.flag_cores (c : Ctx) (f : FFlags) : (c.flag f).cores = c.cores := rfl
@[simp] theorem Ctx.flag_draining (c : Ctx) (f : FFlags) : (c.flag f).draining = c.draining := rfl
@[simp] theorem Ctx.flag_giveUp (c : Ctx) (f : FFlags) : (c.flag f).giveUp = c.giveUp := rfl
@[simp] theorem Ctx.flag_entryWait (c : Ctx) (f : FFlags) : (c.flag f).entryWait = c.entryWait := rfl
@[simp] theorem Ctx.flag_step (c : Ctx) (f : FFlags) : (c.flag f).step = c.step := rfl
@[simp] theorem Ctx.flag_back (c : Ctx) (f : FFlags) : (c.flag f).back = c.back := rfl
@[simp] theorem Ctx.flag_aside (c : Ctx) (f : FFlags) : (c.flag f).aside = c.aside := rfl
@[simp] theorem Ctx.flag_later (c : Ctx) (f : FFlags) : (c.flag f).later = c.later := rfl
@[simp] theorem Ctx.flag_gangLost (c : Ctx) (f : FFlags) : (c.flag f).gangLost = c.gangLost := rfl
@[simp] theorem Ctx.flag_fresh (c : Ctx) (f : FFlags) : (c.flag f).fresh = c.fresh := rfl
@[simp] theorem Ctx.flag_reaping (c : Ctx) (f : FFlags) : (c.flag f).reaping = c.reaping := rfl
@[simp] theorem Ctx.flag_gyd (c : Ctx) (f : FFlags) : (c.flag f).gyd = c.gyd := rfl

/-! ### Ctx.parkOn -/

@[simp] theorem Ctx.parkOn_st (c : Ctx) (p : Park) (w : Wait) (n : Nat) : (c.parkOn p w n).st = .parked w := rfl
@[simp] theorem Ctx.parkOn_park (c : Ctx) (p : Park) (w : Wait) (n : Nat) : (c.parkOn p w n).park = p := rfl
@[simp] theorem Ctx.parkOn_notBefore (c : Ctx) (p : Park) (w : Wait) (n : Nat) : (c.parkOn p w n).notBefore = c.notBefore := rfl
@[simp] theorem Ctx.parkOn_yields (c : Ctx) (p : Park) (w : Wait) (n : Nat) : (c.parkOn p w n).yields = c.yields := rfl
@[simp] theorem Ctx.parkOn_pc (c : Ctx) (p : Park) (w : Wait) (n : Nat) : (c.parkOn p w n).pc = c.pc := rfl
@[simp] theorem Ctx.parkOn_iword (c : Ctx) (p : Park) (w : Wait) (n : Nat) : (c.parkOn p w n).iword = c.iword := rfl
@[simp] theorem Ctx.parkOn_g (c : Ctx) (p : Park) (w : Wait) (n : Nat) : (c.parkOn p w n).g = c.g := rfl
@[simp] theorem Ctx.parkOn_full (c : Ctx) (p : Park) (w : Wait) (n : Nat) : (c.parkOn p w n).full = c.full := rfl
@[simp] theorem Ctx.parkOn_k (c : Ctx) (p : Park) (w : Wait) (n : Nat) : (c.parkOn p w n).k = c.k := rfl
@[simp] theorem Ctx.parkOn_sgb (c : Ctx) (p : Park) (w : Wait) (n : Nat) : (c.parkOn p w n).sgb = c.sgb := rfl
@[simp] theorem Ctx.parkOn_sgl (c : Ctx) (p : Park) (w : Wait) (n : Nat) : (c.parkOn p w n).sgl = c.sgl := rfl
@[simp] theorem Ctx.parkOn_clamped (c : Ctx) (p : Park) (w : Wait) (n : Nat) : (c.parkOn p w n).clamped = c.clamped := rfl
@[simp] theorem Ctx.parkOn_gydonMode (c : Ctx) (p : Park) (w : Wait) (n : Nat) : (c.parkOn p w n).gydonMode = c.gydonMode := rfl
@[simp] theorem Ctx.parkOn_trace (c : Ctx) (p : Park) (w : Wait) (n : Nat) : (c.parkOn p w n).trace = c.trace := rfl
@[simp] theorem Ctx.parkOn_gang (c : Ctx) (p : Park) (w : Wait) (n : Nat) : (c.parkOn p w n).gang = c.gang := rfl
@[simp] theorem Ctx.parkOn_gangOld (c : Ctx) (p : Park) (w : Wait) (n : Nat) : (c.parkOn p w n).gangOld = c.gangOld := rfl
@[simp] theorem Ctx.parkOn_gword (c : Ctx) (p : Park) (w : Wait) (n : Nat) : (c.parkOn p w n).gword = c.gword := rfl
@[simp] theorem Ctx.parkOn_gout (c : Ctx) (p : Park) (w : Wait) (n : Nat) : (c.parkOn p w n).gout = c.gout := rfl
@[simp] theorem Ctx.parkOn_fpc (c : Ctx) (p : Park) (w : Wait) (n : Nat) : (c.parkOn p w n).fpc = c.fpc := rfl
@[simp] theorem Ctx.parkOn_geom (c : Ctx) (p : Park) (w : Wait) (n : Nat) : (c.parkOn p w n).geom = c.geom := rfl
@[simp] theorem Ctx.parkOn_rstk (c : Ctx) (p : Park) (w : Wait) (n : Nat) : (c.parkOn p w n).rstk = c.rstk := rfl
@[simp] theorem Ctx.parkOn_sc (c : Ctx) (p : Park) (w : Wait) (n : Nat) : (c.parkOn p w n).sc = c.sc := rfl
@[simp] theorem Ctx.parkOn_ports (c : Ctx) (p : Park) (w : Wait) (n : Nat) : (c.parkOn p w n).ports = c.ports := rfl
@[simp] theorem Ctx.parkOn_trm (c : Ctx) (p : Park) (w : Wait) (n : Nat) : (c.parkOn p w n).trm = c.trm := rfl
@[simp] theorem Ctx.parkOn_gth (c : Ctx) (p : Park) (w : Wait) (n : Nat) : (c.parkOn p w n).gth = c.gth := rfl
@[simp] theorem Ctx.parkOn_cnt (c : Ctx) (p : Park) (w : Wait) (n : Nat) : (c.parkOn p w n).cnt = c.cnt := rfl
@[simp] theorem Ctx.parkOn_pendWake (c : Ctx) (p : Park) (w : Wait) (n : Nat) : (c.parkOn p w n).pendWake = c.pendWake := rfl
@[simp] theorem Ctx.parkOn_token (c : Ctx) (p : Park) (w : Wait) (n : Nat) : (c.parkOn p w n).token = c.token := rfl
@[simp] theorem Ctx.parkOn_deadline (c : Ctx) (p : Park) (w : Wait) (n : Nat) : (c.parkOn p w n).deadline = c.deadline := rfl
@[simp] theorem Ctx.parkOn_parkedAt (c : Ctx) (p : Park) (w : Wait) (n : Nat) : (c.parkOn p w n).parkedAt = n := rfl
@[simp] theorem Ctx.parkOn_comp (c : Ctx) (p : Park) (w : Wait) (n : Nat) : (c.parkOn p w n).comp = c.comp := rfl
@[simp] theorem Ctx.parkOn_role (c : Ctx) (p : Park) (w : Wait) (n : Nat) : (c.parkOn p w n).role = c.role := rfl
@[simp] theorem Ctx.parkOn_reads (c : Ctx) (p : Park) (w : Wait) (n : Nat) : (c.parkOn p w n).reads = c.reads := rfl
@[simp] theorem Ctx.parkOn_req (c : Ctx) (p : Park) (w : Wait) (n : Nat) : (c.parkOn p w n).req = c.req := rfl
@[simp] theorem Ctx.parkOn_undo (c : Ctx) (p : Park) (w : Wait) (n : Nat) : (c.parkOn p w n).undo = c.undo := rfl
@[simp] theorem Ctx.parkOn_prog (c : Ctx) (p : Park) (w : Wait) (n : Nat) : (c.parkOn p w n).prog = c.prog := rfl
@[simp] theorem Ctx.parkOn_observed (c : Ctx) (p : Park) (w : Wait) (n : Nat) : (c.parkOn p w n).observed = c.observed := rfl
@[simp] theorem Ctx.parkOn_cores (c : Ctx) (p : Park) (w : Wait) (n : Nat) : (c.parkOn p w n).cores = c.cores := rfl
@[simp] theorem Ctx.parkOn_draining (c : Ctx) (p : Park) (w : Wait) (n : Nat) : (c.parkOn p w n).draining = c.draining := rfl
@[simp] theorem Ctx.parkOn_giveUp (c : Ctx) (p : Park) (w : Wait) (n : Nat) : (c.parkOn p w n).giveUp = c.giveUp := rfl
@[simp] theorem Ctx.parkOn_entryWait (c : Ctx) (p : Park) (w : Wait) (n : Nat) : (c.parkOn p w n).entryWait = c.entryWait := rfl
@[simp] theorem Ctx.parkOn_step (c : Ctx) (p : Park) (w : Wait) (n : Nat) : (c.parkOn p w n).step = c.step := rfl
@[simp] theorem Ctx.parkOn_back (c : Ctx) (p : Park) (w : Wait) (n : Nat) : (c.parkOn p w n).back = c.back := rfl
@[simp] theorem Ctx.parkOn_aside (c : Ctx) (p : Park) (w : Wait) (n : Nat) : (c.parkOn p w n).aside = c.aside := rfl
@[simp] theorem Ctx.parkOn_later (c : Ctx) (p : Park) (w : Wait) (n : Nat) : (c.parkOn p w n).later = c.later := rfl
@[simp] theorem Ctx.parkOn_gangLost (c : Ctx) (p : Park) (w : Wait) (n : Nat) : (c.parkOn p w n).gangLost = c.gangLost := rfl
@[simp] theorem Ctx.parkOn_fresh (c : Ctx) (p : Park) (w : Wait) (n : Nat) : (c.parkOn p w n).fresh = c.fresh := rfl
@[simp] theorem Ctx.parkOn_reaping (c : Ctx) (p : Park) (w : Wait) (n : Nat) : (c.parkOn p w n).reaping = c.reaping := rfl
@[simp] theorem Ctx.parkOn_gyd (c : Ctx) (p : Park) (w : Wait) (n : Nat) : (c.parkOn p w n).gyd = c.gyd := rfl

/-! ### Ctx.bump, Ctx.enterClamp, Ctx.tally, Ctx.done -/

@[simp] theorem Ctx.bump_st (c : Ctx) (e n : Nat) : (c.bump e n).st = c.st := by unfold Ctx.bump; split <;> rfl
@[simp] theorem Ctx.bump_park (c : Ctx) (e n : Nat) : (c.bump e n).park = c.park := by unfold Ctx.bump; split <;> rfl
@[simp] theorem Ctx.bump_notBefore (c : Ctx) (e n : Nat) : (c.bump e n).notBefore = c.notBefore := by unfold Ctx.bump; split <;> rfl
@[simp] theorem Ctx.bump_yields (c : Ctx) (e n : Nat) : (c.bump e n).yields = c.yields := by unfold Ctx.bump; split <;> rfl
@[simp] theorem Ctx.bump_pc (c : Ctx) (e n : Nat) : (c.bump e n).pc = c.pc := by unfold Ctx.bump; split <;> rfl
@[simp] theorem Ctx.bump_iword (c : Ctx) (e n : Nat) : (c.bump e n).iword = c.iword := by unfold Ctx.bump; split <;> rfl
@[simp] theorem Ctx.bump_g (c : Ctx) (e n : Nat) : (c.bump e n).g = c.g := by unfold Ctx.bump; split <;> rfl
@[simp] theorem Ctx.bump_full (c : Ctx) (e n : Nat) : (c.bump e n).full = c.full := by unfold Ctx.bump; split <;> rfl
@[simp] theorem Ctx.bump_k (c : Ctx) (e n : Nat) : (c.bump e n).k = c.k := by unfold Ctx.bump; split <;> rfl
@[simp] theorem Ctx.bump_sgb (c : Ctx) (e n : Nat) : (c.bump e n).sgb = c.sgb := by unfold Ctx.bump; split <;> rfl
@[simp] theorem Ctx.bump_sgl (c : Ctx) (e n : Nat) : (c.bump e n).sgl = c.sgl := by unfold Ctx.bump; split <;> rfl
@[simp] theorem Ctx.bump_clamped (c : Ctx) (e n : Nat) : (c.bump e n).clamped = c.clamped := by unfold Ctx.bump; split <;> rfl
@[simp] theorem Ctx.bump_gydonMode (c : Ctx) (e n : Nat) : (c.bump e n).gydonMode = c.gydonMode := by unfold Ctx.bump; split <;> rfl
@[simp] theorem Ctx.bump_trace (c : Ctx) (e n : Nat) : (c.bump e n).trace = c.trace := by unfold Ctx.bump; split <;> rfl
@[simp] theorem Ctx.bump_gang (c : Ctx) (e n : Nat) : (c.bump e n).gang = c.gang := by unfold Ctx.bump; split <;> rfl
@[simp] theorem Ctx.bump_gangOld (c : Ctx) (e n : Nat) : (c.bump e n).gangOld = c.gangOld := by unfold Ctx.bump; split <;> rfl
@[simp] theorem Ctx.bump_gword (c : Ctx) (e n : Nat) : (c.bump e n).gword = c.gword := by unfold Ctx.bump; split <;> rfl
@[simp] theorem Ctx.bump_gout (c : Ctx) (e n : Nat) : (c.bump e n).gout = c.gout := by unfold Ctx.bump; split <;> rfl
@[simp] theorem Ctx.bump_fpc (c : Ctx) (e n : Nat) : (c.bump e n).fpc = c.fpc := by unfold Ctx.bump; split <;> rfl
@[simp] theorem Ctx.bump_geom (c : Ctx) (e n : Nat) : (c.bump e n).geom = c.geom := by unfold Ctx.bump; split <;> rfl
@[simp] theorem Ctx.bump_rstk (c : Ctx) (e n : Nat) : (c.bump e n).rstk = c.rstk := by unfold Ctx.bump; split <;> rfl
@[simp] theorem Ctx.bump_sc (c : Ctx) (e n : Nat) : (c.bump e n).sc = c.sc := by unfold Ctx.bump; split <;> rfl
@[simp] theorem Ctx.bump_ports (c : Ctx) (e n : Nat) : (c.bump e n).ports = c.ports := by unfold Ctx.bump; split <;> rfl
@[simp] theorem Ctx.bump_trm (c : Ctx) (e n : Nat) : (c.bump e n).trm = c.trm := by unfold Ctx.bump; split <;> rfl
@[simp] theorem Ctx.bump_gth (c : Ctx) (e n : Nat) : (c.bump e n).gth = c.gth := by unfold Ctx.bump; split <;> rfl
@[simp] theorem Ctx.bump_pendWake (c : Ctx) (e n : Nat) : (c.bump e n).pendWake = c.pendWake := by unfold Ctx.bump; split <;> rfl
@[simp] theorem Ctx.bump_token (c : Ctx) (e n : Nat) : (c.bump e n).token = c.token := by unfold Ctx.bump; split <;> rfl
@[simp] theorem Ctx.bump_deadline (c : Ctx) (e n : Nat) : (c.bump e n).deadline = c.deadline := by unfold Ctx.bump; split <;> rfl
@[simp] theorem Ctx.bump_parkedAt (c : Ctx) (e n : Nat) : (c.bump e n).parkedAt = c.parkedAt := by unfold Ctx.bump; split <;> rfl
@[simp] theorem Ctx.bump_comp (c : Ctx) (e n : Nat) : (c.bump e n).comp = c.comp := by unfold Ctx.bump; split <;> rfl
@[simp] theorem Ctx.bump_role (c : Ctx) (e n : Nat) : (c.bump e n).role = c.role := by unfold Ctx.bump; split <;> rfl
@[simp] theorem Ctx.bump_reads (c : Ctx) (e n : Nat) : (c.bump e n).reads = c.reads := by unfold Ctx.bump; split <;> rfl
@[simp] theorem Ctx.bump_req (c : Ctx) (e n : Nat) : (c.bump e n).req = c.req := by unfold Ctx.bump; split <;> rfl
@[simp] theorem Ctx.bump_undo (c : Ctx) (e n : Nat) : (c.bump e n).undo = c.undo := by unfold Ctx.bump; split <;> rfl
@[simp] theorem Ctx.bump_prog (c : Ctx) (e n : Nat) : (c.bump e n).prog = c.prog := by unfold Ctx.bump; split <;> rfl
@[simp] theorem Ctx.bump_observed (c : Ctx) (e n : Nat) : (c.bump e n).observed = c.observed := by unfold Ctx.bump; split <;> rfl
@[simp] theorem Ctx.bump_cores (c : Ctx) (e n : Nat) : (c.bump e n).cores = c.cores := by unfold Ctx.bump; split <;> rfl
@[simp] theorem Ctx.bump_draining (c : Ctx) (e n : Nat) : (c.bump e n).draining = c.draining := by unfold Ctx.bump; split <;> rfl
@[simp] theorem Ctx.bump_giveUp (c : Ctx) (e n : Nat) : (c.bump e n).giveUp = c.giveUp := by unfold Ctx.bump; split <;> rfl
@[simp] theorem Ctx.bump_entryWait (c : Ctx) (e n : Nat) : (c.bump e n).entryWait = c.entryWait := by unfold Ctx.bump; split <;> rfl
@[simp] theorem Ctx.bump_step (c : Ctx) (e n : Nat) : (c.bump e n).step = c.step := by unfold Ctx.bump; split <;> rfl
@[simp] theorem Ctx.bump_back (c : Ctx) (e n : Nat) : (c.bump e n).back = c.back := by unfold Ctx.bump; split <;> rfl
@[simp] theorem Ctx.bump_aside (c : Ctx) (e n : Nat) : (c.bump e n).aside = c.aside := by unfold Ctx.bump; split <;> rfl
@[simp] theorem Ctx.bump_later (c : Ctx) (e n : Nat) : (c.bump e n).later = c.later := by unfold Ctx.bump; split <;> rfl
@[simp] theorem Ctx.bump_gangLost (c : Ctx) (e n : Nat) : (c.bump e n).gangLost = c.gangLost := by unfold Ctx.bump; split <;> rfl
@[simp] theorem Ctx.bump_fresh (c : Ctx) (e n : Nat) : (c.bump e n).fresh = c.fresh := by unfold Ctx.bump; split <;> rfl
@[simp] theorem Ctx.bump_reaping (c : Ctx) (e n : Nat) : (c.bump e n).reaping = c.reaping := by unfold Ctx.bump; split <;> rfl
@[simp] theorem Ctx.bump_gyd (c : Ctx) (e n : Nat) : (c.bump e n).gyd = c.gyd := by unfold Ctx.bump; split <;> rfl
@[simp] theorem Ctx.enterClamp_st (c : Ctx) : c.enterClamp.st = c.st := by unfold Ctx.enterClamp; split <;> simp
@[simp] theorem Ctx.enterClamp_park (c : Ctx) : c.enterClamp.park = c.park := by unfold Ctx.enterClamp; split <;> simp
@[simp] theorem Ctx.enterClamp_notBefore (c : Ctx) : c.enterClamp.notBefore = c.notBefore := by unfold Ctx.enterClamp; split <;> simp
@[simp] theorem Ctx.enterClamp_yields (c : Ctx) : c.enterClamp.yields = c.yields := by unfold Ctx.enterClamp; split <;> simp
@[simp] theorem Ctx.enterClamp_pc (c : Ctx) : c.enterClamp.pc = c.pc := by unfold Ctx.enterClamp; split <;> simp
@[simp] theorem Ctx.enterClamp_iword (c : Ctx) : c.enterClamp.iword = c.iword := by unfold Ctx.enterClamp; split <;> simp
@[simp] theorem Ctx.enterClamp_g (c : Ctx) : c.enterClamp.g = c.g := by unfold Ctx.enterClamp; split <;> simp
@[simp] theorem Ctx.enterClamp_full (c : Ctx) : c.enterClamp.full = c.full := by unfold Ctx.enterClamp; split <;> simp
@[simp] theorem Ctx.enterClamp_k (c : Ctx) : c.enterClamp.k = c.k := by unfold Ctx.enterClamp; split <;> simp
@[simp] theorem Ctx.enterClamp_sgb (c : Ctx) : c.enterClamp.sgb = c.sgb := by unfold Ctx.enterClamp; split <;> simp
@[simp] theorem Ctx.enterClamp_sgl (c : Ctx) : c.enterClamp.sgl = c.sgl := by unfold Ctx.enterClamp; split <;> simp
@[simp] theorem Ctx.enterClamp_gydonMode (c : Ctx) : c.enterClamp.gydonMode = c.gydonMode := by unfold Ctx.enterClamp; split <;> simp
@[simp] theorem Ctx.enterClamp_trace (c : Ctx) : c.enterClamp.trace = c.trace := by unfold Ctx.enterClamp; split <;> simp
@[simp] theorem Ctx.enterClamp_gang (c : Ctx) : c.enterClamp.gang = c.gang := by unfold Ctx.enterClamp; split <;> simp
@[simp] theorem Ctx.enterClamp_gangOld (c : Ctx) : c.enterClamp.gangOld = c.gangOld := by unfold Ctx.enterClamp; split <;> simp
@[simp] theorem Ctx.enterClamp_gword (c : Ctx) : c.enterClamp.gword = c.gword := by unfold Ctx.enterClamp; split <;> simp
@[simp] theorem Ctx.enterClamp_gout (c : Ctx) : c.enterClamp.gout = c.gout := by unfold Ctx.enterClamp; split <;> simp
@[simp] theorem Ctx.enterClamp_fpc (c : Ctx) : c.enterClamp.fpc = c.fpc := by unfold Ctx.enterClamp; split <;> simp
@[simp] theorem Ctx.enterClamp_geom (c : Ctx) : c.enterClamp.geom = c.geom := by unfold Ctx.enterClamp; split <;> simp
@[simp] theorem Ctx.enterClamp_rstk (c : Ctx) : c.enterClamp.rstk = c.rstk := by unfold Ctx.enterClamp; split <;> simp
@[simp] theorem Ctx.enterClamp_sc (c : Ctx) : c.enterClamp.sc = c.sc := by unfold Ctx.enterClamp; split <;> simp
@[simp] theorem Ctx.enterClamp_ports (c : Ctx) : c.enterClamp.ports = c.ports := by unfold Ctx.enterClamp; split <;> simp
@[simp] theorem Ctx.enterClamp_trm (c : Ctx) : c.enterClamp.trm = c.trm := by unfold Ctx.enterClamp; split <;> simp
@[simp] theorem Ctx.enterClamp_gth (c : Ctx) : c.enterClamp.gth = c.gth := by unfold Ctx.enterClamp; split <;> simp
@[simp] theorem Ctx.enterClamp_pendWake (c : Ctx) : c.enterClamp.pendWake = c.pendWake := by unfold Ctx.enterClamp; split <;> simp
@[simp] theorem Ctx.enterClamp_token (c : Ctx) : c.enterClamp.token = c.token := by unfold Ctx.enterClamp; split <;> simp
@[simp] theorem Ctx.enterClamp_deadline (c : Ctx) : c.enterClamp.deadline = c.deadline := by unfold Ctx.enterClamp; split <;> simp
@[simp] theorem Ctx.enterClamp_parkedAt (c : Ctx) : c.enterClamp.parkedAt = c.parkedAt := by unfold Ctx.enterClamp; split <;> simp
@[simp] theorem Ctx.enterClamp_comp (c : Ctx) : c.enterClamp.comp = c.comp := by unfold Ctx.enterClamp; split <;> simp
@[simp] theorem Ctx.enterClamp_role (c : Ctx) : c.enterClamp.role = c.role := by unfold Ctx.enterClamp; split <;> simp
@[simp] theorem Ctx.enterClamp_reads (c : Ctx) : c.enterClamp.reads = c.reads := by unfold Ctx.enterClamp; split <;> simp
@[simp] theorem Ctx.enterClamp_req (c : Ctx) : c.enterClamp.req = c.req := by unfold Ctx.enterClamp; split <;> simp
@[simp] theorem Ctx.enterClamp_undo (c : Ctx) : c.enterClamp.undo = c.undo := by unfold Ctx.enterClamp; split <;> simp
@[simp] theorem Ctx.enterClamp_prog (c : Ctx) : c.enterClamp.prog = c.prog := by unfold Ctx.enterClamp; split <;> simp
@[simp] theorem Ctx.enterClamp_observed (c : Ctx) : c.enterClamp.observed = c.observed := by unfold Ctx.enterClamp; split <;> simp
@[simp] theorem Ctx.enterClamp_cores (c : Ctx) : c.enterClamp.cores = c.cores := by unfold Ctx.enterClamp; split <;> simp
@[simp] theorem Ctx.enterClamp_draining (c : Ctx) : c.enterClamp.draining = c.draining := by unfold Ctx.enterClamp; split <;> simp
@[simp] theorem Ctx.enterClamp_giveUp (c : Ctx) : c.enterClamp.giveUp = c.giveUp := by unfold Ctx.enterClamp; split <;> simp
@[simp] theorem Ctx.enterClamp_entryWait (c : Ctx) : c.enterClamp.entryWait = c.entryWait := by unfold Ctx.enterClamp; split <;> simp
@[simp] theorem Ctx.enterClamp_step (c : Ctx) : c.enterClamp.step = c.step := by unfold Ctx.enterClamp; split <;> simp
@[simp] theorem Ctx.enterClamp_back (c : Ctx) : c.enterClamp.back = c.back := by unfold Ctx.enterClamp; split <;> simp
@[simp] theorem Ctx.enterClamp_aside (c : Ctx) : c.enterClamp.aside = c.aside := by unfold Ctx.enterClamp; split <;> simp
@[simp] theorem Ctx.enterClamp_later (c : Ctx) : c.enterClamp.later = c.later := by unfold Ctx.enterClamp; split <;> simp
@[simp] theorem Ctx.enterClamp_gangLost (c : Ctx) : c.enterClamp.gangLost = c.gangLost := by unfold Ctx.enterClamp; split <;> simp
@[simp] theorem Ctx.enterClamp_fresh (c : Ctx) : c.enterClamp.fresh = c.fresh := by unfold Ctx.enterClamp; split <;> simp
@[simp] theorem Ctx.enterClamp_reaping (c : Ctx) : c.enterClamp.reaping = c.reaping := by unfold Ctx.enterClamp; split <;> simp
@[simp] theorem Ctx.enterClamp_gyd (c : Ctx) : c.enterClamp.gyd = c.gyd := by unfold Ctx.enterClamp; split <;> simp
@[simp] theorem Ctx.tally_st (c : Ctx) : c.tally.st = c.st := by simp [Ctx.tally]
@[simp] theorem Ctx.tally_park (c : Ctx) : c.tally.park = c.park := by simp [Ctx.tally]
@[simp] theorem Ctx.tally_notBefore (c : Ctx) : c.tally.notBefore = c.notBefore := by simp [Ctx.tally]
@[simp] theorem Ctx.tally_yields (c : Ctx) : c.tally.yields = c.yields := by simp [Ctx.tally]
@[simp] theorem Ctx.tally_pc (c : Ctx) : c.tally.pc = c.pc := by simp [Ctx.tally]
@[simp] theorem Ctx.tally_iword (c : Ctx) : c.tally.iword = c.iword := by simp [Ctx.tally]
@[simp] theorem Ctx.tally_g (c : Ctx) : c.tally.g = c.g := by simp [Ctx.tally]
@[simp] theorem Ctx.tally_full (c : Ctx) : c.tally.full = c.full := by simp [Ctx.tally]
@[simp] theorem Ctx.tally_k (c : Ctx) : c.tally.k = c.k := by simp [Ctx.tally]
@[simp] theorem Ctx.tally_sgb (c : Ctx) : c.tally.sgb = c.sgb := by simp [Ctx.tally]
@[simp] theorem Ctx.tally_sgl (c : Ctx) : c.tally.sgl = c.sgl := by simp [Ctx.tally]
@[simp] theorem Ctx.tally_gydonMode (c : Ctx) : c.tally.gydonMode = c.gydonMode := by simp [Ctx.tally]
@[simp] theorem Ctx.tally_trace (c : Ctx) : c.tally.trace = c.trace := by simp [Ctx.tally]
@[simp] theorem Ctx.tally_gang (c : Ctx) : c.tally.gang = c.gang := by simp [Ctx.tally]
@[simp] theorem Ctx.tally_gangOld (c : Ctx) : c.tally.gangOld = c.gangOld := by simp [Ctx.tally]
@[simp] theorem Ctx.tally_gword (c : Ctx) : c.tally.gword = none := by simp [Ctx.tally]
@[simp] theorem Ctx.tally_gout (c : Ctx) : c.tally.gout = c.gout := by simp [Ctx.tally]
@[simp] theorem Ctx.tally_fpc (c : Ctx) : c.tally.fpc = c.fpc := by simp [Ctx.tally]
@[simp] theorem Ctx.tally_geom (c : Ctx) : c.tally.geom = c.geom := by simp [Ctx.tally]
@[simp] theorem Ctx.tally_rstk (c : Ctx) : c.tally.rstk = c.rstk := by simp [Ctx.tally]
@[simp] theorem Ctx.tally_sc (c : Ctx) : c.tally.sc = c.sc := by simp [Ctx.tally]
@[simp] theorem Ctx.tally_ports (c : Ctx) : c.tally.ports = c.ports := by simp [Ctx.tally]
@[simp] theorem Ctx.tally_trm (c : Ctx) : c.tally.trm = c.trm := by simp [Ctx.tally]
@[simp] theorem Ctx.tally_gth (c : Ctx) : c.tally.gth = c.gth := by simp [Ctx.tally]
@[simp] theorem Ctx.tally_pendWake (c : Ctx) : c.tally.pendWake = c.pendWake := by simp [Ctx.tally]
@[simp] theorem Ctx.tally_token (c : Ctx) : c.tally.token = c.token := by simp [Ctx.tally]
@[simp] theorem Ctx.tally_deadline (c : Ctx) : c.tally.deadline = c.deadline := by simp [Ctx.tally]
@[simp] theorem Ctx.tally_parkedAt (c : Ctx) : c.tally.parkedAt = c.parkedAt := by simp [Ctx.tally]
@[simp] theorem Ctx.tally_comp (c : Ctx) : c.tally.comp = c.comp := by simp [Ctx.tally]
@[simp] theorem Ctx.tally_role (c : Ctx) : c.tally.role = c.role := by simp [Ctx.tally]
@[simp] theorem Ctx.tally_reads (c : Ctx) : c.tally.reads = c.reads := by simp [Ctx.tally]
@[simp] theorem Ctx.tally_req (c : Ctx) : c.tally.req = c.req := by simp [Ctx.tally]
@[simp] theorem Ctx.tally_undo (c : Ctx) : c.tally.undo = c.undo := by simp [Ctx.tally]
@[simp] theorem Ctx.tally_prog (c : Ctx) : c.tally.prog = c.prog := by simp [Ctx.tally]
@[simp] theorem Ctx.tally_observed (c : Ctx) : c.tally.observed = c.observed := by simp [Ctx.tally]
@[simp] theorem Ctx.tally_cores (c : Ctx) : c.tally.cores = c.cores := by simp [Ctx.tally]
@[simp] theorem Ctx.tally_draining (c : Ctx) : c.tally.draining = c.draining := by simp [Ctx.tally]
@[simp] theorem Ctx.tally_giveUp (c : Ctx) : c.tally.giveUp = c.giveUp := by simp [Ctx.tally]
@[simp] theorem Ctx.tally_entryWait (c : Ctx) : c.tally.entryWait = false := by simp [Ctx.tally]
@[simp] theorem Ctx.tally_step (c : Ctx) : c.tally.step = c.step := by simp [Ctx.tally]
@[simp] theorem Ctx.tally_back (c : Ctx) : c.tally.back = c.back := by simp [Ctx.tally]
@[simp] theorem Ctx.tally_aside (c : Ctx) : c.tally.aside = c.aside := by simp [Ctx.tally]
@[simp] theorem Ctx.tally_later (c : Ctx) : c.tally.later = c.later := by simp [Ctx.tally]
@[simp] theorem Ctx.tally_gangLost (c : Ctx) : c.tally.gangLost = c.gangLost := by simp [Ctx.tally]
@[simp] theorem Ctx.tally_fresh (c : Ctx) : c.tally.fresh = true := by simp [Ctx.tally]
@[simp] theorem Ctx.tally_reaping (c : Ctx) : c.tally.reaping = c.reaping := by simp [Ctx.tally]
@[simp] theorem Ctx.tally_gyd (c : Ctx) : c.tally.gyd = c.gyd := by simp [Ctx.tally]
@[simp] theorem Ctx.done_st (c : Ctx) : c.done.st = c.st := by simp [Ctx.done]
@[simp] theorem Ctx.done_park (c : Ctx) : c.done.park = c.park := by simp [Ctx.done]
@[simp] theorem Ctx.done_notBefore (c : Ctx) : c.done.notBefore = c.notBefore := by simp [Ctx.done]
@[simp] theorem Ctx.done_yields (c : Ctx) : c.done.yields = c.yields := by simp [Ctx.done]
@[simp] theorem Ctx.done_pc (c : Ctx) : c.done.pc = c.pc := by simp [Ctx.done]
@[simp] theorem Ctx.done_iword (c : Ctx) : c.done.iword = c.iword := by simp [Ctx.done]
@[simp] theorem Ctx.done_g (c : Ctx) : c.done.g = c.g := by simp [Ctx.done]
@[simp] theorem Ctx.done_full (c : Ctx) : c.done.full = c.full := by simp [Ctx.done]
@[simp] theorem Ctx.done_k (c : Ctx) : c.done.k = c.k := by simp [Ctx.done]
@[simp] theorem Ctx.done_sgb (c : Ctx) : c.done.sgb = c.sgb := by simp [Ctx.done]
@[simp] theorem Ctx.done_sgl (c : Ctx) : c.done.sgl = c.sgl := by simp [Ctx.done]
@[simp] theorem Ctx.done_gydonMode (c : Ctx) : c.done.gydonMode = c.gydonMode := by simp [Ctx.done]
@[simp] theorem Ctx.done_trace (c : Ctx) : c.done.trace = c.trace := by simp [Ctx.done]
@[simp] theorem Ctx.done_gang (c : Ctx) : c.done.gang = c.gang := by simp [Ctx.done]
@[simp] theorem Ctx.done_gangOld (c : Ctx) : c.done.gangOld = c.gangOld := by simp [Ctx.done]
@[simp] theorem Ctx.done_gword (c : Ctx) : c.done.gword = none := by simp [Ctx.done]
@[simp] theorem Ctx.done_gout (c : Ctx) : c.done.gout = c.gout := by simp [Ctx.done]
@[simp] theorem Ctx.done_fpc (c : Ctx) : c.done.fpc = c.fpc := by simp [Ctx.done]
@[simp] theorem Ctx.done_geom (c : Ctx) : c.done.geom = c.geom := by simp [Ctx.done]
@[simp] theorem Ctx.done_rstk (c : Ctx) : c.done.rstk = c.rstk := by simp [Ctx.done]
@[simp] theorem Ctx.done_sc (c : Ctx) : c.done.sc = c.sc := by simp [Ctx.done]
@[simp] theorem Ctx.done_ports (c : Ctx) : c.done.ports = c.ports := by simp [Ctx.done]
@[simp] theorem Ctx.done_trm (c : Ctx) : c.done.trm = c.trm := by simp [Ctx.done]
@[simp] theorem Ctx.done_gth (c : Ctx) : c.done.gth = c.gth := by simp [Ctx.done]
@[simp] theorem Ctx.done_pendWake (c : Ctx) : c.done.pendWake = c.pendWake := by simp [Ctx.done]
@[simp] theorem Ctx.done_token (c : Ctx) : c.done.token = c.token := by simp [Ctx.done]
@[simp] theorem Ctx.done_deadline (c : Ctx) : c.done.deadline = c.deadline := by simp [Ctx.done]
@[simp] theorem Ctx.done_parkedAt (c : Ctx) : c.done.parkedAt = c.parkedAt := by simp [Ctx.done]
@[simp] theorem Ctx.done_comp (c : Ctx) : c.done.comp = c.comp := by simp [Ctx.done]
@[simp] theorem Ctx.done_role (c : Ctx) : c.done.role = c.role := by simp [Ctx.done]
@[simp] theorem Ctx.done_reads (c : Ctx) : c.done.reads = c.reads := by simp [Ctx.done]
@[simp] theorem Ctx.done_req (c : Ctx) : c.done.req = c.req := by simp [Ctx.done]
@[simp] theorem Ctx.done_undo (c : Ctx) : c.done.undo = {} := by simp [Ctx.done]
@[simp] theorem Ctx.done_prog (c : Ctx) : c.done.prog = none := by simp [Ctx.done]
@[simp] theorem Ctx.done_observed (c : Ctx) : c.done.observed = c.observed := by simp [Ctx.done]
@[simp] theorem Ctx.done_cores (c : Ctx) : c.done.cores = c.cores := by simp [Ctx.done]
@[simp] theorem Ctx.done_draining (c : Ctx) : c.done.draining = false := by simp [Ctx.done]
@[simp] theorem Ctx.done_giveUp (c : Ctx) : c.done.giveUp = none := by simp [Ctx.done]
@[simp] theorem Ctx.done_entryWait (c : Ctx) : c.done.entryWait = false := by simp [Ctx.done]
@[simp] theorem Ctx.done_step (c : Ctx) : c.done.step = c.step := by simp [Ctx.done]
@[simp] theorem Ctx.done_back (c : Ctx) : c.done.back = c.back := by simp [Ctx.done]
@[simp] theorem Ctx.done_aside (c : Ctx) : c.done.aside = c.aside := by simp [Ctx.done]
@[simp] theorem Ctx.done_later (c : Ctx) : c.done.later = c.later := by simp [Ctx.done]
@[simp] theorem Ctx.done_gangLost (c : Ctx) : c.done.gangLost = c.gangLost := by simp [Ctx.done]
@[simp] theorem Ctx.done_fresh (c : Ctx) : c.done.fresh = true := by simp [Ctx.done]
@[simp] theorem Ctx.done_reaping (c : Ctx) : c.done.reaping = c.reaping := by simp [Ctx.done]
@[simp] theorem Ctx.done_gyd (c : Ctx) : c.done.gyd = c.gyd := by simp [Ctx.done]

/-! ### Reading back what was written -/

theorem aget?_aset_self {α : Type} (m : Assoc α) (i : Nat) (v : α) : aget? (aset m i v) i = some v := by
  induction m with
  | nil => simp [aset, aget?]
  | cons e r ih =>
    obtain ⟨k, w⟩ := e
    simp only [aset]
    split
    · simp [aget?]
    · split
      · simp [aget?]
      · next h _ => simp [aget?, h, ih]

theorem aget?_aset_ne {α : Type} (m : Assoc α) (i j : Nat) (v : α) (h : i ≠ j) : aget? (aset m i v) j = aget? m j := by
  induction m with
  | nil => simp [aset, aget?, h]
  | cons e r ih =>
    obtain ⟨k, w⟩ := e
    simp only [aset]
    split
    · next hk => subst hk; simp [aget?, h]
    · split
      · simp [aget?, h]
      · simp only [aget?, ih]

theorem aset_aset {α : Type} (m : Assoc α) (i : Nat) (v w : α) : aset (aset m i v) i w = aset m i w := by
  induction m with
  | nil => simp [aset]
  | cons e r ih =>
    obtain ⟨k, u⟩ := e
    simp only [aset]
    split
    · simp [aset]
    · split
      · simp [aset]
      · next h1 h2 => simp [aset, h1, h2, ih]

@[simp] theorem aget_aset_self {α : Type} (m : Assoc α) (i : Nat) (v d : α) : aget (aset m i v) i d = v := by
  simp [aget, aget?_aset_self]

theorem aget_aset_ne {α : Type} (m : Assoc α) (i j : Nat) (v d : α) (h : i ≠ j) : aget (aset m i v) j d = aget m j d := by
  simp [aget, aget?_aset_ne m i j v h]

@[simp] theorem State.coreAt_setCore (s : State) (g : Nat) (c : CoreSt) : (s.setCore g c).coreAt g = c := by
  simp [State.coreAt, State.setCore]

theorem State.coreAt_setCore_ne (s : State) (g h : Nat) (c : CoreSt) (n : g ≠ h) : (s.setCore g c).coreAt h = s.coreAt h := by
  simp [State.coreAt, State.setCore, aget_aset_ne _ _ _ _ _ n]

@[simp] theorem State.setCore_setCore (s : State) (g : Nat) (c d : CoreSt) : (s.setCore g c).setCore g d = s.setCore g d := by
  simp [State.setCore, aset_aset]

@[simp] theorem CoreSt.setCtx_setCtx (c : CoreSt) (x : Fin 16) (v w : Ctx) : (c.setCtx x v).setCtx x w = c.setCtx x w := by
  simp [CoreSt.setCtx, Vector.set_set]

@[simp] theorem CoreSt.setCtx_get (c : CoreSt) (x : Fin 16) (v : Ctx) : (c.setCtx x v).ctxs[x] = v := by simp [CoreSt.setCtx]

@[simp] theorem State.ctxAt_setCtxAt (s : State) (g : Nat) (x : Fin 16) (v : Ctx) : (s.setCtxAt g x v).ctxAt g x = v := by
  simp [State.ctxAt, State.setCtxAt, CoreSt.setCtx]

@[simp] theorem State.setCtxAt_setCtxAt (s : State) (g : Nat) (x : Fin 16) (v w : Ctx) :
    (s.setCtxAt g x v).setCtxAt g x w = s.setCtxAt g x w := by simp [State.setCtxAt]

@[simp] theorem State.cur_setCur (s : State) (v : Ctx) : (s.setCur v).cur = v := by simp [State.cur, State.setCur]

@[simp] theorem State.setCur_setCur (s : State) (v w : Ctx) : (s.setCur v).setCur w = s.setCur w := by simp [State.setCur]

@[simp] theorem State.cur_modCur (s : State) (f : Ctx → Ctx) : (s.modCur f).cur = f s.cur := by simp [State.modCur]

@[simp] theorem State.modCur_modCur (s : State) (f h : Ctx → Ctx) : (s.modCur f).modCur h = s.modCur fun c => h (f c) := by
  simp [State.modCur]

@[simp] theorem State.setCur_modCur (s : State) (f : Ctx → Ctx) (v : Ctx) : (s.modCur f).setCur v = s.setCur v := by
  simp [State.modCur]

@[simp] theorem State.modCur_setCur (s : State) (f : Ctx → Ctx) (v : Ctx) : (s.setCur v).modCur f = s.setCur (f v) := by
  simp [State.modCur]

theorem State.advance_eq (s : State) (n : Nat) : s.advance n = s.modCur fun c => c.advance n := rfl

theorem State.setCur_eq (s : State) (v : Ctx) : s.setCur v = s.modCur fun _ => v := rfl

@[simp] theorem State.ctxAt_modCtx (s : State) (g : Nat) (x : Fin 16) (f : Ctx → Ctx) : (s.modCtx g x f).ctxAt g x = f (s.ctxAt g x) := by
  simp [State.modCtx]

@[simp] theorem State.modCtx_modCtx (s : State) (g : Nat) (x : Fin 16) (f h : Ctx → Ctx) :
    (s.modCtx g x f).modCtx g x h = s.modCtx g x fun c => h (f c) := by simp [State.modCtx]

@[simp] theorem State.coreAt_modCore (s : State) (g : Nat) (f : CoreSt → CoreSt) : (s.modCore g f).coreAt g = f (s.coreAt g) := by
  simp [State.modCore]

@[simp] theorem State.modCore_modCore (s : State) (g : Nat) (f h : CoreSt → CoreSt) :
    (s.modCore g f).modCore g h = s.modCore g fun c => h (f c) := by simp [State.modCore]

@[simp] theorem State.part_setPart (s : State) (p : Nat) (v : Part) : (s.setPart p v).part p = v := by simp [State.part, State.setPart]

@[simp] theorem State.setPart_setPart (s : State) (p : Nat) (v w : Part) : (s.setPart p v).setPart p w = s.setPart p w := by
  simp [State.setPart, Vector.set_set]

@[simp] theorem State.part_modPart (s : State) (p : Nat) (f : Part → Part) : (s.modPart p f).part p = f (s.part p) := by
  simp [State.modPart]

@[simp] theorem State.clusterAt_setCluster (s : State) (h : Nat) (c : Cluster) : (s.setCluster h c).clusterAt h = c := by
  simp [State.clusterAt, State.setCluster]

@[simp] theorem State.clusterAt_modCluster (s : State) (h : Nat) (f : Cluster → Cluster) :
    (s.modCluster h f).clusterAt h = f (s.clusterAt h) := by simp [State.modCluster]

@[simp] theorem State.quadAt_setQuad (s : State) (q : Nat) (c : Quad) : (s.setQuad q c).quadAt q = c := by
  simp [State.quadAt, State.setQuad]

end Sys2Proof.Machine
end

