-- ==== Sys2Proof/Laws/Access.lean ====
section
/-! SUPPORT. What a read of one part of the state gives after another part was changed. -/

namespace Sys2Proof.Machine

/-! ### After `setQuad` -/

@[simp] theorem State.coreAt_setQuad (s : State) (q : Nat) (v : Quad) (k : Nat) : (s.setQuad q v).coreAt k = s.coreAt k := rfl

@[simp] theorem State.ctxAt_setQuad (s : State) (q : Nat) (v : Quad) (k : Nat) (y : Fin 16) : (s.setQuad q v).ctxAt k y = s.ctxAt k y := rfl

@[simp] theorem State.cur_setQuad (s : State) (q : Nat) (v : Quad) : (s.setQuad q v).cur = s.cur := rfl

@[simp] theorem State.here_setQuad (s : State) (q : Nat) (v : Quad) : (s.setQuad q v).here = s.here := rfl

@[simp] theorem State.g_setQuad (s : State) (q : Nat) (v : Quad) (r : Reg) : (s.setQuad q v).g r = s.g r := rfl

@[simp] theorem State.clusterAt_setQuad (s : State) (q : Nat) (v : Quad) (k : Nat) : (s.setQuad q v).clusterAt k = s.clusterAt k := rfl

@[simp] theorem State.part_setQuad (s : State) (q : Nat) (v : Quad) (k : Nat) : (s.setQuad q v).part k = s.part k := rfl

@[simp] theorem State.partOfCluster_setQuad (s : State) (q : Nat) (v : Quad) (k : Nat) :
    (s.setQuad q v).partOfCluster k = s.partOfCluster k := rfl

@[simp] theorem State.partNo_setQuad (s : State) (q : Nat) (v : Quad) (k : Nat) : (s.setQuad q v).partNo k = s.partNo k := rfl

@[simp] theorem State.partOf_setQuad (s : State) (q : Nat) (v : Quad) (k : Nat) : (s.setQuad q v).partOf k = s.partOf k := rfl

@[simp] theorem State.curPart_setQuad (s : State) (q : Nat) (v : Quad) : (s.setQuad q v).curPart = s.curPart := rfl

@[simp] theorem State.coreIndex_setQuad (s : State) (q : Nat) (v : Quad) (k : Nat) : (s.setQuad q v).coreIndex k = s.coreIndex k := rfl

@[simp] theorem State.coreCount_setQuad (s : State) (q : Nat) (v : Quad) (k : Nat) : (s.setQuad q v).coreCount k = s.coreCount k := rfl

@[simp] theorem State.coreNo_setQuad (s : State) (q : Nat) (v : Quad) (k i : Nat) : (s.setQuad q v).coreNo k i = s.coreNo k i := rfl

/-! ### After `modQuad` -/

@[simp] theorem State.coreAt_modQuad (s : State) (q : Nat) (f : Quad → Quad) (k : Nat) : (s.modQuad q f).coreAt k = s.coreAt k := rfl

@[simp] theorem State.ctxAt_modQuad (s : State) (q : Nat) (f : Quad → Quad) (k : Nat) (y : Fin 16) :
    (s.modQuad q f).ctxAt k y = s.ctxAt k y := rfl

@[simp] theorem State.cur_modQuad (s : State) (q : Nat) (f : Quad → Quad) : (s.modQuad q f).cur = s.cur := rfl

@[simp] theorem State.here_modQuad (s : State) (q : Nat) (f : Quad → Quad) : (s.modQuad q f).here = s.here := rfl

@[simp] theorem State.g_modQuad (s : State) (q : Nat) (f : Quad → Quad) (r : Reg) : (s.modQuad q f).g r = s.g r := rfl

@[simp] theorem State.clusterAt_modQuad (s : State) (q : Nat) (f : Quad → Quad) (k : Nat) :
    (s.modQuad q f).clusterAt k = s.clusterAt k := rfl

@[simp] theorem State.part_modQuad (s : State) (q : Nat) (f : Quad → Quad) (k : Nat) : (s.modQuad q f).part k = s.part k := rfl

@[simp] theorem State.partOfCluster_modQuad (s : State) (q : Nat) (f : Quad → Quad) (k : Nat) :
    (s.modQuad q f).partOfCluster k = s.partOfCluster k := rfl

@[simp] theorem State.partNo_modQuad (s : State) (q : Nat) (f : Quad → Quad) (k : Nat) : (s.modQuad q f).partNo k = s.partNo k := rfl

@[simp] theorem State.partOf_modQuad (s : State) (q : Nat) (f : Quad → Quad) (k : Nat) : (s.modQuad q f).partOf k = s.partOf k := rfl

@[simp] theorem State.curPart_modQuad (s : State) (q : Nat) (f : Quad → Quad) : (s.modQuad q f).curPart = s.curPart := rfl

@[simp] theorem State.coreIndex_modQuad (s : State) (q : Nat) (f : Quad → Quad) (k : Nat) :
    (s.modQuad q f).coreIndex k = s.coreIndex k := rfl

@[simp] theorem State.coreCount_modQuad (s : State) (q : Nat) (f : Quad → Quad) (k : Nat) :
    (s.modQuad q f).coreCount k = s.coreCount k := rfl

@[simp] theorem State.coreNo_modQuad (s : State) (q : Nat) (f : Quad → Quad) (k i : Nat) : (s.modQuad q f).coreNo k i = s.coreNo k i := rfl

/-! ### After `setCluster` -/

@[simp] theorem State.coreAt_setCluster (s : State) (h : Nat) (v : Cluster) (k : Nat) : (s.setCluster h v).coreAt k = s.coreAt k := rfl

@[simp] theorem State.ctxAt_setCluster (s : State) (h : Nat) (v : Cluster) (k : Nat) (y : Fin 16) :
    (s.setCluster h v).ctxAt k y = s.ctxAt k y := rfl

@[simp] theorem State.cur_setCluster (s : State) (h : Nat) (v : Cluster) : (s.setCluster h v).cur = s.cur := rfl

@[simp] theorem State.here_setCluster (s : State) (h : Nat) (v : Cluster) : (s.setCluster h v).here = s.here := rfl

@[simp] theorem State.g_setCluster (s : State) (h : Nat) (v : Cluster) (r : Reg) : (s.setCluster h v).g r = s.g r := rfl

@[simp] theorem State.quadAt_setCluster (s : State) (h : Nat) (v : Cluster) (k : Nat) : (s.setCluster h v).quadAt k = s.quadAt k := rfl

@[simp] theorem State.part_setCluster (s : State) (h : Nat) (v : Cluster) (k : Nat) : (s.setCluster h v).part k = s.part k := rfl

@[simp] theorem State.partOfCluster_setCluster (s : State) (h : Nat) (v : Cluster) (k : Nat) :
    (s.setCluster h v).partOfCluster k = s.partOfCluster k := rfl

@[simp] theorem State.partNo_setCluster (s : State) (h : Nat) (v : Cluster) (k : Nat) : (s.setCluster h v).partNo k = s.partNo k := rfl

@[simp] theorem State.partOf_setCluster (s : State) (h : Nat) (v : Cluster) (k : Nat) : (s.setCluster h v).partOf k = s.partOf k := rfl

@[simp] theorem State.curPart_setCluster (s : State) (h : Nat) (v : Cluster) : (s.setCluster h v).curPart = s.curPart := rfl

@[simp] theorem State.coreIndex_setCluster (s : State) (h : Nat) (v : Cluster) (k : Nat) :
    (s.setCluster h v).coreIndex k = s.coreIndex k := rfl

@[simp] theorem State.coreCount_setCluster (s : State) (h : Nat) (v : Cluster) (k : Nat) :
    (s.setCluster h v).coreCount k = s.coreCount k := rfl

@[simp] theorem State.coreNo_setCluster (s : State) (h : Nat) (v : Cluster) (k i : Nat) :
    (s.setCluster h v).coreNo k i = s.coreNo k i := rfl

/-! ### After `modCluster` -/

@[simp] theorem State.coreAt_modCluster (s : State) (h : Nat) (f : Cluster → Cluster) (k : Nat) :
    (s.modCluster h f).coreAt k = s.coreAt k := rfl

@[simp] theorem State.ctxAt_modCluster (s : State) (h : Nat) (f : Cluster → Cluster) (k : Nat) (y : Fin 16) :
    (s.modCluster h f).ctxAt k y = s.ctxAt k y := rfl

@[simp] theorem State.cur_modCluster (s : State) (h : Nat) (f : Cluster → Cluster) : (s.modCluster h f).cur = s.cur := rfl

@[simp] theorem State.here_modCluster (s : State) (h : Nat) (f : Cluster → Cluster) : (s.modCluster h f).here = s.here := rfl

@[simp] theorem State.g_modCluster (s : State) (h : Nat) (f : Cluster → Cluster) (r : Reg) : (s.modCluster h f).g r = s.g r := rfl

@[simp] theorem State.quadAt_modCluster (s : State) (h : Nat) (f : Cluster → Cluster) (k : Nat) :
    (s.modCluster h f).quadAt k = s.quadAt k := rfl

@[simp] theorem State.part_modCluster (s : State) (h : Nat) (f : Cluster → Cluster) (k : Nat) : (s.modCluster h f).part k = s.part k := rfl

@[simp] theorem State.partOfCluster_modCluster (s : State) (h : Nat) (f : Cluster → Cluster) (k : Nat) :
    (s.modCluster h f).partOfCluster k = s.partOfCluster k := rfl

@[simp] theorem State.partNo_modCluster (s : State) (h : Nat) (f : Cluster → Cluster) (k : Nat) :
    (s.modCluster h f).partNo k = s.partNo k := rfl

@[simp] theorem State.partOf_modCluster (s : State) (h : Nat) (f : Cluster → Cluster) (k : Nat) :
    (s.modCluster h f).partOf k = s.partOf k := rfl

@[simp] theorem State.curPart_modCluster (s : State) (h : Nat) (f : Cluster → Cluster) : (s.modCluster h f).curPart = s.curPart := rfl

@[simp] theorem State.coreIndex_modCluster (s : State) (h : Nat) (f : Cluster → Cluster) (k : Nat) :
    (s.modCluster h f).coreIndex k = s.coreIndex k := rfl

@[simp] theorem State.coreCount_modCluster (s : State) (h : Nat) (f : Cluster → Cluster) (k : Nat) :
    (s.modCluster h f).coreCount k = s.coreCount k := rfl

@[simp] theorem State.coreNo_modCluster (s : State) (h : Nat) (f : Cluster → Cluster) (k i : Nat) :
    (s.modCluster h f).coreNo k i = s.coreNo k i := rfl

/-! ### After `setPart` -/

@[simp] theorem State.coreAt_setPart (s : State) (p : Nat) (v : Part) (k : Nat) : (s.setPart p v).coreAt k = s.coreAt k := rfl

@[simp] theorem State.ctxAt_setPart (s : State) (p : Nat) (v : Part) (k : Nat) (y : Fin 16) : (s.setPart p v).ctxAt k y = s.ctxAt k y := rfl

@[simp] theorem State.cur_setPart (s : State) (p : Nat) (v : Part) : (s.setPart p v).cur = s.cur := rfl

@[simp] theorem State.here_setPart (s : State) (p : Nat) (v : Part) : (s.setPart p v).here = s.here := rfl

@[simp] theorem State.g_setPart (s : State) (p : Nat) (v : Part) (r : Reg) : (s.setPart p v).g r = s.g r := rfl

@[simp] theorem State.quadAt_setPart (s : State) (p : Nat) (v : Part) (k : Nat) : (s.setPart p v).quadAt k = s.quadAt k := rfl

@[simp] theorem State.clusterAt_setPart (s : State) (p : Nat) (v : Part) (k : Nat) : (s.setPart p v).clusterAt k = s.clusterAt k := rfl

/-! ### After `modPart` -/

@[simp] theorem State.coreAt_modPart (s : State) (p : Nat) (f : Part → Part) (k : Nat) : (s.modPart p f).coreAt k = s.coreAt k := rfl

@[simp] theorem State.ctxAt_modPart (s : State) (p : Nat) (f : Part → Part) (k : Nat) (y : Fin 16) :
    (s.modPart p f).ctxAt k y = s.ctxAt k y := rfl

@[simp] theorem State.cur_modPart (s : State) (p : Nat) (f : Part → Part) : (s.modPart p f).cur = s.cur := rfl

@[simp] theorem State.here_modPart (s : State) (p : Nat) (f : Part → Part) : (s.modPart p f).here = s.here := rfl

@[simp] theorem State.g_modPart (s : State) (p : Nat) (f : Part → Part) (r : Reg) : (s.modPart p f).g r = s.g r := rfl

@[simp] theorem State.quadAt_modPart (s : State) (p : Nat) (f : Part → Part) (k : Nat) : (s.modPart p f).quadAt k = s.quadAt k := rfl

@[simp] theorem State.clusterAt_modPart (s : State) (p : Nat) (f : Part → Part) (k : Nat) :
    (s.modPart p f).clusterAt k = s.clusterAt k := rfl

/-! ### After `setCore` -/

@[simp] theorem State.quadAt_setCore (s : State) (g : Nat) (v : CoreSt) (k : Nat) : (s.setCore g v).quadAt k = s.quadAt k := rfl

@[simp] theorem State.clusterAt_setCore (s : State) (g : Nat) (v : CoreSt) (k : Nat) : (s.setCore g v).clusterAt k = s.clusterAt k := rfl

@[simp] theorem State.part_setCore (s : State) (g : Nat) (v : CoreSt) (k : Nat) : (s.setCore g v).part k = s.part k := rfl

@[simp] theorem State.partOfCluster_setCore (s : State) (g : Nat) (v : CoreSt) (k : Nat) :
    (s.setCore g v).partOfCluster k = s.partOfCluster k := rfl

@[simp] theorem State.partNo_setCore (s : State) (g : Nat) (v : CoreSt) (k : Nat) : (s.setCore g v).partNo k = s.partNo k := rfl

@[simp] theorem State.partOf_setCore (s : State) (g : Nat) (v : CoreSt) (k : Nat) : (s.setCore g v).partOf k = s.partOf k := rfl

@[simp] theorem State.curPart_setCore (s : State) (g : Nat) (v : CoreSt) : (s.setCore g v).curPart = s.curPart := rfl

@[simp] theorem State.coreIndex_setCore (s : State) (g : Nat) (v : CoreSt) (k : Nat) : (s.setCore g v).coreIndex k = s.coreIndex k := rfl

@[simp] theorem State.coreCount_setCore (s : State) (g : Nat) (v : CoreSt) (k : Nat) : (s.setCore g v).coreCount k = s.coreCount k := rfl

@[simp] theorem State.coreNo_setCore (s : State) (g : Nat) (v : CoreSt) (k i : Nat) : (s.setCore g v).coreNo k i = s.coreNo k i := rfl

/-! ### After `setCtxAt` -/

@[simp] theorem State.quadAt_setCtxAt (s : State) (g : Nat) (x : Fin 16) (v : Ctx) (k : Nat) :
    (s.setCtxAt g x v).quadAt k = s.quadAt k := rfl

@[simp] theorem State.clusterAt_setCtxAt (s : State) (g : Nat) (x : Fin 16) (v : Ctx) (k : Nat) :
    (s.setCtxAt g x v).clusterAt k = s.clusterAt k := rfl

@[simp] theorem State.part_setCtxAt (s : State) (g : Nat) (x : Fin 16) (v : Ctx) (k : Nat) : (s.setCtxAt g x v).part k = s.part k := rfl

@[simp] theorem State.partOfCluster_setCtxAt (s : State) (g : Nat) (x : Fin 16) (v : Ctx) (k : Nat) :
    (s.setCtxAt g x v).partOfCluster k = s.partOfCluster k := rfl

@[simp] theorem State.partNo_setCtxAt (s : State) (g : Nat) (x : Fin 16) (v : Ctx) (k : Nat) :
    (s.setCtxAt g x v).partNo k = s.partNo k := rfl

@[simp] theorem State.partOf_setCtxAt (s : State) (g : Nat) (x : Fin 16) (v : Ctx) (k : Nat) :
    (s.setCtxAt g x v).partOf k = s.partOf k := rfl

@[simp] theorem State.curPart_setCtxAt (s : State) (g : Nat) (x : Fin 16) (v : Ctx) : (s.setCtxAt g x v).curPart = s.curPart := rfl

@[simp] theorem State.coreIndex_setCtxAt (s : State) (g : Nat) (x : Fin 16) (v : Ctx) (k : Nat) :
    (s.setCtxAt g x v).coreIndex k = s.coreIndex k := rfl

@[simp] theorem State.coreCount_setCtxAt (s : State) (g : Nat) (x : Fin 16) (v : Ctx) (k : Nat) :
    (s.setCtxAt g x v).coreCount k = s.coreCount k := rfl

@[simp] theorem State.coreNo_setCtxAt (s : State) (g : Nat) (x : Fin 16) (v : Ctx) (k i : Nat) :
    (s.setCtxAt g x v).coreNo k i = s.coreNo k i := rfl

/-! ### After `setCur` -/

@[simp] theorem State.quadAt_setCur (s : State) (v : Ctx) (k : Nat) : (s.setCur v).quadAt k = s.quadAt k := rfl

@[simp] theorem State.clusterAt_setCur (s : State) (v : Ctx) (k : Nat) : (s.setCur v).clusterAt k = s.clusterAt k := rfl

@[simp] theorem State.part_setCur (s : State) (v : Ctx) (k : Nat) : (s.setCur v).part k = s.part k := rfl

@[simp] theorem State.partOfCluster_setCur (s : State) (v : Ctx) (k : Nat) : (s.setCur v).partOfCluster k = s.partOfCluster k := rfl

@[simp] theorem State.partNo_setCur (s : State) (v : Ctx) (k : Nat) : (s.setCur v).partNo k = s.partNo k := rfl

@[simp] theorem State.partOf_setCur (s : State) (v : Ctx) (k : Nat) : (s.setCur v).partOf k = s.partOf k := rfl

@[simp] theorem State.curPart_setCur (s : State) (v : Ctx) : (s.setCur v).curPart = s.curPart := rfl

@[simp] theorem State.coreIndex_setCur (s : State) (v : Ctx) (k : Nat) : (s.setCur v).coreIndex k = s.coreIndex k := rfl

@[simp] theorem State.coreCount_setCur (s : State) (v : Ctx) (k : Nat) : (s.setCur v).coreCount k = s.coreCount k := rfl

@[simp] theorem State.coreNo_setCur (s : State) (v : Ctx) (k i : Nat) : (s.setCur v).coreNo k i = s.coreNo k i := rfl

/-! ### After `modCore` -/

@[simp] theorem State.quadAt_modCore (s : State) (g : Nat) (f : CoreSt → CoreSt) (k : Nat) : (s.modCore g f).quadAt k = s.quadAt k := rfl

@[simp] theorem State.clusterAt_modCore (s : State) (g : Nat) (f : CoreSt → CoreSt) (k : Nat) :
    (s.modCore g f).clusterAt k = s.clusterAt k := rfl

@[simp] theorem State.part_modCore (s : State) (g : Nat) (f : CoreSt → CoreSt) (k : Nat) : (s.modCore g f).part k = s.part k := rfl

@[simp] theorem State.partOfCluster_modCore (s : State) (g : Nat) (f : CoreSt → CoreSt) (k : Nat) :
    (s.modCore g f).partOfCluster k = s.partOfCluster k := rfl

@[simp] theorem State.partNo_modCore (s : State) (g : Nat) (f : CoreSt → CoreSt) (k : Nat) : (s.modCore g f).partNo k = s.partNo k := rfl

@[simp] theorem State.partOf_modCore (s : State) (g : Nat) (f : CoreSt → CoreSt) (k : Nat) : (s.modCore g f).partOf k = s.partOf k := rfl

@[simp] theorem State.curPart_modCore (s : State) (g : Nat) (f : CoreSt → CoreSt) : (s.modCore g f).curPart = s.curPart := rfl

@[simp] theorem State.coreIndex_modCore (s : State) (g : Nat) (f : CoreSt → CoreSt) (k : Nat) :
    (s.modCore g f).coreIndex k = s.coreIndex k := rfl

@[simp] theorem State.coreCount_modCore (s : State) (g : Nat) (f : CoreSt → CoreSt) (k : Nat) :
    (s.modCore g f).coreCount k = s.coreCount k := rfl

@[simp] theorem State.coreNo_modCore (s : State) (g : Nat) (f : CoreSt → CoreSt) (k i : Nat) :
    (s.modCore g f).coreNo k i = s.coreNo k i := rfl

/-! ### After `modCtx` -/

@[simp] theorem State.quadAt_modCtx (s : State) (g : Nat) (x : Fin 16) (f : Ctx → Ctx) (k : Nat) :
    (s.modCtx g x f).quadAt k = s.quadAt k := rfl

@[simp] theorem State.clusterAt_modCtx (s : State) (g : Nat) (x : Fin 16) (f : Ctx → Ctx) (k : Nat) :
    (s.modCtx g x f).clusterAt k = s.clusterAt k := rfl

@[simp] theorem State.part_modCtx (s : State) (g : Nat) (x : Fin 16) (f : Ctx → Ctx) (k : Nat) : (s.modCtx g x f).part k = s.part k := rfl

@[simp] theorem State.partOfCluster_modCtx (s : State) (g : Nat) (x : Fin 16) (f : Ctx → Ctx) (k : Nat) :
    (s.modCtx g x f).partOfCluster k = s.partOfCluster k := rfl

@[simp] theorem State.partNo_modCtx (s : State) (g : Nat) (x : Fin 16) (f : Ctx → Ctx) (k : Nat) :
    (s.modCtx g x f).partNo k = s.partNo k := rfl

@[simp] theorem State.partOf_modCtx (s : State) (g : Nat) (x : Fin 16) (f : Ctx → Ctx) (k : Nat) :
    (s.modCtx g x f).partOf k = s.partOf k := rfl

@[simp] theorem State.curPart_modCtx (s : State) (g : Nat) (x : Fin 16) (f : Ctx → Ctx) : (s.modCtx g x f).curPart = s.curPart := rfl

@[simp] theorem State.coreIndex_modCtx (s : State) (g : Nat) (x : Fin 16) (f : Ctx → Ctx) (k : Nat) :
    (s.modCtx g x f).coreIndex k = s.coreIndex k := rfl

@[simp] theorem State.coreCount_modCtx (s : State) (g : Nat) (x : Fin 16) (f : Ctx → Ctx) (k : Nat) :
    (s.modCtx g x f).coreCount k = s.coreCount k := rfl

@[simp] theorem State.coreNo_modCtx (s : State) (g : Nat) (x : Fin 16) (f : Ctx → Ctx) (k i : Nat) :
    (s.modCtx g x f).coreNo k i = s.coreNo k i := rfl

/-! ### After `modCur` -/

@[simp] theorem State.quadAt_modCur (s : State) (f : Ctx → Ctx) (k : Nat) : (s.modCur f).quadAt k = s.quadAt k := rfl

@[simp] theorem State.clusterAt_modCur (s : State) (f : Ctx → Ctx) (k : Nat) : (s.modCur f).clusterAt k = s.clusterAt k := rfl

@[simp] theorem State.part_modCur (s : State) (f : Ctx → Ctx) (k : Nat) : (s.modCur f).part k = s.part k := rfl

@[simp] theorem State.partOfCluster_modCur (s : State) (f : Ctx → Ctx) (k : Nat) : (s.modCur f).partOfCluster k = s.partOfCluster k := rfl

@[simp] theorem State.partNo_modCur (s : State) (f : Ctx → Ctx) (k : Nat) : (s.modCur f).partNo k = s.partNo k := rfl

@[simp] theorem State.partOf_modCur (s : State) (f : Ctx → Ctx) (k : Nat) : (s.modCur f).partOf k = s.partOf k := rfl

@[simp] theorem State.curPart_modCur (s : State) (f : Ctx → Ctx) : (s.modCur f).curPart = s.curPart := rfl

@[simp] theorem State.coreIndex_modCur (s : State) (f : Ctx → Ctx) (k : Nat) : (s.modCur f).coreIndex k = s.coreIndex k := rfl

@[simp] theorem State.coreCount_modCur (s : State) (f : Ctx → Ctx) (k : Nat) : (s.modCur f).coreCount k = s.coreCount k := rfl

@[simp] theorem State.coreNo_modCur (s : State) (f : Ctx → Ctx) (k i : Nat) : (s.modCur f).coreNo k i = s.coreNo k i := rfl

/-! ### After `modHere` -/

@[simp] theorem State.quadAt_modHere (s : State) (f : CoreSt → CoreSt) (k : Nat) : (s.modHere f).quadAt k = s.quadAt k := rfl

@[simp] theorem State.clusterAt_modHere (s : State) (f : CoreSt → CoreSt) (k : Nat) : (s.modHere f).clusterAt k = s.clusterAt k := rfl

@[simp] theorem State.part_modHere (s : State) (f : CoreSt → CoreSt) (k : Nat) : (s.modHere f).part k = s.part k := rfl

@[simp] theorem State.partOfCluster_modHere (s : State) (f : CoreSt → CoreSt) (k : Nat) :
    (s.modHere f).partOfCluster k = s.partOfCluster k := rfl

@[simp] theorem State.partNo_modHere (s : State) (f : CoreSt → CoreSt) (k : Nat) : (s.modHere f).partNo k = s.partNo k := rfl

@[simp] theorem State.partOf_modHere (s : State) (f : CoreSt → CoreSt) (k : Nat) : (s.modHere f).partOf k = s.partOf k := rfl

@[simp] theorem State.curPart_modHere (s : State) (f : CoreSt → CoreSt) : (s.modHere f).curPart = s.curPart := rfl

@[simp] theorem State.coreIndex_modHere (s : State) (f : CoreSt → CoreSt) (k : Nat) : (s.modHere f).coreIndex k = s.coreIndex k := rfl

@[simp] theorem State.coreCount_modHere (s : State) (f : CoreSt → CoreSt) (k : Nat) : (s.modHere f).coreCount k = s.coreCount k := rfl

@[simp] theorem State.coreNo_modHere (s : State) (f : CoreSt → CoreSt) (k i : Nat) : (s.modHere f).coreNo k i = s.coreNo k i := rfl

/-! ### After `advance` -/

@[simp] theorem State.quadAt_advance (s : State) (n : Nat) (k : Nat) : (s.advance n).quadAt k = s.quadAt k := rfl

@[simp] theorem State.clusterAt_advance (s : State) (n : Nat) (k : Nat) : (s.advance n).clusterAt k = s.clusterAt k := rfl

@[simp] theorem State.part_advance (s : State) (n : Nat) (k : Nat) : (s.advance n).part k = s.part k := rfl

@[simp] theorem State.partOfCluster_advance (s : State) (n : Nat) (k : Nat) : (s.advance n).partOfCluster k = s.partOfCluster k := rfl

@[simp] theorem State.partNo_advance (s : State) (n : Nat) (k : Nat) : (s.advance n).partNo k = s.partNo k := rfl

@[simp] theorem State.partOf_advance (s : State) (n : Nat) (k : Nat) : (s.advance n).partOf k = s.partOf k := rfl

@[simp] theorem State.curPart_advance (s : State) (n : Nat) : (s.advance n).curPart = s.curPart := rfl

@[simp] theorem State.coreIndex_advance (s : State) (n : Nat) (k : Nat) : (s.advance n).coreIndex k = s.coreIndex k := rfl

@[simp] theorem State.coreCount_advance (s : State) (n : Nat) (k : Nat) : (s.advance n).coreCount k = s.coreCount k := rfl

@[simp] theorem State.coreNo_advance (s : State) (n : Nat) (k i : Nat) : (s.advance n).coreNo k i = s.coreNo k i := rfl

/-! ### Other cores and contexts -/

theorem State.coreAt_setCtxAt_ne (s : State) (g : Nat) (x : Fin 16) (v : Ctx) (h : Nat) (n : g ≠ h) :
    (s.setCtxAt g x v).coreAt h = s.coreAt h := State.coreAt_setCore_ne s g h _ n

theorem State.coreAt_modCtx_ne (s : State) (g : Nat) (x : Fin 16) (f : Ctx → Ctx) (h : Nat) (n : g ≠ h) :
    (s.modCtx g x f).coreAt h = s.coreAt h := State.coreAt_setCore_ne s g h _ n

theorem State.coreAt_modCore_ne (s : State) (g : Nat) (f : CoreSt → CoreSt) (h : Nat) (n : g ≠ h) :
    (s.modCore g f).coreAt h = s.coreAt h := State.coreAt_setCore_ne s g h _ n

@[simp] theorem State.coreAt_modCtx (s : State) (g : Nat) (x : Fin 16) (f : Ctx → Ctx) :
    (s.modCtx g x f).coreAt g = (s.coreAt g).setCtx x (f (s.ctxAt g x)) := by simp [State.modCtx, State.setCtxAt]

@[simp] theorem State.here_modCur (s : State) (f : Ctx → Ctx) : (s.modCur f).here = s.here.setCtx s.ctx (f s.cur) :=
  State.coreAt_modCtx s s.core s.ctx f

theorem State.ctxAt_modCtx_ne (s : State) (g : Nat) (x : Fin 16) (f : Ctx → Ctx) (h : Nat) (y : Fin 16) (n : g ≠ h ∨ x ≠ y) :
    (s.modCtx g x f).ctxAt h y = s.ctxAt h y := by
  by_cases e : g = h
  · subst e
    have hx : x ≠ y := by rcases n with n | n; exact absurd rfl n; exact n
    unfold State.ctxAt
    rw [State.coreAt_modCtx]
    unfold CoreSt.setCtx
    exact Vector.getElem_set_ne x.isLt y.isLt (fun k => hx (Fin.ext k))
  · unfold State.ctxAt; rw [State.coreAt_modCtx_ne s g x f h e]

theorem State.ctxAt_modCore_ne (s : State) (g : Nat) (f : CoreSt → CoreSt) (h : Nat) (y : Fin 16) (n : g ≠ h) :
    (s.modCore g f).ctxAt h y = s.ctxAt h y := by unfold State.ctxAt; rw [State.coreAt_modCore_ne s g f h n]

@[simp] theorem State.ctxAt_modCore (s : State) (g : Nat) (f : CoreSt → CoreSt) (y : Fin 16) :
    (s.modCore g f).ctxAt g y = (f (s.coreAt g)).ctxs[y] := by unfold State.ctxAt; rw [State.coreAt_modCore]

theorem State.modCur_eq (s : State) (f : Ctx → Ctx) : s.modCur f = s.modCtx s.core s.ctx f := rfl

theorem State.modHere_eq (s : State) (f : CoreSt → CoreSt) : s.modHere f = s.modCore s.core f := rfl

/-! ### Changes of different parts in either order -/

theorem State.modCur_modQuad (s : State) (q : Nat) (f : Quad → Quad) (h : Ctx → Ctx) :
    (s.modQuad q f).modCur h = (s.modCur h).modQuad q f := rfl

theorem State.modCtx_modQuad (s : State) (q : Nat) (f : Quad → Quad) (g : Nat) (x : Fin 16) (h : Ctx → Ctx) :
    (s.modQuad q f).modCtx g x h = (s.modCtx g x h).modQuad q f := rfl

theorem State.modCur_modCluster (s : State) (q : Nat) (f : Cluster → Cluster) (h : Ctx → Ctx) :
    (s.modCluster q f).modCur h = (s.modCur h).modCluster q f := rfl

theorem State.modCur_modPart (s : State) (p : Nat) (f : Part → Part) (h : Ctx → Ctx) :
    (s.modPart p f).modCur h = (s.modCur h).modPart p f := rfl

theorem State.modCtx_modPart (s : State) (p : Nat) (f : Part → Part) (g : Nat) (x : Fin 16) (h : Ctx → Ctx) :
    (s.modPart p f).modCtx g x h = (s.modCtx g x h).modPart p f := rfl

end Sys2Proof.Machine
end

