-- ==== Sys2Proof/Laws/Memory.lean ====
section
/-! SUPPORT. Byte memories: every operation keeps the canonical form, and a read after a write. -/

namespace Sys2Proof.Machine

/-! ### Reading -/

theorem Memory.byte_filter_ne (m : Memory) (i j : Nat) (h : i ≠ j) :
    Memory.byte (m.filter fun c => c.1 != i) j = Memory.byte m j := by
  induction m with
  | nil => rfl
  | cons e r ih =>
    obtain ⟨a, w⟩ := e
    by_cases ha : a = i
    · subst ha; simp [Memory.byte, h, ih]
    · simp [Memory.byte, ha, ih]

theorem Memory.byte_filter_self (m : Memory) (i : Nat) :
    Memory.byte (m.filter fun c => c.1 != i) i = unlistedByte := by
  induction m with
  | nil => rfl
  | cons e r ih =>
    obtain ⟨a, w⟩ := e
    by_cases ha : a = i
    · subst ha; simpa using ih
    · simp [Memory.byte, ha, ih]

theorem Memory.byte_insert_ne (m : Memory) (i j : Nat) (v : Byte) (h : i ≠ j) :
    Memory.byte (Memory.insert m i v) j = Memory.byte m j := by
  induction m with
  | nil => simp [Memory.insert, Memory.byte, h]
  | cons e r ih =>
    obtain ⟨a, w⟩ := e
    simp only [Memory.insert]
    split
    · simp [Memory.byte, h]
    · simp [Memory.byte, ih]

theorem Memory.byte_insert_self (m : Memory) (i : Nat) (v : Byte) (h : ∀ c ∈ m, c.1 ≠ i) :
    Memory.byte (Memory.insert m i v) i = v := by
  induction m with
  | nil => simp [Memory.insert, Memory.byte]
  | cons e r ih =>
    obtain ⟨a, w⟩ := e
    have ha : a ≠ i := h (a, w) (by simp)
    simp only [Memory.insert]
    split
    · simp [Memory.byte]
    · simp [Memory.byte, ha, ih fun c hc => h c (by simp [hc])]

/-- A byte read after it was written. -/
@[simp] theorem Memory.byte_put_self (m : Memory) (i : Nat) (v : Byte) : Memory.byte (Memory.put m i v) i = v := by
  simp only [Memory.put]
  split
  · next h => rw [Memory.byte_filter_self, h]
  · exact Memory.byte_insert_self _ _ _ fun c hc => by simpa using (List.mem_filter.mp hc).2

/-- Another byte after a write. -/
theorem Memory.byte_put_ne (m : Memory) (i j : Nat) (v : Byte) (h : i ≠ j) : Memory.byte (Memory.put m i v) j = Memory.byte m j := by
  simp only [Memory.put]
  split
  · exact Memory.byte_filter_ne m i j h
  · rw [Memory.byte_insert_ne _ _ _ _ h, Memory.byte_filter_ne m i j h]

/-- A byte outside the stored ones. -/
theorem Memory.byte_store_out (m : Memory) (a n v j : Nat) (h : j < a ∨ a + n ≤ j) :
    Memory.byte (Memory.store m a n v) j = Memory.byte m j := by
  induction n generalizing m a v with
  | zero => rfl
  | succ n ih =>
    rw [Memory.store, ih _ _ _ (by omega), Memory.byte_put_ne _ _ _ _ (by omega)]

/-- A byte of the stored ones. -/
theorem Memory.byte_store_in (m : Memory) (a n v i : Nat) (h : i < n) :
    Memory.byte (Memory.store m a n v) (a + i) = .ofNat 8 (v / 256 ^ i) := by
  induction n generalizing m a v i with
  | zero => omega
  | succ n ih =>
    cases i with
    | zero => rw [Memory.store, Memory.byte_store_out _ _ _ _ _ (by omega)]; simp
    | succ i =>
      rw [Memory.store, show a + (i + 1) = a + 1 + i by omega, ih _ _ _ _ (by omega), Nat.div_div_eq_div_mul, Nat.pow_succ,
        Nat.mul_comm]

/-- What is loaded depends on the bytes of the range alone. -/
theorem Memory.load_congr (m k : Memory) (a n : Nat) (h : ∀ j, a ≤ j → j < a + n → Memory.byte m j = Memory.byte k j) :
    Memory.load m a n = Memory.load k a n := by
  induction n generalizing a with
  | zero => rfl
  | succ n ih => simp only [Memory.load, h a (by omega) (by omega), ih (a + 1) fun j h1 h2 => h j (by omega) (by omega)]

/-- A load outside the stored bytes. -/
theorem Memory.load_store_out (m : Memory) (a n v b k : Nat) (h : b + k ≤ a ∨ a + n ≤ b) :
    Memory.load (Memory.store m a n v) b k = Memory.load m b k :=
  Memory.load_congr _ _ _ _ fun j h1 h2 => Memory.byte_store_out m a n v j (by omega)

/-- A load of what was stored. -/
theorem Memory.load_store (m : Memory) (a n v : Nat) : Memory.load (Memory.store m a n v) a n = v % 256 ^ n := by
  induction n generalizing m a v with
  | zero => simp [Memory.load, Nat.mod_one]
  | succ n ih =>
    have h0 : Memory.byte (Memory.store m a (n + 1) v) a = .ofNat 8 v := by
      simpa using Memory.byte_store_in m a (n + 1) v 0 (by omega)
    have h1 : v % 256 ^ (n + 1) = v % 256 + 256 * (v / 256 % 256 ^ n) := by
      rw [Nat.pow_succ, Nat.mul_comm (256 ^ n) 256, Nat.mod_mul]
    rw [h1, Memory.load, h0, Memory.store, ih, BitVec.toNat_ofNat]

/-- A loaded number fits its bytes. -/
theorem Memory.load_lt (m : Memory) (a n : Nat) : Memory.load m a n < 256 ^ n := by
  induction n generalizing a with
  | zero => simp [Memory.load]
  | succ n ih =>
    have h1 := (Memory.byte m a).isLt
    have h2 := ih (a + 1)
    rw [Memory.load, Nat.pow_succ]
    omega

/-- A byte outside a list written. -/
theorem Memory.byte_putAll_out (m : Memory) (a : Nat) (l : List Byte) (j : Nat) (h : j < a ∨ a + l.length ≤ j) :
    Memory.byte (Memory.putAll m a l) j = Memory.byte m j := by
  induction l generalizing m a with
  | nil => rfl
  | cons b r ih =>
    simp only [List.length_cons] at h
    rw [Memory.putAll, ih _ _ (by omega), Memory.byte_put_ne _ _ _ _ (by omega)]

/-- A byte of a list written. -/
theorem Memory.byte_putAll_in (m : Memory) (a : Nat) (l : List Byte) (i : Nat) (h : i < l.length) :
    Memory.byte (Memory.putAll m a l) (a + i) = l[i] := by
  induction l generalizing m a i with
  | nil => simp at h
  | cons b r ih =>
    cases i with
    | zero => rw [Memory.putAll, Memory.byte_putAll_out _ _ _ _ (by omega)]; simp
    | succ i =>
      simp only [List.length_cons] at h
      rw [Memory.putAll, show a + (i + 1) = a + 1 + i by omega, ih _ _ _ (by omega)]
      simp

/-! ### The canonical form -/

theorem Memory.rising_mono (m : Memory) (n k : Nat) (h : k ≤ n) (hm : Memory.rising n m = true) : Memory.rising k m = true := by
  cases m with
  | nil => rfl
  | cons e r => obtain ⟨a, w⟩ := e; simp only [Memory.rising, Bool.and_eq_true, decide_eq_true_eq] at *; exact ⟨by omega, hm.2⟩

theorem Memory.rising_filter (m : Memory) (n i : Nat) (hm : Memory.rising n m = true) :
    Memory.rising n (m.filter fun c => c.1 != i) = true := by
  induction m generalizing n with
  | nil => rfl
  | cons e r ih =>
    obtain ⟨a, w⟩ := e
    simp only [Memory.rising, Bool.and_eq_true, decide_eq_true_eq] at hm
    by_cases ha : a = i
    · subst ha
      simpa using Memory.rising_mono _ _ _ (by omega) (ih _ hm.2)
    · simp [ha, Memory.rising, hm.1, ih _ hm.2]

theorem Memory.rising_insert (m : Memory) (n i : Nat) (v : Byte) (hn : n ≤ i) (hm : Memory.rising n m = true)
    (h : ∀ c ∈ m, c.1 ≠ i) : Memory.rising n (Memory.insert m i v) = true := by
  induction m generalizing n with
  | nil => simp [Memory.insert, Memory.rising, hn]
  | cons e r ih =>
    obtain ⟨a, w⟩ := e
    have ha : a ≠ i := h (a, w) (by simp)
    simp only [Memory.rising, Bool.and_eq_true, decide_eq_true_eq] at hm
    simp only [Memory.insert]
    split
    · simp only [Memory.rising, Bool.and_eq_true, decide_eq_true_eq]; exact ⟨hn, by omega, hm.2⟩
    · simp only [Memory.rising, Bool.and_eq_true, decide_eq_true_eq]
      exact ⟨hm.1, ih _ (by omega) hm.2 fun c hc => h c (by simp [hc])⟩

theorem Memory.mem_insert (m : Memory) (i : Nat) (v : Byte) (c : Host.Cell) (h : c ∈ Memory.insert m i v) : c = (i, v) ∨ c ∈ m := by
  induction m with
  | nil => simpa [Memory.insert] using h
  | cons e r ih =>
    obtain ⟨a, w⟩ := e
    simp only [Memory.insert] at h
    split at h
    · simpa using h
    · simp only [List.mem_cons] at h ⊢
      rcases h with h | h
      · exact .inr (.inl h)
      · rcases ih h with h | h
        · exact .inl h
        · exact .inr (.inr h)

@[simp] theorem Memory.wf_nil : Memory.wf [] = true := rfl

/-- Writing a byte keeps the canonical form. -/
theorem Memory.wf_put (m : Memory) (i : Nat) (v : Byte) (hm : m.wf = true) : (Memory.put m i v).wf = true := by
  simp only [Memory.wf, Bool.and_eq_true] at hm
  have h1 := Memory.rising_filter m 0 i hm.1
  have h2 : (m.filter fun c => c.1 != i).all (fun c => c.2 != unlistedByte) = true := by
    rw [List.all_eq_true] at *
    exact fun c hc => hm.2 c (List.mem_filter.mp hc).1
  simp only [Memory.put]
  split
  · simp [Memory.wf, h1, h2]
  · next hv =>
    simp only [Memory.wf, Bool.and_eq_true]
    refine ⟨Memory.rising_insert _ _ _ _ (Nat.zero_le i) h1 fun c hc => by simpa using (List.mem_filter.mp hc).2, ?_⟩
    rw [List.all_eq_true] at *
    intro c hc
    rcases Memory.mem_insert _ _ _ _ hc with h | h
    · subst h; simpa using hv
    · exact h2 c h

/-- Storing a number keeps the canonical form. -/
theorem Memory.wf_store (m : Memory) (a n v : Nat) (hm : m.wf = true) : (Memory.store m a n v).wf = true := by
  induction n generalizing m a v with
  | zero => exact hm
  | succ n ih => exact ih _ _ _ (Memory.wf_put m a _ hm)

/-- Writing a list of bytes keeps the canonical form. -/
theorem Memory.wf_putAll (m : Memory) (a : Nat) (l : List Byte) (hm : m.wf = true) : (Memory.putAll m a l).wf = true := by
  induction l generalizing m a with
  | nil => exact hm
  | cons b r ih => exact ih _ _ (Memory.wf_put m a b hm)

end Sys2Proof.Machine
end

