-- ==== Sys2Proof/Laws/Operands.lean ====
section
/-! SUPPORT. What the shared operations on operands do when no operand is a stream register and every synchronised one is full. -/

namespace Sys2Proof.Machine

open Sys2Proof.Spec

@[simp] theorem faultIf_false (c : FaultCode) (sub addr : Nat) : faultIf false c sub addr = .ok () := rfl

theorem faultIf_neg {b : Bool} (h : b = false) (c : FaultCode) (sub addr : Nat) : faultIf b c sub addr = .ok () := by subst h; rfl

theorem faultIf_pos {b : Bool} (h : b = true) (c : FaultCode) (sub addr : Nat) :
    faultIf b c sub addr = .error (.fault c sub addr) := by subst h; rfl

@[simp] theorem Act.ok_bind {α β : Type} (a : α) (f : α → Act β) : ((Except.ok a : Act α) >>= f) = f a := rfl

@[simp] theorem Act.error_bind {α β : Type} (e : Stop) (f : α → Act β) : ((Except.error e : Act α) >>= f) = .error e := rfl

@[simp] theorem Act.pure_eq {α : Type} (a : α) : (pure a : Act α) = .ok a := rfl

theorem Ctx.boundWrite_of_unbound {c : Ctx} {r : Reg} (h : c.bound r = false) : c.boundWrite r = false := by
  unfold Ctx.bound at h
  unfold Ctx.boundWrite
  cases hp : portOf r with
  | none => rfl
  | some p => rw [hp] at h; simp only at h ⊢; rw [h, Bool.false_and]

/-- The stream checks pass where no operand is a stream register. -/
theorem Ctx.streamCheck_ready {c : Ctx} {srcs : List Src} {dst : Option Reg} {n7 : Bool} (hs : ∀ a ∈ srcs, c.bound a.r = false)
    (hd : ∀ d, dst = some d → c.bound d = false) : c.streamCheck srcs dst n7 = .ok () := by
  have h1 : (srcs.any fun a => a.f && c.bound a.r) = false := by
    rw [List.any_eq_false]; intro a ha; simp [hs a ha]
  have h2 : ∀ q : Src → Bool, (srcs.any fun a => c.boundWrite a.r && q a) = false := by
    intro q; rw [List.any_eq_false]; intro a ha; simp [Ctx.boundWrite_of_unbound (hs a ha)]
  unfold Ctx.streamCheck
  cases dst with
  | none => simp only [h1, h2, Bool.and_false, faultIf_false, Act.ok_bind]
  | some d => simp only [h1, h2, hd d rfl, Bool.false_and, Bool.and_false, faultIf_false, Act.ok_bind]

theorem Ctx.bound_congr {c k : Ctx} (h : c.ports = k.ports) (r : Reg) : c.bound r = k.bound r := by
  unfold Ctx.bound; rw [h]

theorem Ctx.popList_ready {c k : Ctx} {srcs : List Src} (h : c.ports = k.ports) (hs : ∀ a ∈ srcs, k.bound a.r = false) :
    c.popList srcs = [] := by
  unfold Ctx.popList
  rw [List.filter_eq_nil_iff]
  intro r hr
  obtain ⟨a, ha, rfl⟩ := List.mem_map.mp (List.mem_eraseDups.mp hr)
  simp [Ctx.bound_congr h, hs a ha]

/-- A synchronised read of full registers clears their full bits, and keeps them to be given back. -/
theorem foldl_clear (l : List Reg) (c : Ctx) :
    l.foldl (fun (c : Ctx) r => { c.clearFull r with undo := { c.undo with full := c.undo.full ||| (1#16 <<< r.val) } }) c
      = { c with full := c.full &&& ~~~(l.foldr (fun r m => m ||| (1#16 <<< r.val)) 0)
                 undo := { c.undo with full := c.undo.full ||| l.foldr (fun r m => m ||| (1#16 <<< r.val)) 0 } } := by
  induction l generalizing c with
  | nil =>
    have h : ∀ x : BitVec 16, x &&& ~~~0 = x ∧ x ||| 0 = x := fun x => ⟨BitVec.and_allOnes, BitVec.or_zero⟩
    simp only [List.foldl_nil, List.foldr_nil, (h _).1, (h _).2]
  | cons r l ih =>
    rw [List.foldl_cons, ih]
    simp only [List.foldr_cons, Ctx.clearFull]
    congr 1
    · ext i; simp; grind
    · congr 1; ext i; simp; grind

theorem syncBits (l : List Reg) (i : Nat) :
    (l.foldr (fun r m => m ||| (1#16 <<< r.val)) (0 : BitVec 16)).getLsbD i = l.any fun r => r.val == i && decide (i < 16) := by
  induction l with
  | nil => simp
  | cons r l ih =>
    have hr := r.isLt
    rw [List.foldr_cons, BitVec.getLsbD_or, ih, List.any_cons, Bool.or_comm]
    congr 1
    by_cases h : r.val = i
    · subst h; simp [hr]
    · simp only [BitVec.getLsbD_shiftLeft, BitVec.getLsbD_one]
      grind

theorem syncMask_bits (l : List Src) (i : Nat) :
    (syncMask l).getLsbD i = l.any fun a => a.f && (a.r.val == i && decide (i < 16)) := by
  induction l with
  | nil => simp [syncMask]
  | cons a l ih =>
    have hr := a.r.isLt
    have : syncMask (a :: l) = if a.f then syncMask l ||| (1#16 <<< a.r.val) else syncMask l := rfl
    rw [this, List.any_cons, ← ih]
    cases a.f with
    | false => simp
    | true =>
      rw [if_pos rfl, BitVec.getLsbD_or, Bool.or_comm]
      congr 1
      by_cases h : a.r.val = i
      · subst h; simp [hr]
      · simp only [BitVec.getLsbD_shiftLeft, BitVec.getLsbD_one]
        grind

theorem syncList_mask (srcs : List Src) : (syncList srcs).foldr (fun r m => m ||| (1#16 <<< r.val)) 0 = syncMask srcs := by
  apply BitVec.eq_of_getLsbD_eq
  intro i hi
  rw [syncBits, syncMask_bits, Bool.eq_iff_iff]
  simp only [List.any_eq_true, syncList, List.mem_eraseDups, List.mem_map, List.mem_filter, Bool.and_eq_true]
  constructor
  · rintro ⟨r, ⟨a, ⟨ha, hf⟩, rfl⟩, h⟩; exact ⟨a, ha, hf, h⟩
  · rintro ⟨a, ha, hf, h⟩; exact ⟨a.r, ⟨a, ⟨ha, hf⟩, rfl⟩, h⟩

/-- READING OPERANDS when none is a stream register and every synchronised one is full (R72 to R74). -/
theorem State.readRegs_ready {s : State} {srcs : List Src} {dst : Option Reg} {n7 : Bool} (hs : ∀ a ∈ srcs, s.cur.bound a.r = false)
    (hd : ∀ d, dst = some d → s.cur.bound d = false) (hf : ∀ a ∈ srcs, a.f = true → s.cur.isFull a.r = true) :
    s.readRegs srcs dst n7 = .ok (s.modCur fun c =>
      { c with full := c.full &&& ~~~(syncMask srcs), undo := { c.undo with full := c.undo.full ||| syncMask srcs } }) := by
  have hall : (syncList srcs).all s.cur.isFull = true := by
    rw [List.all_eq_true]
    intro r hr
    simp only [syncList, List.mem_eraseDups, List.mem_map, List.mem_filter] at hr
    obtain ⟨a, ⟨ha, hf'⟩, rfl⟩ := hr
    exact hf a ha hf'
  have hp : ∀ c : Ctx, c.ports = s.cur.ports → c.popList srcs = [] := fun c h => Ctx.popList_ready h hs
  unfold State.readRegs Ctx.syncRead
  simp only [Ctx.streamCheck_ready hs hd, Act.ok_bind, hall, if_true, foldl_clear, syncList_mask, hp, Ctx.pops, Act.pure_eq]
  rfl

theorem State.writeReg_unbound {s : State} {d : Reg} (v : W) (hd : s.cur.bound d = false) :
    s.writeReg d v = .ok (s.modCur fun c => c.setG d v) := by
  unfold State.writeReg
  unfold Ctx.bound at hd
  cases hp : portOf d with
  | none => rfl
  | some p => rw [hp] at hd; simp only at hd ⊢; rw [hd]; rfl

/-! ### What reading operands leaves alone -/

@[simp] theorem synced_st (c : Ctx) (l : List Src) : (synced c l).st = c.st := rfl
@[simp] theorem synced_park (c : Ctx) (l : List Src) : (synced c l).park = c.park := rfl
@[simp] theorem synced_notBefore (c : Ctx) (l : List Src) : (synced c l).notBefore = c.notBefore := rfl
@[simp] theorem synced_yields (c : Ctx) (l : List Src) : (synced c l).yields = c.yields := rfl
@[simp] theorem synced_pc (c : Ctx) (l : List Src) : (synced c l).pc = c.pc := rfl
@[simp] theorem synced_iword (c : Ctx) (l : List Src) : (synced c l).iword = c.iword := rfl
@[simp] theorem synced_g (c : Ctx) (l : List Src) : (synced c l).g = c.g := rfl
@[simp] theorem synced_k (c : Ctx) (l : List Src) : (synced c l).k = c.k := rfl
@[simp] theorem synced_sgb (c : Ctx) (l : List Src) : (synced c l).sgb = c.sgb := rfl
@[simp] theorem synced_sgl (c : Ctx) (l : List Src) : (synced c l).sgl = c.sgl := rfl
@[simp] theorem synced_clamped (c : Ctx) (l : List Src) : (synced c l).clamped = c.clamped := rfl
@[simp] theorem synced_gydonMode (c : Ctx) (l : List Src) : (synced c l).gydonMode = c.gydonMode := rfl
@[simp] theorem synced_trace (c : Ctx) (l : List Src) : (synced c l).trace = c.trace := rfl
@[simp] theorem synced_gang (c : Ctx) (l : List Src) : (synced c l).gang = c.gang := rfl
@[simp] theorem synced_gangOld (c : Ctx) (l : List Src) : (synced c l).gangOld = c.gangOld := rfl
@[simp] theorem synced_gword (c : Ctx) (l : List Src) : (synced c l).gword = c.gword := rfl
@[simp] theorem synced_gout (c : Ctx) (l : List Src) : (synced c l).gout = c.gout := rfl
@[simp] theorem synced_entryWait (c : Ctx) (l : List Src) : (synced c l).entryWait = c.entryWait := rfl
@[simp] theorem synced_fpc (c : Ctx) (l : List Src) : (synced c l).fpc = c.fpc := rfl
@[simp] theorem synced_geom (c : Ctx) (l : List Src) : (synced c l).geom = c.geom := rfl
@[simp] theorem synced_rstk (c : Ctx) (l : List Src) : (synced c l).rstk = c.rstk := rfl
@[simp] theorem synced_sc (c : Ctx) (l : List Src) : (synced c l).sc = c.sc := rfl
@[simp] theorem synced_ports (c : Ctx) (l : List Src) : (synced c l).ports = c.ports := rfl
@[simp] theorem synced_trm (c : Ctx) (l : List Src) : (synced c l).trm = c.trm := rfl
@[simp] theorem synced_gth (c : Ctx) (l : List Src) : (synced c l).gth = c.gth := rfl
@[simp] theorem synced_cnt (c : Ctx) (l : List Src) : (synced c l).cnt = c.cnt := rfl
@[simp] theorem synced_pendWake (c : Ctx) (l : List Src) : (synced c l).pendWake = c.pendWake := rfl
@[simp] theorem synced_token (c : Ctx) (l : List Src) : (synced c l).token = c.token := rfl
@[simp] theorem synced_deadline (c : Ctx) (l : List Src) : (synced c l).deadline = c.deadline := rfl
@[simp] theorem synced_parkedAt (c : Ctx) (l : List Src) : (synced c l).parkedAt = c.parkedAt := rfl
@[simp] theorem synced_comp (c : Ctx) (l : List Src) : (synced c l).comp = c.comp := rfl
@[simp] theorem synced_role (c : Ctx) (l : List Src) : (synced c l).role = c.role := rfl
@[simp] theorem synced_reads (c : Ctx) (l : List Src) : (synced c l).reads = c.reads := rfl
@[simp] theorem synced_req (c : Ctx) (l : List Src) : (synced c l).req = c.req := rfl
@[simp] theorem synced_prog (c : Ctx) (l : List Src) : (synced c l).prog = c.prog := rfl
@[simp] theorem synced_observed (c : Ctx) (l : List Src) : (synced c l).observed = c.observed := rfl
@[simp] theorem synced_draining (c : Ctx) (l : List Src) : (synced c l).draining = c.draining := rfl
@[simp] theorem synced_giveUp (c : Ctx) (l : List Src) : (synced c l).giveUp = c.giveUp := rfl
@[simp] theorem synced_step (c : Ctx) (l : List Src) : (synced c l).step = c.step := rfl
@[simp] theorem synced_gangLost (c : Ctx) (l : List Src) : (synced c l).gangLost = c.gangLost := rfl
@[simp] theorem synced_fresh (c : Ctx) (l : List Src) : (synced c l).fresh = c.fresh := rfl
@[simp] theorem synced_reaping (c : Ctx) (l : List Src) : (synced c l).reaping = c.reaping := rfl
@[simp] theorem synced_gyd (c : Ctx) (l : List Src) : (synced c l).gyd = c.gyd := rfl

/-- READING OPERANDS that are ready. -/
theorem State.readRegs_of_ready {s : State} {srcs : List Src} {dsts : List Reg} (h : Ready s srcs dsts) (dst : Option Reg)
    (n7 : Bool) (hd : ∀ d, dst = some d → d ∈ dsts) : s.readRegs srcs dst n7 = .ok (s.modCur fun c => synced c srcs) :=
  State.readRegs_ready h.src (fun d e => h.dst d (hd d e)) h.full

/-- How a completion ends a state in which only the executing context was changed. -/
theorem finish_ok (s t : State) : finish s (.ok t) = .next (t.modCur Ctx.done) := rfl

/-- Completing drops what was kept to be given back. -/
theorem Ctx.done_undo_full (c : Ctx) (m : BitVec 16) : Ctx.done { c with undo := { c.undo with full := m } } = Ctx.done c := by
  have h1 : Ctx.bump { c with undo := { c.undo with full := m } } 9 1 = { c.bump 9 1 with undo := { c.undo with full := m } } := by
    unfold Ctx.bump; split <;> rfl
  have h2 : Ctx.enterClamp { c with undo := { c.undo with full := m } } = { c.enterClamp with undo := { c.undo with full := m } } := by
    unfold Ctx.enterClamp; rw [h1]; cases c.undo.clamp <;> rfl
  have h3 : ∀ k : Ctx, Ctx.bump { k with undo := { c.undo with full := m } } 2 1 = { k.bump 2 1 with undo := { c.undo with full := m } } := by
    intro k; unfold Ctx.bump; split <;> rfl
  unfold Ctx.done Ctx.tally
  rw [h2, h3]

/-- Completing after the operands were read: what was kept of them makes no difference. -/
theorem Ctx.done_synced (c : Ctx) (srcs : List Src) (f : Ctx → Ctx) (hf : ∀ (k : Ctx) (m : BitVec 16),
      Ctx.done (f { k with undo := { k.undo with full := m } }) = Ctx.done (f k)) :
    Ctx.done (f (synced c srcs)) = Ctx.done (f { c with full := c.full &&& ~~~(syncMask srcs) }) :=
  hf { c with full := c.full &&& ~~~(syncMask srcs) } _

/-- A computation of one result from operands that are ready (R62, R71 to R73). -/
theorem compute_ready {s : State} {srcs : List Src} {d : Reg} {len : Nat} {f : State → W} (h : Ready s srcs [d]) {v : W}
    (hv : f (s.modCur fun c => synced c srcs) = v) : finish s (s.compute srcs d len f) = .next (wrote s srcs d v len) := by
  have hd : (s.modCur fun c => synced c srcs).cur.bound d = false := by
    rw [State.cur_modCur]; exact h.dst d (by simp)
  unfold State.compute
  rw [State.readRegs_of_ready h (some d) false (by simp), Act.ok_bind, hv, State.writeReg_unbound v hd, Act.ok_bind, Act.pure_eq,
    finish_ok]
  simp only [State.advance_eq, State.modCur_modCur, wrote, completed]
  congr 2
  funext c
  exact Ctx.done_synced c srcs (fun c => (c.setG d v).advance len) fun k m => Ctx.done_undo_full ((k.setG d v).advance len) m

/-- A computation of one result with flags from operands that are ready (R170). -/
theorem computeF_ready {s : State} {srcs : List Src} {d : Reg} {n7 : Bool} {f : State → W × FFlags} (h : Ready s srcs [d])
    {r : W × FFlags} (hv : f (s.modCur fun c => synced c srcs) = r) :
    finish s (s.computeF srcs d n7 f) = .next (wroteF s srcs d r) := by
  have hd : (s.modCur fun c => synced c srcs).cur.bound d = false := by
    rw [State.cur_modCur]; exact h.dst d (by simp)
  unfold State.computeF
  rw [State.readRegs_of_ready h (some d) n7 (by simp), Act.ok_bind, hv]
  simp only [State.writeReg_unbound r.1 hd, Act.ok_bind, Act.pure_eq, finish_ok]
  simp only [State.advance_eq, State.modCur_modCur, wroteF, completed]
  congr 2
  funext c
  exact Ctx.done_synced c srcs (fun c => ((c.setG d r.1).flag r.2).advance 4)
    fun k m => Ctx.done_undo_full (((k.setG d r.1).flag r.2).advance 4) m

/-- A register read after the operands were read is what it was. -/
@[simp] theorem State.g_synced (s : State) (srcs : List Src) (r : Reg) : (s.modCur fun c => synced c srcs).g r = s.g r := by
  unfold State.g; rw [State.cur_modCur]; rfl

@[simp] theorem State.k_synced (s : State) (srcs : List Src) : (s.modCur fun c => synced c srcs).cur.k = s.cur.k := by
  rw [State.cur_modCur]; rfl

@[simp] theorem State.fpc_synced (s : State) (srcs : List Src) : (s.modCur fun c => synced c srcs).cur.fpc = s.cur.fpc := by
  rw [State.cur_modCur]; rfl

@[simp] theorem State.sgb_synced (s : State) (srcs : List Src) : (s.modCur fun c => synced c srcs).cur.sgb = s.cur.sgb := by
  rw [State.cur_modCur]; rfl

@[simp] theorem State.sgl_synced (s : State) (srcs : List Src) : (s.modCur fun c => synced c srcs).cur.sgl = s.cur.sgl := by
  rw [State.cur_modCur]; rfl

@[simp] theorem State.pc_synced (s : State) (srcs : List Src) : (s.modCur fun c => synced c srcs).cur.pc = s.cur.pc := by
  rw [State.cur_modCur]; rfl

/-- The scratchpad of the executing context's core is not touched by a change of the context. -/
@[simp] theorem State.pad_modCur (s : State) (f : Ctx → Ctx) : (s.modCur f).here.pad = s.here.pad := by
  simp [State.here, State.modCur, State.setCur, State.setCtxAt, CoreSt.setCtx]

@[simp] theorem State.constant_modCur (s : State) (f : Ctx → Ctx) (c : Fin 256) : (s.modCur f).constant c = s.constant c := by
  unfold State.constant; rw [State.pad_modCur]

/-! ### The manual's formulas and the machine's -/

theorem tyWidth_pos (t : Ty) : 0 < tyWidth t := by cases t <;> decide

theorem tyWidth_le (t : Ty) : tyWidth t ≤ 64 := by cases t <;> decide

theorem signedOf_eq {w n : Nat} (hw : 0 < w) (hn : n < 2 ^ w) : signedOf w n = (BitVec.ofNat w n).toInt := by
  rw [BitVec.toInt_eq_toNat_cond, BitVec.toNat_ofNat, Nat.mod_eq_of_lt hn]
  unfold signedOf
  have h : 2 ^ w = 2 * 2 ^ (w - 1) := by rw [← Nat.pow_succ']; congr 1; omega
  have : (n < 2 ^ (w - 1)) ↔ (2 * n < 2 ^ w) := by omega
  simp only [this]
  split <;> simp

/-- The machine's Val is the manual's (R111). -/
theorem tyVal_eq (t : Ty) (x : W) : tyVal t x = val t x := by
  have hl : lowBits (tyWidth t) x = (x.setWidth (tyWidth t)).toNat := by simp [lowBits]
  unfold tyVal val
  simp only [hl]
  split
  · rw [signedOf_eq (tyWidth_pos t) (x.setWidth (tyWidth t)).isLt, BitVec.ofNat_toNat, BitVec.setWidth_eq]
  · rfl

theorem toNat_emod_pow (w : Nat) (v : Int) : (v % (2 : Int) ^ w).toNat = (BitVec.ofInt w v).toNat := by
  rw [BitVec.toNat_ofInt]; simp

/-- The machine's Put is the manual's (R111). -/
theorem tyPut_eq (t : Ty) (v : Int) : tyPut t v = put t v := by
  unfold tyPut extend put
  simp only [toNat_emod_pow]
  split
  · rw [signedOf_eq (tyWidth_pos t) (BitVec.ofInt (tyWidth t) v).isLt, BitVec.ofNat_toNat, BitVec.setWidth_eq, BitVec.signExtend]
  · rw [show ((BitVec.ofInt (tyWidth t) v).toNat : Int) = ((BitVec.ofInt (tyWidth t) v).toNat : Int) from rfl, BitVec.ofInt_natCast,
      BitVec.ofNat_toNat]

theorem lowBits_eq (t : Ty) (x : W) : lowBits (tyWidth t) x = bits t x := by simp [lowBits, bits]

end Sys2Proof.Machine
end

