-- ==== Sys2Proof/Laws/PerInstr.lean ====
section
/-! SUPPORT. Per instruction: the lowest bit of an encoding tells its length (R59). -/

namespace Sys2Proof.Laws.Parity

/-- Bit 0 of a 32-bit word is 1, and that of a 16-bit form is 0. -/
def Tells : Enc → Prop
  | .word w => w.toNat % 2 = 1
  | .half w => w.toNat % 2 = 0

/-- The encoding of the instruction, if it has one, tells its length in bit 0 (R59). -/
def Statement (i : Instr) : Prop := ∀ e, encode i = some e → Tells e

theorem tells_word (n : Nat) : Tells (.word (.ofNat 32 (1 + 2 * n))) := by
  simp only [Tells, BitVec.toNat_ofNat]
  omega

theorem tells_half (n : Nat) (h : n % 2 = 0) : Tells (.half (.ofNat 16 n)) := by
  simp only [Tells, BitVec.toNat_ofNat]
  omega

theorem statement_word (i : Instr) (n : Nat) (h : encode i = some (.word (.ofNat 32 (1 + 2 * n)))) : Statement i := by
  intro e he
  rw [h] at he
  cases he
  exact tells_word n

theorem statement_half (i : Instr) (n : Nat) (h : encode i = some (.half (.ofNat 16 n))) (hn : n % 2 = 0) : Statement i := by
  intro e he
  rw [h] at he
  cases he
  exact tells_half n hn

theorem statement_none (i : Instr) (h : encode i = none) : Statement i := by
  intro e he
  rw [h] at he
  cases he

theorem add (t : Ty) (d : Reg) (a : Src) (b : Src) : Statement (.add t d a b) := statement_word _ _ rfl
theorem sub (t : Ty) (d : Reg) (a : Src) (b : Src) : Statement (.sub t d a b) := statement_word _ _ rfl
theorem rsub (t : Ty) (d : Reg) (a : Src) (b : Src) : Statement (.rsub t d a b) := statement_word _ _ rfl
theorem mul (t : Ty) (d : Reg) (a : Src) (b : Src) : Statement (.mul t d a b) := statement_word _ _ rfl
theorem mulh (t : Ty) (d : Reg) (a : Src) (b : Src) : Statement (.mulh t d a b) := statement_word _ _ rfl
theorem mulhn (t : Ty) (d : Reg) (a : Src) (b : Src) : Statement (.mulhn t d a b) := statement_word _ _ rfl
theorem and (d : Reg) (a : Src) (b : Src) : Statement (.and d a b) := statement_word _ _ rfl
theorem or (d : Reg) (a : Src) (b : Src) : Statement (.or d a b) := statement_word _ _ rfl
theorem xor (d : Reg) (a : Src) (b : Src) : Statement (.xor d a b) := statement_word _ _ rfl
theorem andn (d : Reg) (a : Src) (b : Src) : Statement (.andn d a b) := statement_word _ _ rfl
theorem shl (t : Ty) (d : Reg) (a : Src) (b : Src) : Statement (.shl t d a b) := statement_word _ _ rfl
theorem shr (t : Ty) (d : Reg) (a : Src) (b : Src) : Statement (.shr t d a b) := statement_word _ _ rfl
theorem sar (t : Ty) (d : Reg) (a : Src) (b : Src) : Statement (.sar t d a b) := statement_word _ _ rfl
theorem rol (t : Ty) (d : Reg) (a : Src) (b : Src) : Statement (.rol t d a b) := statement_word _ _ rfl
theorem mov (d : Reg) (a : Src) : Statement (.mov d a) := statement_word _ _ rfl
theorem clz (t : Ty) (d : Reg) (a : Src) : Statement (.clz t d a) := statement_word _ _ rfl
theorem ctz (t : Ty) (d : Reg) (a : Src) : Statement (.ctz t d a) := statement_word _ _ rfl
theorem popc (t : Ty) (d : Reg) (a : Src) : Statement (.popc t d a) := statement_word _ _ rfl
theorem brev (t : Ty) (d : Reg) (a : Src) : Statement (.brev t d a) := statement_word _ _ rfl
theorem ext (e : Bool) (d : Reg) (a : Src) (b : Src) : Statement (.ext e d a b) := statement_word _ _ rfl
theorem ins (d : Reg) (a : Src) (b : Src) : Statement (.ins d a b) := statement_word _ _ rfl
theorem min (t : Ty) (d : Reg) (a : Src) (b : Src) : Statement (.min t d a b) := statement_word _ _ rfl
theorem max (t : Ty) (d : Reg) (a : Src) (b : Src) : Statement (.max t d a b) := statement_word _ _ rfl
theorem minn (t : Ty) (d : Reg) (a : Src) (b : Src) : Statement (.minn t d a b) := statement_word _ _ rfl
theorem maxn (t : Ty) (d : Reg) (a : Src) (b : Src) : Statement (.maxn t d a b) := statement_word _ _ rfl
theorem seteq (t : Ty) (d : Reg) (a : Src) (b : Src) : Statement (.seteq t d a b) := statement_word _ _ rfl
theorem setne (t : Ty) (d : Reg) (a : Src) (b : Src) : Statement (.setne t d a b) := statement_word _ _ rfl
theorem setlt (t : Ty) (d : Reg) (a : Src) (b : Src) : Statement (.setlt t d a b) := statement_word _ _ rfl
theorem setge (t : Ty) (d : Reg) (a : Src) (b : Src) : Statement (.setge t d a b) := statement_word _ _ rfl
theorem setltn (t : Ty) (d : Reg) (a : Src) (b : Src) : Statement (.setltn t d a b) := statement_word _ _ rfl
theorem setgen (t : Ty) (d : Reg) (a : Src) (b : Src) : Statement (.setgen t d a b) := statement_word _ _ rfl
theorem sel (d : Reg) (a : Src) (b : Src) : Statement (.sel d a b) := statement_word _ _ rfl
theorem addConst (t : Ty) (d : Reg) (a : Src) (c : Fin 256) : Statement (.addConst t d a c) := statement_word _ _ rfl
theorem rsubConst (t : Ty) (d : Reg) (a : Src) (c : Fin 256) : Statement (.rsubConst t d a c) := statement_word _ _ rfl
theorem mulConst (t : Ty) (d : Reg) (a : Src) (c : Fin 256) : Statement (.mulConst t d a c) := statement_word _ _ rfl
theorem andConst (d : Reg) (a : Src) (c : Fin 256) : Statement (.andConst d a c) := statement_word _ _ rfl
theorem orConst (d : Reg) (a : Src) (c : Fin 256) : Statement (.orConst d a c) := statement_word _ _ rfl
theorem xorConst (d : Reg) (a : Src) (c : Fin 256) : Statement (.xorConst d a c) := statement_word _ _ rfl
theorem shlConst (t : Ty) (d : Reg) (a : Src) (c : Fin 256) : Statement (.shlConst t d a c) := statement_word _ _ rfl
theorem shrConst (t : Ty) (d : Reg) (a : Src) (c : Fin 256) : Statement (.shrConst t d a c) := statement_word _ _ rfl
theorem ldi (d : Reg) (i : BitVec 21) : Statement (.ldi d i) := statement_word _ _ rfl
theorem ldhi (d : Reg) (i : BitVec 21) : Statement (.ldhi d i) := statement_word _ _ rfl
theorem lea (s : SSz) (d : Reg) (o : MOff) : Statement (.lea s d o) := statement_word _ _ rfl
theorem div (t : Ty) (d : Reg) (a : Src) (b : Src) : Statement (.div t d a b) := statement_word _ _ rfl
theorem divn (t : Ty) (d : Reg) (a : Src) (b : Src) : Statement (.divn t d a b) := statement_word _ _ rfl
theorem rem (t : Ty) (d : Reg) (a : Src) (b : Src) : Statement (.rem t d a b) := statement_word _ _ rfl
theorem remn (t : Ty) (d : Reg) (a : Src) (b : Src) : Statement (.remn t d a b) := statement_word _ _ rfl
theorem beq (a : Src) (b : Src) (p : BitVec 11) : Statement (.beq a b p) := statement_word _ _ rfl
theorem bne (a : Src) (b : Src) (p : BitVec 11) : Statement (.bne a b p) := statement_word _ _ rfl
theorem blt (a : Src) (b : Src) (p : BitVec 11) : Statement (.blt a b p) := statement_word _ _ rfl
theorem bge (a : Src) (b : Src) (p : BitVec 11) : Statement (.bge a b p) := statement_word _ _ rfl
theorem bltn (a : Src) (b : Src) (p : BitVec 11) : Statement (.bltn a b p) := statement_word _ _ rfl
theorem bgen (a : Src) (b : Src) (p : BitVec 11) : Statement (.bgen a b p) := statement_word _ _ rfl
theorem bz (a : Src) (p : BitVec 11) : Statement (.bz a p) := statement_word _ _ rfl
theorem bnz (a : Src) (p : BitVec 11) : Statement (.bnz a p) := statement_word _ _ rfl
theorem bany (a : Reg) (p : BitVec 11) : Statement (.bany a p) := statement_word _ _ rfl
theorem ball (a : Reg) (p : BitVec 11) : Statement (.ball a p) := statement_word _ _ rfl
theorem jmp (p : BitVec 25) : Statement (.jmp p) := statement_word _ _ rfl
theorem call (p : BitVec 25) : Statement (.call p) := statement_word _ _ rfl
theorem jmpr (a : Src) : Statement (.jmpr a) := statement_word _ _ rfl
theorem callr (a : Src) : Statement (.callr a) := statement_word _ _ rfl
theorem kand (d : Reg) (a : Reg) (b : Reg) : Statement (.kand d a b) := statement_word _ _ rfl
theorem kor (d : Reg) (a : Reg) (b : Reg) : Statement (.kor d a b) := statement_word _ _ rfl
theorem kxor (d : Reg) (a : Reg) (b : Reg) : Statement (.kxor d a b) := statement_word _ _ rfl
theorem knot (d : Reg) (a : Reg) : Statement (.knot d a) := statement_word _ _ rfl
theorem kmov (d : Reg) (a : Reg) : Statement (.kmov d a) := statement_word _ _ rfl
theorem kmovFromG (d : Reg) (a : Src) : Statement (.kmovFromG d a) := statement_word _ _ rfl
theorem kmovToG (d : Reg) (a : Reg) : Statement (.kmovToG d a) := statement_word _ _ rfl
theorem couple (d : Reg) (a : Src) : Statement (.couple d a) := statement_word _ _ rfl
theorem recouple (d : Reg) : Statement (.recouple d) := statement_word _ _ rfl
theorem padd (m : Bool) (t : Ty) (d : Reg) (a : Src) (b : Src) : Statement (.padd m t d a b) := statement_word _ _ rfl
theorem psub (m : Bool) (t : Ty) (d : Reg) (a : Src) (b : Src) : Statement (.psub m t d a b) := statement_word _ _ rfl
theorem padds (m : Bool) (t : Ty) (d : Reg) (a : Src) (b : Src) : Statement (.padds m t d a b) := statement_word _ _ rfl
theorem psubs (m : Bool) (t : Ty) (d : Reg) (a : Src) (b : Src) : Statement (.psubs m t d a b) := statement_word _ _ rfl
theorem pmul (m : Bool) (t : Ty) (d : Reg) (a : Src) (b : Src) : Statement (.pmul m t d a b) := statement_word _ _ rfl
theorem pmulh (m : Bool) (t : Ty) (d : Reg) (a : Src) (b : Src) : Statement (.pmulh m t d a b) := statement_word _ _ rfl
theorem pmin (m : Bool) (t : Ty) (d : Reg) (a : Src) (b : Src) : Statement (.pmin m t d a b) := statement_word _ _ rfl
theorem pmax (m : Bool) (t : Ty) (d : Reg) (a : Src) (b : Src) : Statement (.pmax m t d a b) := statement_word _ _ rfl
theorem pavg (m : Bool) (t : Ty) (d : Reg) (a : Src) (b : Src) : Statement (.pavg m t d a b) := statement_word _ _ rfl
theorem pabs (m : Bool) (t : Ty) (d : Reg) (a : Src) : Statement (.pabs m t d a) := statement_word _ _ rfl
theorem pshl (m : Bool) (t : Ty) (d : Reg) (a : Src) (b : Src) : Statement (.pshl m t d a b) := statement_word _ _ rfl
theorem pshr (m : Bool) (t : Ty) (d : Reg) (a : Src) (b : Src) : Statement (.pshr m t d a b) := statement_word _ _ rfl
theorem pcmpEq (t : Ty) (k : Reg) (a : Src) (b : Src) : Statement (.pcmpEq t k a b) := statement_word _ _ rfl
theorem pcmpNe (t : Ty) (k : Reg) (a : Src) (b : Src) : Statement (.pcmpNe t k a b) := statement_word _ _ rfl
theorem pcmpLt (t : Ty) (k : Reg) (a : Src) (b : Src) : Statement (.pcmpLt t k a b) := statement_word _ _ rfl
theorem pcmpGe (t : Ty) (k : Reg) (a : Src) (b : Src) : Statement (.pcmpGe t k a b) := statement_word _ _ rfl
theorem psel (t : Ty) (d : Reg) (a : Src) (b : Src) : Statement (.psel t d a b) := statement_word _ _ rfl
theorem pshuf (d : Reg) (a : Src) (b : Src) : Statement (.pshuf d a b) := statement_word _ _ rfl
theorem ppack (t : Ty) (d : Reg) (a : Src) (b : Src) : Statement (.ppack t d a b) := statement_word _ _ rfl
theorem punpkLo (t : Ty) (d : Reg) (a : Src) : Statement (.punpkLo t d a) := statement_word _ _ rfl
theorem punpkHi (t : Ty) (d : Reg) (a : Src) : Statement (.punpkHi t d a) := statement_word _ _ rfl
theorem pmac (m : Bool) (t : Ty) (d : Reg) (a : Src) (b : Src) : Statement (.pmac m t d a b) := statement_word _ _ rfl
theorem phadd (m : Bool) (t : Ty) (d : Reg) (a : Src) (b : Src) : Statement (.phadd m t d a b) := statement_word _ _ rfl
theorem psad (m : Bool) (t : Ty) (d : Reg) (a : Src) (b : Src) : Statement (.psad m t d a b) := statement_word _ _ rfl
theorem scfg (g : Fin 8) (a : Src) (p : Reg) : Statement (.scfg g a p) := statement_word _ _ rfl
theorem sbind (p : Reg) : Statement (.sbind p) := statement_word _ _ rfl
theorem sstop (p : Reg) : Statement (.sstop p) := statement_word _ _ rfl
theorem scnt (d : Reg) (p : Reg) : Statement (.scnt d p) := statement_word _ _ rfl
theorem fadd (t : Ty) (d : Reg) (a : Src) (b : Src) : Statement (.fadd t d a b) := statement_word _ _ rfl
theorem fsub (t : Ty) (d : Reg) (a : Src) (b : Src) : Statement (.fsub t d a b) := statement_word _ _ rfl
theorem fmul (t : Ty) (d : Reg) (a : Src) (b : Src) : Statement (.fmul t d a b) := statement_word _ _ rfl
theorem ffma (t : Ty) (d : Reg) (a : Src) (b : Src) : Statement (.ffma t d a b) := statement_word _ _ rfl
theorem fmin (t : Ty) (d : Reg) (a : Src) (b : Src) : Statement (.fmin t d a b) := statement_word _ _ rfl
theorem fmax (t : Ty) (d : Reg) (a : Src) (b : Src) : Statement (.fmax t d a b) := statement_word _ _ rfl
theorem fabs (t : Ty) (d : Reg) (a : Src) : Statement (.fabs t d a) := statement_word _ _ rfl
theorem fneg (t : Ty) (d : Reg) (a : Src) : Statement (.fneg t d a) := statement_word _ _ rfl
theorem fcmpEq (t : Ty) (d : Reg) (a : Src) (b : Src) : Statement (.fcmpEq t d a b) := statement_word _ _ rfl
theorem fcmpLt (t : Ty) (d : Reg) (a : Src) (b : Src) : Statement (.fcmpLt t d a b) := statement_word _ _ rfl
theorem fcmpLe (t : Ty) (d : Reg) (a : Src) (b : Src) : Statement (.fcmpLe t d a b) := statement_word _ _ rfl
theorem fcmpUn (t : Ty) (d : Reg) (a : Src) (b : Src) : Statement (.fcmpUn t d a b) := statement_word _ _ rfl
theorem frnd (t : Ty) (d : Reg) (a : Src) : Statement (.frnd t d a) := statement_word _ _ rfl
theorem fclass (t : Ty) (d : Reg) (a : Src) : Statement (.fclass t d a) := statement_word _ _ rfl
theorem fcvt (o : Bool) (t : Ty) (s : Ty) (d : Reg) (a : Src) : Statement (.fcvt o t s d a) := statement_word _ _ rfl
theorem pfadd (m : Bool) (t : Ty) (d : Reg) (a : Src) (b : Src) : Statement (.pfadd m t d a b) := statement_word _ _ rfl
theorem pfmul (m : Bool) (t : Ty) (d : Reg) (a : Src) (b : Src) : Statement (.pfmul m t d a b) := statement_word _ _ rfl
theorem pffma (m : Bool) (t : Ty) (d : Reg) (a : Src) (b : Src) : Statement (.pffma m t d a b) := statement_word _ _ rfl
theorem pfmax (m : Bool) (t : Ty) (d : Reg) (a : Src) (b : Src) : Statement (.pfmax m t d a b) := statement_word _ _ rfl
theorem pfcvt (o : Bool) (t : Ty) (s : Ty) (d : Reg) (a : Src) (b : Src) : Statement (.pfcvt o t s d a b) := statement_word _ _ rfl
theorem baddq (t : Ty) (d : Reg) (a : Src) (b : Src) : Statement (.baddq t d a b) := statement_word _ _ rfl
theorem bquant (t : Ty) (d : Reg) (a : Src) (b : Src) : Statement (.bquant t d a b) := statement_word _ _ rfl
theorem bdesc (d : Reg) (a : Src) : Statement (.bdesc d a) := statement_word _ _ rfl
theorem dsexp (h : Bool) (d : Reg) (a : Src) : Statement (.dsexp h d a) := statement_word _ _ rfl
theorem srcp (t : Ty) (d : Reg) (a : Src) : Statement (.srcp t d a) := statement_word _ _ rfl
theorem srsq (t : Ty) (d : Reg) (a : Src) : Statement (.srsq t d a) := statement_word _ _ rfl
theorem ssqrt (t : Ty) (d : Reg) (a : Src) : Statement (.ssqrt t d a) := statement_word _ _ rfl
theorem sexp2 (t : Ty) (d : Reg) (a : Src) : Statement (.sexp2 t d a) := statement_word _ _ rfl
theorem slog2 (t : Ty) (d : Reg) (a : Src) : Statement (.slog2 t d a) := statement_word _ _ rfl
theorem ssin (t : Ty) (d : Reg) (a : Src) : Statement (.ssin t d a) := statement_word _ _ rfl
theorem scos (t : Ty) (d : Reg) (a : Src) : Statement (.scos t d a) := statement_word _ _ rfl
theorem stanh (t : Ty) (d : Reg) (a : Src) : Statement (.stanh t d a) := statement_word _ _ rfl
theorem sfdiv (t : Ty) (d : Reg) (a : Src) (b : Src) : Statement (.sfdiv t d a b) := statement_word _ _ rfl
theorem ld (s : LSz) (d : Reg) (o : MOff) : Statement (.ld s d o) := statement_word _ _ rfl
theorem st (s : SSz) (d : Reg) (o : MOff) : Statement (.st s d o) := statement_word _ _ rfl
theorem ldro (s : LSz) (d : Reg) (o : MOff) : Statement (.ldro s d o) := statement_word _ _ rfl
theorem pref (o : MOff) : Statement (.pref o) := statement_word _ _ rfl
theorem ldx (s : LSz) (d : Reg) (a : Src) (b : Src) : Statement (.ldx s d a b) := statement_word _ _ rfl
theorem ldxW (d : Reg) (w : Reg) : Statement (.ldxW d w) := statement_word _ _ rfl
theorem stx (s : SSz) (d : Reg) (a : Src) (b : Src) : Statement (.stx s d a b) := statement_word _ _ rfl
theorem stxW (d : Reg) (w : Reg) : Statement (.stxW d w) := statement_word _ _ rfl
theorem stash (l : Tile) (a : Src) (g : Reg) : Statement (.stash l a g) := statement_word _ _ rfl
theorem stashOff (l : Tile) : Statement (.stashOff l) := statement_word _ _ rfl
theorem wback (a : Src) (g : Reg) : Statement (.wback a g) := statement_word _ _ rfl
theorem wbackTile (l : Tile) : Statement (.wbackTile l) := statement_word _ _ rfl
theorem discard (a : Src) (g : Reg) : Statement (.discard a g) := statement_word _ _ rfl
theorem aaddN32 (o : Ord) (s : Scope) (d : Reg) (a : Src) (g : Reg) : Statement (.aaddN32 o s d a g) := statement_word _ _ rfl
theorem aaddI32 (o : Ord) (s : Scope) (d : Reg) (a : Src) (g : Reg) : Statement (.aaddI32 o s d a g) := statement_word _ _ rfl
theorem aadd64 (o : Ord) (s : Scope) (d : Reg) (a : Src) (g : Reg) : Statement (.aadd64 o s d a g) := statement_word _ _ rfl
theorem aandN32 (o : Ord) (s : Scope) (d : Reg) (a : Src) (g : Reg) : Statement (.aandN32 o s d a g) := statement_word _ _ rfl
theorem aandI32 (o : Ord) (s : Scope) (d : Reg) (a : Src) (g : Reg) : Statement (.aandI32 o s d a g) := statement_word _ _ rfl
theorem aand64 (o : Ord) (s : Scope) (d : Reg) (a : Src) (g : Reg) : Statement (.aand64 o s d a g) := statement_word _ _ rfl
theorem aorN32 (o : Ord) (s : Scope) (d : Reg) (a : Src) (g : Reg) : Statement (.aorN32 o s d a g) := statement_word _ _ rfl
theorem aorI32 (o : Ord) (s : Scope) (d : Reg) (a : Src) (g : Reg) : Statement (.aorI32 o s d a g) := statement_word _ _ rfl
theorem aor64 (o : Ord) (s : Scope) (d : Reg) (a : Src) (g : Reg) : Statement (.aor64 o s d a g) := statement_word _ _ rfl
theorem axorN32 (o : Ord) (s : Scope) (d : Reg) (a : Src) (g : Reg) : Statement (.axorN32 o s d a g) := statement_word _ _ rfl
theorem axorI32 (o : Ord) (s : Scope) (d : Reg) (a : Src) (g : Reg) : Statement (.axorI32 o s d a g) := statement_word _ _ rfl
theorem axor64 (o : Ord) (s : Scope) (d : Reg) (a : Src) (g : Reg) : Statement (.axor64 o s d a g) := statement_word _ _ rfl
theorem aswapN32 (o : Ord) (s : Scope) (d : Reg) (a : Src) (g : Reg) : Statement (.aswapN32 o s d a g) := statement_word _ _ rfl
theorem aswapI32 (o : Ord) (s : Scope) (d : Reg) (a : Src) (g : Reg) : Statement (.aswapI32 o s d a g) := statement_word _ _ rfl
theorem aswap64 (o : Ord) (s : Scope) (d : Reg) (a : Src) (g : Reg) : Statement (.aswap64 o s d a g) := statement_word _ _ rfl
theorem acasN32 (o : Ord) (s : Scope) (d : Reg) (a : Src) (g : Reg) : Statement (.acasN32 o s d a g) := statement_word _ _ rfl
theorem acasI32 (o : Ord) (s : Scope) (d : Reg) (a : Src) (g : Reg) : Statement (.acasI32 o s d a g) := statement_word _ _ rfl
theorem acas64 (o : Ord) (s : Scope) (d : Reg) (a : Src) (g : Reg) : Statement (.acas64 o s d a g) := statement_word _ _ rfl
theorem amin (o : Ord) (s : Scope) (t : Bool) (d : Reg) (a : Src) (g : Reg) : Statement (.amin o s t d a g) := statement_word _ _ rfl
theorem amax (o : Ord) (s : Scope) (t : Bool) (d : Reg) (a : Src) (g : Reg) : Statement (.amax o s t d a g) := statement_word _ _ rfl
theorem aminn (o : Ord) (s : Scope) (t : Bool) (d : Reg) (a : Src) (g : Reg) : Statement (.aminn o s t d a g) := statement_word _ _ rfl
theorem amaxn (o : Ord) (s : Scope) (t : Bool) (d : Reg) (a : Src) (g : Reg) : Statement (.amaxn o s t d a g) := statement_word _ _ rfl
theorem afadd (o : Ord) (s : Scope) (d : Reg) (a : Src) (g : Reg) : Statement (.afadd o s d a g) := statement_word _ _ rfl
theorem fence (o : Ord) (s : Scope) : Statement (.fence o s) := statement_word _ _ rfl
theorem xfence (p : BitVec 6) (s : Reg) : Statement (.xfence p s) := statement_word _ _ rfl
theorem trinit (a : Src) : Statement (.trinit a) := statement_word _ _ rfl
theorem trjoin (a : Src) : Statement (.trjoin a) := statement_word _ _ rfl
theorem trarrive (d : Reg) (a : Src) : Statement (.trarrive d a) := statement_word _ _ rfl
theorem trexpect (a : Src) (b : Src) : Statement (.trexpect a b) := statement_word _ _ rfl
theorem trwait (d : Reg) (a : Src) (b : Src) : Statement (.trwait d a b) := statement_word _ _ rfl
theorem trtest (d : Reg) (a : Src) : Statement (.trtest d a) := statement_word _ _ rfl
theorem trdrop (a : Src) : Statement (.trdrop a) := statement_word _ _ rfl
theorem chsend (n : Fin 4) (d : Reg) (a : Src) : Statement (.chsend n d a) := statement_word _ _ rfl
theorem chrecv (n : Fin 4) (d : Reg) (b : Reg) : Statement (.chrecv n d b) := statement_word _ _ rfl
theorem chrecvFrom (n : Fin 4) (d : Reg) (a : Src) : Statement (.chrecvFrom n d a) := statement_word _ _ rfl
theorem chpoll (n : Fin 4) (d : Reg) : Statement (.chpoll n d) := statement_word _ _ rfl
theorem cpfill (q : Bool) (l : Tile) (d : Reg) (a : Src) (b : Src) : Statement (.cpfill q l d a b) := statement_word _ _ rfl
theorem cpdrain (q : Bool) (l : Tile) (d : Reg) (a : Src) (b : Src) : Statement (.cpdrain q l d a b) := statement_word _ _ rfl
theorem cpgath (q : Bool) (l : Tile) (d : Reg) (a : Src) (b : Src) : Statement (.cpgath q l d a b) := statement_word _ _ rfl
theorem cpscat (q : Bool) (l : Tile) (d : Reg) (a : Src) (b : Src) : Statement (.cpscat q l d a b) := statement_word _ _ rfl
theorem cpwait (d : Reg) (a : Src) : Statement (.cpwait d a) := statement_word _ _ rfl
theorem cppoll (d : Reg) (a : Src) : Statement (.cppoll d a) := statement_word _ _ rfl
theorem tlstat (l : Tile) (d : Reg) : Statement (.tlstat l d) := statement_word _ _ rfl
theorem tlset (l : Tile) (a : Src) : Statement (.tlset l a) := statement_word _ _ rfl
theorem mxmul (q : Bool) (u : Bool) (v : Bool) (w : Bool) (s : Fin 4) (d : Reg) (a : Src) (b : Src) : Statement (.mxmul q u v w s d a b) := statement_word _ _ rfl
theorem mxmulg (q : Bool) (u : Bool) (v : Bool) (w : Bool) (s : Fin 4) (d : Reg) (a : Src) (b : Src) : Statement (.mxmulg q u v w s d a b) := statement_word _ _ rfl
theorem mxzero (q : Bool) (s : Fin 4) (d : Reg) : Statement (.mxzero q s d) := statement_word _ _ rfl
theorem mxread (q : Bool) (s : Fin 4) (d : Reg) (a : Src) : Statement (.mxread q s d a) := statement_word _ _ rfl
theorem mxwait (d : Reg) (a : Src) : Statement (.mxwait d a) := statement_word _ _ rfl
theorem mxpoll (d : Reg) (a : Src) : Statement (.mxpoll d a) := statement_word _ _ rfl
theorem spawn (d : Reg) (a : Src) (b : Src) : Statement (.spawn d a b) := statement_word _ _ rfl
theorem reap (a : Src) : Statement (.reap a) := statement_word _ _ rfl
theorem wake (a : Src) : Statement (.wake a) := statement_word _ _ rfl
theorem wakeV (n : Reg) (a : Src) (b : Src) : Statement (.wakeV n a b) := statement_word _ _ rfl
theorem sleep (d : Reg) (a : Src) : Statement (.sleep d a) := statement_word _ _ rfl
theorem hop (d : Reg) (a : Src) : Statement (.hop d a) := statement_word _ _ rfl
theorem trap (n : Fin 64) : Statement (.trap n) := statement_word _ _ rfl
theorem eretCtx (a : Src) : Statement (.eretCtx a) := statement_word _ _ rfl
theorem mfs (r : SysReg) (d : Reg) : Statement (.mfs r d) := statement_word _ _ rfl
theorem mts (r : SysReg) (a : Src) : Statement (.mts r a) := statement_word _ _ rfl
theorem sfrec (d : Reg) (a : Src) : Statement (.sfrec d a) := statement_word _ _ rfl
theorem fltinfo (i : Fin 4) (d : Reg) (a : Src) : Statement (.fltinfo i d a) := statement_word _ _ rfl
theorem cntrd (d : Reg) (n : Reg) : Statement (.cntrd d n) := statement_word _ _ rfl
theorem cntrdUnit (u : Fin 8) (d : Reg) : Statement (.cntrdUnit u d) := statement_word _ _ rfl
theorem cntcfg (e : Fin 16) (n : Reg) : Statement (.cntcfg e n) := statement_word _ _ rfl
theorem cntstop (n : Reg) : Statement (.cntstop n) := statement_word _ _ rfl
theorem lnch (d : Reg) (a : Src) (b : Src) : Statement (.lnch d a b) := statement_word _ _ rfl
theorem relnch (d : Reg) (a : Src) (b : Src) : Statement (.relnch d a b) := statement_word _ _ rfl
theorem dtmark (d : Reg) (a : Src) (g : Reg) : Statement (.dtmark d a g) := statement_word _ _ rfl
theorem dtwave (d : Reg) : Statement (.dtwave d) := statement_word _ _ rfl
theorem gtopen (r : Fin 8) (d : Reg) (a : Src) : Statement (.gtopen r d a) := statement_word _ _ rfl
theorem gtsig (v : Bool) (n : Bool) (h : Fin 4) (d : Reg) (a : Src) : Statement (.gtsig v n h d a) := statement_word _ _ rfl
theorem gtwait (h : Fin 4) (d : Reg) (a : Src) : Statement (.gtwait h d a) := statement_word _ _ rfl
theorem gtpoll (h : Fin 4) (d : Reg) : Statement (.gtpoll h d) := statement_word _ _ rfl
theorem gtxfer (g : Fin 8) (h : Fin 4) (d : Reg) (a : Src) (b : Src) : Statement (.gtxfer g h d a b) := statement_word _ _ rfl
theorem gtclose (h : Fin 4) : Statement (.gtclose h) := statement_word _ _ rfl
theorem evreq (g : Fin 8) (d : Reg) (a : Src) (b : Src) : Statement (.evreq g d a b) := statement_word _ _ rfl
theorem kinst (g : Fin 8) (d : Reg) (a : Src) : Statement (.kinst g d a) := statement_word _ _ rfl
theorem cmpsw (d : Reg) (a : Src) : Statement (.cmpsw d a) := statement_word _ _ rfl
theorem mov16 (d : Reg) (a : Reg) : Statement (.mov16 d a) := statement_half _ _ rfl (by omega)
theorem add16 (d : Reg) (a : Reg) : Statement (.add16 d a) := statement_half _ _ rfl (by omega)
theorem sub16 (d : Reg) (a : Reg) : Statement (.sub16 d a) := statement_half _ _ rfl (by omega)
theorem and16 (d : Reg) (a : Reg) : Statement (.and16 d a) := statement_half _ _ rfl (by omega)
theorem or16 (d : Reg) (a : Reg) : Statement (.or16 d a) := statement_half _ _ rfl (by omega)
theorem xor16 (d : Reg) (a : Reg) : Statement (.xor16 d a) := statement_half _ _ rfl (by omega)
theorem ldi16 (d : Reg) (i : BitVec 7) : Statement (.ldi16 d i) := statement_half _ _ rfl (by omega)
theorem ldI6416 (d : Reg) (a : Reg) (g : Fin 8) : Statement (.ldI6416 d a g) := statement_half _ _ rfl (by omega)
theorem stI6416 (d : Reg) (a : Reg) (g : Fin 8) : Statement (.stI6416 d a g) := statement_half _ _ rfl (by omega)
theorem ldN3216 (d : Reg) (a : Reg) (g : Fin 8) : Statement (.ldN3216 d a g) := statement_half _ _ rfl (by omega)
theorem stN3216 (d : Reg) (a : Reg) (g : Fin 8) : Statement (.stN3216 d a g) := statement_half _ _ rfl (by omega)
theorem bz16 (d : Reg) (p : BitVec 7) : Statement (.bz16 d p) := statement_half _ _ rfl (by omega)
theorem bnz16 (d : Reg) (p : BitVec 7) : Statement (.bnz16 d p) := statement_half _ _ rfl (by omega)
theorem movF16 (d : Reg) (a : Reg) : Statement (.movF16 d a) := statement_half _ _ rfl (by omega)
theorem gydonLi : Statement .gydonLi := statement_none _ rfl
theorem gydonLhi : Statement .gydonLhi := statement_none _ rfl
theorem gydonMv : Statement .gydonMv := statement_none _ rfl
theorem gydonAdd : Statement .gydonAdd := statement_none _ rfl
theorem gydonSub : Statement .gydonSub := statement_none _ rfl
theorem gydonAnd : Statement .gydonAnd := statement_none _ rfl
theorem gydonOr : Statement .gydonOr := statement_none _ rfl
theorem gydonXor : Statement .gydonXor := statement_none _ rfl
theorem gydonShl : Statement .gydonShl := statement_none _ rfl
theorem gydonShr : Statement .gydonShr := statement_none _ rfl
theorem gydonLdb : Statement .gydonLdb := statement_none _ rfl
theorem gydonLdh : Statement .gydonLdh := statement_none _ rfl
theorem gydonLdw : Statement .gydonLdw := statement_none _ rfl
theorem gydonStw : Statement .gydonStw := statement_none _ rfl
theorem gydonBeq : Statement .gydonBeq := statement_none _ rfl
theorem gydonBne : Statement .gydonBne := statement_none _ rfl
theorem gydonBlt : Statement .gydonBlt := statement_none _ rfl
theorem gydonJmp : Statement .gydonJmp := statement_none _ rfl
theorem gydonTbl : Statement .gydonTbl := statement_none _ rfl
theorem gydonField : Statement .gydonField := statement_none _ rfl
theorem gydonEmit : Statement .gydonEmit := statement_none _ rfl
theorem gydonEmitH : Statement .gydonEmitH := statement_none _ rfl
theorem gydonOrig : Statement .gydonOrig := statement_none _ rfl
theorem gydonDone : Statement .gydonDone := statement_none _ rfl
theorem gydonFail : Statement .gydonFail := statement_none _ rfl
theorem gydonReadReply : Statement .gydonReadReply := statement_none _ rfl
theorem doneComplete : Statement .doneComplete := statement_none _ rfl
theorem ret : Statement .ret := statement_word _ _ rfl
theorem exit : Statement .exit := statement_word _ _ rfl
theorem nop : Statement .nop := statement_word _ _ rfl
theorem decouple : Statement .decouple := statement_word _ _ rfl
theorem gangArrival : Statement .gangArrival := statement_none _ rfl
theorem streamElementArrival : Statement .streamElementArrival := statement_none _ rfl
theorem sfuRequestStart : Statement .sfuRequestStart := statement_none _ rfl
theorem returnToken : Statement .returnToken := statement_none _ rfl
theorem drain : Statement .drain := statement_word _ _ rfl
theorem stashFill : Statement .stashFill := statement_none _ rfl
theorem translationWalkEnd : Statement .translationWalkEnd := statement_none _ rfl
theorem migrationPullComplete : Statement .migrationPullComplete := statement_none _ rfl
theorem loadReply : Statement .loadReply := statement_none _ rfl
theorem storeComplete : Statement .storeComplete := statement_none _ rfl
theorem remoteAccess : Statement .remoteAccess := statement_none _ rfl
theorem atomicAtSlice : Statement .atomicAtSlice := statement_none _ rfl
theorem atomicReply : Statement .atomicReply := statement_none _ rfl
theorem revoke : Statement .revoke := statement_none _ rfl
theorem farCopyInvalidation : Statement .farCopyInvalidation := statement_none _ rfl
theorem sweepMarker : Statement .sweepMarker := statement_none _ rfl
theorem hioWrite : Statement .hioWrite := statement_none _ rfl
theorem roLineExpiry : Statement .roLineExpiry := statement_none _ rfl
theorem trwaitDeadline : Statement .trwaitDeadline := statement_none _ rfl
theorem flitArrival : Statement .flitArrival := statement_none _ rfl
theorem channelProbeTimer : Statement .channelProbeTimer := statement_none _ rfl
theorem channelProbe : Statement .channelProbe := statement_none _ rfl
theorem channelConfirm : Statement .channelConfirm := statement_none _ rfl
theorem copyJobStart : Statement .copyJobStart := statement_none _ rfl
theorem copyBankWrite : Statement .copyBankWrite := statement_none _ rfl
theorem copyGlobalWriteAccept : Statement .copyGlobalWriteAccept := statement_none _ rfl
theorem copyJobFault : Statement .copyJobFault := statement_none _ rfl
theorem copyJobComplete : Statement .copyJobComplete := statement_none _ rfl
theorem gatewaySeed : Statement .gatewaySeed := statement_none _ rfl
theorem matrixJobStart : Statement .matrixJobStart := statement_none _ rfl
theorem matrixJobComplete : Statement .matrixJobComplete := statement_none _ rfl
theorem matrixJobFault : Statement .matrixJobFault := statement_none _ rfl
theorem yield : Statement .yield := statement_word _ _ rfl
theorem sleepLimit : Statement .sleepLimit := statement_none _ rfl
theorem hopTargetRequest : Statement .hopTargetRequest := statement_none _ rfl
theorem hopImageArrival : Statement .hopImageArrival := statement_none _ rfl
theorem preempt : Statement .preempt := statement_none _ rfl
theorem resume : Statement .resume := statement_none _ rfl
theorem inboxMessage : Statement .inboxMessage := statement_none _ rfl
theorem eret : Statement .eret := statement_word _ _ rfl
theorem handlerEntry : Statement .handlerEntry := statement_none _ rfl
theorem leadRestart : Statement .leadRestart := statement_none _ rfl
theorem dtforget : Statement .dtforget := statement_word _ _ rfl
theorem gateTableOperation : Statement .gateTableOperation := statement_none _ rfl
theorem gateReply : Statement .gateReply := statement_none _ rfl
theorem gateTransferComplete : Statement .gateTransferComplete := statement_none _ rfl
theorem gateRefillTick : Statement .gateRefillTick := statement_none _ rfl
theorem gateMigrationSend : Statement .gateMigrationSend := statement_none _ rfl
theorem gateMigrationArrival : Statement .gateMigrationArrival := statement_none _ rfl
theorem evidenceComplete : Statement .evidenceComplete := statement_none _ rfl
theorem keyInstallComplete : Statement .keyInstallComplete := statement_none _ rfl
theorem rotationSweepStep : Statement .rotationSweepStep := statement_none _ rfl
theorem exit16 : Statement .exit16 := statement_half _ _ rfl (by omega)
theorem ret16 : Statement .ret16 := statement_half _ _ rfl (by omega)
theorem launch : Statement .launch := statement_none _ rfl
theorem relaunch : Statement .relaunch := statement_none _ rfl
theorem mark : Statement .mark := statement_none _ rfl
theorem markStore : Statement .markStore := statement_none _ rfl
theorem waitval : Statement .waitval := statement_none _ rfl
theorem waitvalSatisfied : Statement .waitvalSatisfied := statement_none _ rfl
theorem invalidPacket : Statement .invalidPacket := statement_none _ rfl
theorem translationStart : Statement .translationStart := statement_none _ rfl
theorem launchAdmit : Statement .launchAdmit := statement_none _ rfl
theorem seedBlock : Statement .seedBlock := statement_none _ rfl
theorem waveEnd : Statement .waveEnd := statement_none _ rfl
theorem launchComplete : Statement .launchComplete := statement_none _ rfl
theorem uncorrectableError : Statement .uncorrectableError := statement_none _ rfl
theorem partitionReset : Statement .partitionReset := statement_none _ rfl
theorem watchdogExpiry : Statement .watchdogExpiry := statement_none _ rfl
theorem partitionEnable : Statement .partitionEnable := statement_none _ rfl
theorem partitionDisable : Statement .partitionDisable := statement_none _ rfl
theorem registerWrite : Statement .registerWrite := statement_none _ rfl
theorem pshoot : Statement .pshoot := statement_none _ rfl
theorem pshootComplete : Statement .pshootComplete := statement_none _ rfl
theorem pdrop : Statement .pdrop := statement_none _ rfl
theorem doorbellReissue : Statement .doorbellReissue := statement_none _ rfl
theorem doorbellGiveUp : Statement .doorbellGiveUp := statement_none _ rfl
theorem scrubTaggedRequest : Statement .scrubTaggedRequest := statement_none _ rfl
theorem scrubClearLine : Statement .scrubClearLine := statement_none _ rfl
theorem gateCreate : Statement .gateCreate := statement_none _ rfl
theorem gateChange : Statement .gateChange := statement_none _ rfl
theorem gateDestroy : Statement .gateDestroy := statement_none _ rfl
theorem gateMigrate : Statement .gateMigrate := statement_none _ rfl
theorem createCompartment : Statement .createCompartment := statement_none _ rfl
theorem setFrameTag : Statement .setFrameTag := statement_none _ rfl
theorem readCertificate : Statement .readCertificate := statement_none _ rfl
theorem firmwareUpdate : Statement .firmwareUpdate := statement_none _ rfl
theorem thermalReading : Statement .thermalReading := statement_none _ rfl
theorem firmwareMessage : Statement .firmwareMessage := statement_none _ rfl
theorem permitReturn : Statement .permitReturn := statement_none _ rfl
theorem packageReset : Statement .packageReset := statement_none _ rfl
theorem pcieLinkTraining : Statement .pcieLinkTraining := statement_none _ rfl
theorem linkPartnerDetect : Statement .linkPartnerDetect := statement_none _ rfl
theorem linkProbeExchange : Statement .linkProbeExchange := statement_none _ rfl
theorem linkTrainResult : Statement .linkTrainResult := statement_none _ rfl
theorem linkFlitReceive : Statement .linkFlitReceive := statement_none _ rfl
theorem linkRetrainRequest : Statement .linkRetrainRequest := statement_none _ rfl
theorem illegalEncoding : Statement .illegalEncoding := statement_none _ rfl
theorem fetchFault : Statement .fetchFault := statement_none _ rfl
theorem blockOperationComplete : Statement .blockOperationComplete := statement_none _ rfl
theorem stashWriteBackAcknowledged : Statement .stashWriteBackAcknowledged := statement_none _ rfl
theorem sliceSumComplete : Statement .sliceSumComplete := statement_none _ rfl
theorem faultRingRegisterWrite : Statement .faultRingRegisterWrite := statement_none _ rfl
theorem pstatRead : Statement .pstatRead := statement_none _ rfl
theorem linkLossOfLock : Statement .linkLossOfLock := statement_none _ rfl

end Sys2Proof.Laws.Parity
end

