-- ==== Sys2Proof/Laws/Replies.lean ====
section
/-! SUPPORT. How a reply completes the instruction of a parked context, and how a request leaves an issuing one. -/

namespace Sys2Proof.Machine

open Sys2Proof.Spec

/-- Changing the focus context under another focus. -/
theorem State.modCur_focus (s : State) (g : Nat) (x : Fin 16) (f : Ctx → Ctx) : (s.focus g x).modCur f = (s.modCtx g x f).focus g x := rfl

@[simp] theorem State.cur_focus (s : State) (g : Nat) (x : Fin 16) : (s.focus g x).cur = s.ctxAt g x := rfl

@[simp] theorem State.coreAt_focus (s : State) (g : Nat) (x : Fin 16) (h : Nat) : (s.focus g x).coreAt h = s.coreAt h := rfl

@[simp] theorem State.ctxAt_focus (s : State) (g : Nat) (x : Fin 16) (h : Nat) (y : Fin 16) : (s.focus g x).ctxAt h y = s.ctxAt h y := rfl

theorem State.modCtx_focus (s : State) (g : Nat) (x : Fin 16) (h : Nat) (y : Fin 16) (f : Ctx → Ctx) :
    (s.focus g x).modCtx h y f = (s.modCtx h y f).focus g x := rfl

@[simp] theorem State.refocus_focus (s : State) (g : Nat) (x : Fin 16) : (s.focus g x).refocus s = s := rfl

/-- A changed context is the same state again under its own focus. -/
theorem State.refocus_modCtx_focus (s : State) (g : Nat) (x : Fin 16) (f : Ctx → Ctx) :
    ((s.modCtx g x f).focus g x).refocus s = s.modCtx g x f := rfl

@[simp] theorem Ctx.unitWrite_ports (c : Ctx) (fl : W) (sfu : Bool) : (c.unitWrite fl sfu).ports = c.ports := by
  unfold Ctx.unitWrite; cases sfu <;> simp

/-- A reply writes its register and completes the instruction (R155, R189, R200). -/
theorem State.reply_ready {s : State} {g : Nat} {x : Fin 16} {d : Reg} (h : Deliverable s g x d) (v fl : W) (sfu : Bool) :
    s.reply g x d v fl sfu = some (delivered s g x d v fl sfu) := by
  have hb : ((s.modCtx g x fun c => c.unitWrite fl sfu).focus g x).cur.bound d = false := by
    rw [State.cur_focus, State.ctxAt_modCtx, Ctx.bound_congr (Ctx.unitWrite_ports _ _ _)]
    exact h.reg
  simp only [State.reply, h.home, h.going, h.alive, h.now, State.writeReg_unbound v hb]
  simp only [Option.isSome_none, Bool.false_eq_true, if_false, State.modCur_focus, State.modCtx_focus, State.modCtx_modCtx]
  rfl

/-- A request in flight, from operands that are ready. -/
theorem finish_hold {s : State} {srcs : List Src} (p : Park) (r : Req) (len : Nat) :
    finish s (.error (.held ((s.modCur fun c => synced c srcs).hold p r len))) = .next (asked s srcs p r len) := by
  simp only [finish, State.hold, State.modCur_modCur]
  rfl

end Sys2Proof.Machine
end

