-- ==== Sys2Proof/Tests/Slice0.lean ====
section
/-! SUPPORT. Tests of the model: words of the encoding tables, refused terms, single steps, and states that meet the hypotheses of the
statements. Every expected value is worked out from the manual. -/

set_option Elab.async false

namespace Sys2Proof.Tests

open Sys2Proof.Machine Sys2Proof.Spec

/-! ### Ill-formed terms, one for each check -/

/-- Types outside the lists of R111, R144, R148, R147, R172, R180, R188. -/
theorem test_refuses_types :
    (Instr.add .f32 1 ⟨2, false⟩ ⟨3, false⟩).wf = false ∧ (Instr.mulh .n32 1 ⟨2, false⟩ ⟨3, false⟩).wf = false ∧
    (Instr.mulhn .i32 1 ⟨2, false⟩ ⟨3, false⟩).wf = false ∧ (Instr.shr .i64 1 ⟨2, false⟩ ⟨3, false⟩).wf = false ∧
    (Instr.sar .n64 1 ⟨2, false⟩ ⟨3, false⟩).wf = false ∧ (Instr.padd false .i64 1 ⟨2, false⟩ ⟨3, false⟩).wf = false ∧
    (Instr.pabs false .n8 1 ⟨2, false⟩).wf = false ∧ (Instr.pmac false .i32 1 ⟨2, false⟩ ⟨3, false⟩).wf = false ∧
    (Instr.ppack .i8 1 ⟨2, false⟩ ⟨3, false⟩).wf = false ∧ (Instr.fadd .e4m3 1 ⟨2, false⟩ ⟨3, false⟩).wf = false ∧
    (Instr.fclass .ds8 1 ⟨2, false⟩).wf = false ∧ (Instr.baddq .f16 1 ⟨2, false⟩ ⟨3, false⟩).wf = false ∧
    (Instr.srcp .i32 1 ⟨2, false⟩).wf = false := by decide

/-- Pairs outside R175 and R179, a narrowing PFCVT's unused gB, RLX of FENCE (R252), one path of XFENCE (R248), the index code 31 of
format M (R64), no right of GTOPEN (R404). -/
theorem test_refuses_fields :
    (Instr.fcvt false .i32 .n32 1 ⟨2, false⟩).wf = false ∧ (Instr.fcvt false .f16 .f16 1 ⟨2, false⟩).wf = false ∧
    (Instr.pfcvt false .f32 .e4m3 1 ⟨2, false⟩ ⟨0, false⟩).wf = false ∧ (Instr.pfcvt false .f32 .f16 1 ⟨2, false⟩ ⟨3, false⟩).wf = false ∧
    (Instr.fence .rlx .part).wf = false ∧ (Instr.xfence 4 2).wf = false ∧ (Instr.ld .n8 1 ⟨1, some ⟨15, true⟩, 0⟩).wf = false ∧
    (Instr.gtopen 0 1 ⟨2, false⟩).wf = false := by decide

/-- Register fields that an instruction's own entry refuses (R66 step 5): masks, ports, windows, segments, pairs, scopes, counters. -/
theorem test_refuses_registers : ([
    Instr.bany 4 0, .ball 4 0, .kand 4 0 0, .kor 0 4 0, .kxor 0 0 4, .knot 0 4, .kmov 4 0, .kmovFromG 4 ⟨1, false⟩, .kmovToG 1 4,
    .pcmpEq .i8 4 ⟨1, false⟩ ⟨2, false⟩, .pcmpNe .i8 4 ⟨1, false⟩ ⟨2, false⟩, .pcmpLt .i8 4 ⟨1, false⟩ ⟨2, false⟩,
    .pcmpGe .i8 4 ⟨1, false⟩ ⟨2, false⟩, .scfg 1 ⟨1, false⟩ 4, .sbind 4, .sstop 4, .scnt 1 4, .ldxW 1 4, .stxW 1 4, .stash 3 ⟨1, false⟩ 8,
    .wback ⟨1, false⟩ 8, .discard ⟨1, false⟩ 8, .aaddN32 .rlx .ctx 1 ⟨2, false⟩ 8, .aaddI32 .rlx .ctx 1 ⟨2, false⟩ 8,
    .aadd64 .rlx .ctx 1 ⟨2, false⟩ 8, .aandN32 .rlx .ctx 1 ⟨2, false⟩ 8, .aandI32 .rlx .ctx 1 ⟨2, false⟩ 8, .aand64 .rlx .ctx 1 ⟨2, false⟩ 8,
    .aorN32 .rlx .ctx 1 ⟨2, false⟩ 8, .aorI32 .rlx .ctx 1 ⟨2, false⟩ 8, .aor64 .rlx .ctx 1 ⟨2, false⟩ 8, .axorN32 .rlx .ctx 1 ⟨2, false⟩ 8,
    .axorI32 .rlx .ctx 1 ⟨2, false⟩ 8, .axor64 .rlx .ctx 1 ⟨2, false⟩ 8, .aswapN32 .rlx .ctx 1 ⟨2, false⟩ 8,
    .aswapI32 .rlx .ctx 1 ⟨2, false⟩ 8, .aswap64 .rlx .ctx 1 ⟨2, false⟩ 8, .acasN32 .rlx .ctx 1 ⟨2, false⟩ 1, .acasI32 .rlx .ctx 1 ⟨2, false⟩ 1,
    .acas64 .rlx .ctx 2 ⟨2, false⟩ 8, .amin .rlx .ctx true 1 ⟨2, false⟩ 8, .amax .rlx .ctx true 1 ⟨2, false⟩ 8,
    .aminn .rlx .ctx true 1 ⟨2, false⟩ 8, .amaxn .rlx .ctx true 1 ⟨2, false⟩ 8, .afadd .rlx .ctx 1 ⟨2, false⟩ 8, .xfence 3 11,
    .chsend 0 1 ⟨2, false⟩, .chrecv 0 2 3, .chrecvFrom 0 1 ⟨2, false⟩, .cntrd 1 8, .cntcfg 1 8, .cntstop 8, .dtmark 1 ⟨2, false⟩ 8,
    .gtwait 0 1 ⟨2, false⟩, .gtpoll 0 1].all fun i => !i.wf) = true := by decide

/-! ### Words of the encoding tables -/

/-- Words of the table, rows 1 to 16 of the native instructions: match bits with their operand fields filled in. -/
theorem test_decode_words_1 : ∀ p ∈ [
    (Enc.word 0x2C06CA83, (Instr.add .n8 5 ⟨9, true⟩ ⟨6, false⟩)),
    (Enc.word 0x2C26CA83, (Instr.sub .n8 5 ⟨9, true⟩ ⟨6, false⟩)),
    (Enc.word 0x2C46CA83, (Instr.rsub .n8 5 ⟨9, true⟩ ⟨6, false⟩)),
    (Enc.word 0x2C66CA83, (Instr.mul .n8 5 ⟨9, true⟩ ⟨6, false⟩)),
    (Enc.word 0x0C86CA83, (Instr.mulh .i8 5 ⟨9, true⟩ ⟨6, false⟩)),
    (Enc.word 0x2CA6CA83, (Instr.mulhn .n8 5 ⟨9, true⟩ ⟨6, false⟩)),
    (Enc.word 0x00C6CA83, (Instr.and 5 ⟨9, true⟩ ⟨6, false⟩)),
    (Enc.word 0x00E6CA83, (Instr.or 5 ⟨9, true⟩ ⟨6, false⟩)),
    (Enc.word 0x0106CA83, (Instr.xor 5 ⟨9, true⟩ ⟨6, false⟩)),
    (Enc.word 0x0126CA83, (Instr.andn 5 ⟨9, true⟩ ⟨6, false⟩)),
    (Enc.word 0x2D46CA83, (Instr.shl .n8 5 ⟨9, true⟩ ⟨6, false⟩)),
    (Enc.word 0x2D66CA83, (Instr.shr .n8 5 ⟨9, true⟩ ⟨6, false⟩)),
    (Enc.word 0x0D86CA83, (Instr.sar .i8 5 ⟨9, true⟩ ⟨6, false⟩)),
    (Enc.word 0x2DA6CA83, (Instr.rol .n8 5 ⟨9, true⟩ ⟨6, false⟩)),
    (Enc.word 0x01C0CA83, (Instr.mov 5 ⟨9, true⟩)),
    (Enc.word 0x2C00CA85, (Instr.clz .n8 5 ⟨9, true⟩))], decode p.1 = some p.2 := by decide

/-- Words of the table, rows 17 to 32 of the native instructions: match bits with their operand fields filled in. -/
theorem test_decode_words_2 : ∀ p ∈ [
    (Enc.word 0x2C20CA85, (Instr.ctz .n8 5 ⟨9, true⟩)),
    (Enc.word 0x2C40CA85, (Instr.popc .n8 5 ⟨9, true⟩)),
    (Enc.word 0x2C60CA85, (Instr.brev .n8 5 ⟨9, true⟩)),
    (Enc.word 0x8086CA85, (Instr.ext true 5 ⟨9, true⟩ ⟨6, false⟩)),
    (Enc.word 0x00A6CA85, (Instr.ins 5 ⟨9, true⟩ ⟨6, false⟩)),
    (Enc.word 0x0CC6CA85, (Instr.min .i8 5 ⟨9, true⟩ ⟨6, false⟩)),
    (Enc.word 0x0CE6CA85, (Instr.max .i8 5 ⟨9, true⟩ ⟨6, false⟩)),
    (Enc.word 0x2D06CA85, (Instr.minn .n8 5 ⟨9, true⟩ ⟨6, false⟩)),
    (Enc.word 0x2D26CA85, (Instr.maxn .n8 5 ⟨9, true⟩ ⟨6, false⟩)),
    (Enc.word 0x2D46CA85, (Instr.seteq .n8 5 ⟨9, true⟩ ⟨6, false⟩)),
    (Enc.word 0x2D66CA85, (Instr.setne .n8 5 ⟨9, true⟩ ⟨6, false⟩)),
    (Enc.word 0x0D86CA85, (Instr.setlt .i8 5 ⟨9, true⟩ ⟨6, false⟩)),
    (Enc.word 0x0DA6CA85, (Instr.setge .i8 5 ⟨9, true⟩ ⟨6, false⟩)),
    (Enc.word 0x2DC6CA85, (Instr.setltn .n8 5 ⟨9, true⟩ ⟨6, false⟩)),
    (Enc.word 0x2DE6CA85, (Instr.setgen .n8 5 ⟨9, true⟩ ⟨6, false⟩)),
    (Enc.word 0x0206CA85, (Instr.sel 5 ⟨9, true⟩ ⟨6, false⟩))], decode p.1 = some p.2 := by decide

/-- Words of the table, rows 33 to 48 of the native instructions: match bits with their operand fields filled in. -/
theorem test_decode_words_3 : ∀ p ∈ [
    (Enc.word 0x58A7CA87, (Instr.addConst .n8 5 ⟨9, true⟩ 167)),
    (Enc.word 0x59A7CA87, (Instr.rsubConst .n8 5 ⟨9, true⟩ 167)),
    (Enc.word 0x5AA7CA87, (Instr.mulConst .n8 5 ⟨9, true⟩ 167)),
    (Enc.word 0x03A7CA87, (Instr.andConst 5 ⟨9, true⟩ 167)),
    (Enc.word 0x04A7CA87, (Instr.orConst 5 ⟨9, true⟩ 167)),
    (Enc.word 0x05A7CA87, (Instr.xorConst 5 ⟨9, true⟩ 167)),
    (Enc.word 0x5EA7CA87, (Instr.shlConst .n8 5 ⟨9, true⟩ 167)),
    (Enc.word 0x5FA7CA87, (Instr.shrConst .n8 5 ⟨9, true⟩ 167)),
    (Enc.word 0x891A2A89, (Instr.ldi 5 1123141)),
    (Enc.word 0x891A2A8D, (Instr.ldhi 5 1123141)),
    (Enc.word 0x552DCA8F, (Instr.lea .n32 5 ⟨5, some ⟨9, true⟩, 677⟩)),
    (Enc.word 0x0C06CA8B, (Instr.div .i8 5 ⟨9, true⟩ ⟨6, false⟩)),
    (Enc.word 0x2C26CA8B, (Instr.divn .n8 5 ⟨9, true⟩ ⟨6, false⟩)),
    (Enc.word 0x0C46CA8B, (Instr.rem .i8 5 ⟨9, true⟩ ⟨6, false⟩)),
    (Enc.word 0x2C66CA8B, (Instr.remn .n8 5 ⟨9, true⟩ ⟨6, false⟩)),
    (Enc.word 0x9A46C811, (Instr.beq ⟨9, true⟩ ⟨6, false⟩ 1234))], decode p.1 = some p.2 := by decide

/-- Words of the table, rows 49 to 64 of the native instructions: match bits with their operand fields filled in. -/
theorem test_decode_words_4 : ∀ p ∈ [
    (Enc.word 0x9A46C891, (Instr.bne ⟨9, true⟩ ⟨6, false⟩ 1234)),
    (Enc.word 0x9A46C911, (Instr.blt ⟨9, true⟩ ⟨6, false⟩ 1234)),
    (Enc.word 0x9A46C991, (Instr.bge ⟨9, true⟩ ⟨6, false⟩ 1234)),
    (Enc.word 0x9A46CA11, (Instr.bltn ⟨9, true⟩ ⟨6, false⟩ 1234)),
    (Enc.word 0x9A46CA91, (Instr.bgen ⟨9, true⟩ ⟨6, false⟩ 1234)),
    (Enc.word 0x9A40CB11, (Instr.bz ⟨9, true⟩ 1234)),
    (Enc.word 0x9A40CB91, (Instr.bnz ⟨9, true⟩ 1234)),
    (Enc.word 0x9A400C11, (Instr.bany 1 1234)),
    (Enc.word 0x9A400C91, (Instr.ball 1 1234)),
    (Enc.word 0x91A2B393, (Instr.jmp 19088743)),
    (Enc.word 0x91A2B39B, (Instr.call 19088743)),
    (Enc.word 0x0000C815, (Instr.jmpr ⟨9, true⟩)),
    (Enc.word 0x0020C815, (Instr.callr ⟨9, true⟩)),
    (Enc.word 0x00020897, (Instr.kand 1 1 2)),
    (Enc.word 0x00220897, (Instr.kor 1 1 2)),
    (Enc.word 0x00420897, (Instr.kxor 1 1 2))], decode p.1 = some p.2 := by decide

/-- Words of the table, rows 65 to 80 of the native instructions: match bits with their operand fields filled in. -/
theorem test_decode_words_5 : ∀ p ∈ [
    (Enc.word 0x00600897, (Instr.knot 1 1)),
    (Enc.word 0x00800897, (Instr.kmov 1 1)),
    (Enc.word 0x00A0C897, (Instr.kmovFromG 1 ⟨9, true⟩)),
    (Enc.word 0x00C00A97, (Instr.kmovToG 5 1)),
    (Enc.word 0x0000CA99, (Instr.couple 5 ⟨9, true⟩)),
    (Enc.word 0x00400299, (Instr.recouple 5)),
    (Enc.word 0xAC06CAA1, (Instr.padd true .n8 5 ⟨9, true⟩ ⟨6, false⟩)),
    (Enc.word 0xAC26CAA1, (Instr.psub true .n8 5 ⟨9, true⟩ ⟨6, false⟩)),
    (Enc.word 0xAC46CAA1, (Instr.padds true .n8 5 ⟨9, true⟩ ⟨6, false⟩)),
    (Enc.word 0xAC66CAA1, (Instr.psubs true .n8 5 ⟨9, true⟩ ⟨6, false⟩)),
    (Enc.word 0xAC86CAA1, (Instr.pmul true .n8 5 ⟨9, true⟩ ⟨6, false⟩)),
    (Enc.word 0xACA6CAA1, (Instr.pmulh true .n8 5 ⟨9, true⟩ ⟨6, false⟩)),
    (Enc.word 0xACC6CAA1, (Instr.pmin true .n8 5 ⟨9, true⟩ ⟨6, false⟩)),
    (Enc.word 0xACE6CAA1, (Instr.pmax true .n8 5 ⟨9, true⟩ ⟨6, false⟩)),
    (Enc.word 0xAD06CAA1, (Instr.pavg true .n8 5 ⟨9, true⟩ ⟨6, false⟩)),
    (Enc.word 0x8D20CAA1, (Instr.pabs true .i8 5 ⟨9, true⟩))], decode p.1 = some p.2 := by decide

/-- Words of the table, rows 81 to 96 of the native instructions: match bits with their operand fields filled in. -/
theorem test_decode_words_6 : ∀ p ∈ [
    (Enc.word 0xAD46CAA1, (Instr.pshl true .n8 5 ⟨9, true⟩ ⟨6, false⟩)),
    (Enc.word 0xAD66CAA1, (Instr.pshr true .n8 5 ⟨9, true⟩ ⟨6, false⟩)),
    (Enc.word 0x2C06C923, (Instr.pcmpEq .n8 2 ⟨9, true⟩ ⟨6, false⟩)),
    (Enc.word 0x2C26C923, (Instr.pcmpNe .n8 2 ⟨9, true⟩ ⟨6, false⟩)),
    (Enc.word 0x2C46C923, (Instr.pcmpLt .n8 2 ⟨9, true⟩ ⟨6, false⟩)),
    (Enc.word 0x2C66C923, (Instr.pcmpGe .n8 2 ⟨9, true⟩ ⟨6, false⟩)),
    (Enc.word 0x2C86CAA3, (Instr.psel .n8 5 ⟨9, true⟩ ⟨6, false⟩)),
    (Enc.word 0x00A6CAA3, (Instr.pshuf 5 ⟨9, true⟩ ⟨6, false⟩)),
    (Enc.word 0x28C6CAA3, (Instr.ppack .n16 5 ⟨9, true⟩ ⟨6, false⟩)),
    (Enc.word 0x2CE0CAA3, (Instr.punpkLo .n8 5 ⟨9, true⟩)),
    (Enc.word 0x2D00CAA3, (Instr.punpkHi .n8 5 ⟨9, true⟩)),
    (Enc.word 0xAC06CAA5, (Instr.pmac true .n8 5 ⟨9, true⟩ ⟨6, false⟩)),
    (Enc.word 0xAC26CAA5, (Instr.phadd true .n8 5 ⟨9, true⟩ ⟨6, false⟩)),
    (Enc.word 0xAC46CAA5, (Instr.psad true .n8 5 ⟨9, true⟩ ⟨6, false⟩)),
    (Enc.word 0x1402C827, (Instr.scfg 5 ⟨9, true⟩ 2)),
    (Enc.word 0x00220027, (Instr.sbind 2))], decode p.1 = some p.2 := by decide

/-- Words of the table, rows 97 to 112 of the native instructions: match bits with their operand fields filled in. -/
theorem test_decode_words_7 : ∀ p ∈ [
    (Enc.word 0x00420027, (Instr.sstop 2)),
    (Enc.word 0x006202A7, (Instr.scnt 5 2)),
    (Enc.word 0x4806CAA9, (Instr.fadd .bf16 5 ⟨9, true⟩ ⟨6, false⟩)),
    (Enc.word 0x4826CAA9, (Instr.fsub .bf16 5 ⟨9, true⟩ ⟨6, false⟩)),
    (Enc.word 0x4846CAA9, (Instr.fmul .bf16 5 ⟨9, true⟩ ⟨6, false⟩)),
    (Enc.word 0x4866CAA9, (Instr.ffma .bf16 5 ⟨9, true⟩ ⟨6, false⟩)),
    (Enc.word 0x4886CAA9, (Instr.fmin .bf16 5 ⟨9, true⟩ ⟨6, false⟩)),
    (Enc.word 0x48A6CAA9, (Instr.fmax .bf16 5 ⟨9, true⟩ ⟨6, false⟩)),
    (Enc.word 0x48C0CAA9, (Instr.fabs .bf16 5 ⟨9, true⟩)),
    (Enc.word 0x48E0CAA9, (Instr.fneg .bf16 5 ⟨9, true⟩)),
    (Enc.word 0x4906CAA9, (Instr.fcmpEq .bf16 5 ⟨9, true⟩ ⟨6, false⟩)),
    (Enc.word 0x4926CAA9, (Instr.fcmpLt .bf16 5 ⟨9, true⟩ ⟨6, false⟩)),
    (Enc.word 0x4946CAA9, (Instr.fcmpLe .bf16 5 ⟨9, true⟩ ⟨6, false⟩)),
    (Enc.word 0x4966CAA9, (Instr.fcmpUn .bf16 5 ⟨9, true⟩ ⟨6, false⟩)),
    (Enc.word 0x4980CAA9, (Instr.frnd .bf16 5 ⟨9, true⟩)),
    (Enc.word 0x51A0CAA9, (Instr.fclass .e5m2 5 ⟨9, true⟩))], decode p.1 = some p.2 := by decide

/-- Words of the table, rows 113 to 128 of the native instructions: match bits with their operand fields filled in. -/
theorem test_decode_words_8 : ∀ p ∈ [
    (Enc.word 0xD020CAAB, (Instr.fcvt true .e5m2 .i32 5 ⟨9, true⟩)),
    (Enc.word 0xC806CAAD, (Instr.pfadd true .bf16 5 ⟨9, true⟩ ⟨6, false⟩)),
    (Enc.word 0xC826CAAD, (Instr.pfmul true .bf16 5 ⟨9, true⟩ ⟨6, false⟩)),
    (Enc.word 0xC846CAAD, (Instr.pffma true .bf16 5 ⟨9, true⟩ ⟨6, false⟩)),
    (Enc.word 0xC866CAAD, (Instr.pfmax true .bf16 5 ⟨9, true⟩ ⟨6, false⟩)),
    (Enc.word 0xC886CAAD, (Instr.pfcvt true .bf16 .f32 5 ⟨9, true⟩ ⟨6, false⟩)),
    (Enc.word 0x5406CAAF, (Instr.baddq .ds8 5 ⟨9, true⟩ ⟨6, false⟩)),
    (Enc.word 0x5426CAAF, (Instr.bquant .ds8 5 ⟨9, true⟩ ⟨6, false⟩)),
    (Enc.word 0x0040CAAF, (Instr.bdesc 5 ⟨9, true⟩)),
    (Enc.word 0xD460CAAF, (Instr.dsexp true 5 ⟨9, true⟩)),
    (Enc.word 0x4800CAB1, (Instr.srcp .bf16 5 ⟨9, true⟩)),
    (Enc.word 0x4820CAB1, (Instr.srsq .bf16 5 ⟨9, true⟩)),
    (Enc.word 0x4840CAB1, (Instr.ssqrt .bf16 5 ⟨9, true⟩)),
    (Enc.word 0x4860CAB1, (Instr.sexp2 .bf16 5 ⟨9, true⟩)),
    (Enc.word 0x4880CAB1, (Instr.slog2 .bf16 5 ⟨9, true⟩)),
    (Enc.word 0x48A0CAB1, (Instr.ssin .bf16 5 ⟨9, true⟩))], decode p.1 = some p.2 := by decide

/-- Words of the table, rows 129 to 144 of the native instructions: match bits with their operand fields filled in. -/
theorem test_decode_words_9 : ∀ p ∈ [
    (Enc.word 0x48C0CAB1, (Instr.scos .bf16 5 ⟨9, true⟩)),
    (Enc.word 0x48E0CAB1, (Instr.stanh .bf16 5 ⟨9, true⟩)),
    (Enc.word 0x4906CAB1, (Instr.sfdiv .bf16 5 ⟨9, true⟩ ⟨6, false⟩)),
    (Enc.word 0x552DCAB9, (Instr.ld .n32 5 ⟨5, some ⟨9, true⟩, 677⟩)),
    (Enc.word 0x552DCABB, (Instr.st .n32 5 ⟨5, some ⟨9, true⟩, 677⟩)),
    (Enc.word 0x552DCABD, (Instr.ldro .n32 5 ⟨5, some ⟨9, true⟩, 677⟩)),
    (Enc.word 0xF52DC83D, (Instr.pref ⟨5, some ⟨9, true⟩, 677⟩)),
    (Enc.word 0x4006CABF, (Instr.ldx .n32 5 ⟨9, true⟩ ⟨6, false⟩)),
    (Enc.word 0xE00202BF, (Instr.ldxW 5 2)),
    (Enc.word 0x4026CABF, (Instr.stx .n32 5 ⟨9, true⟩ ⟨6, false⟩)),
    (Enc.word 0xE02202BF, (Instr.stxW 5 2)),
    (Enc.word 0x4C45C83F, (Instr.stash 19 ⟨9, true⟩ 5)),
    (Enc.word 0xCC40003F, (Instr.stashOff 19)),
    (Enc.word 0x0065C83F, (Instr.wback ⟨9, true⟩ 5)),
    (Enc.word 0xCC60003F, (Instr.wbackTile 19)),
    (Enc.word 0x0085C83F, (Instr.discard ⟨9, true⟩ 5))], decode p.1 = some p.2 := by decide

/-- Words of the table, rows 145 to 160 of the native instructions: match bits with their operand fields filled in. -/
theorem test_decode_words_10 : ∀ p ∈ [
    (Enc.word 0x5805CAC1, (Instr.aaddN32 .acq .part 5 ⟨9, true⟩ 5)),
    (Enc.word 0x5825CAC1, (Instr.aaddI32 .acq .part 5 ⟨9, true⟩ 5)),
    (Enc.word 0x5845CAC1, (Instr.aadd64 .acq .part 5 ⟨9, true⟩ 5)),
    (Enc.word 0x5865CAC1, (Instr.aandN32 .acq .part 5 ⟨9, true⟩ 5)),
    (Enc.word 0x5885CAC1, (Instr.aandI32 .acq .part 5 ⟨9, true⟩ 5)),
    (Enc.word 0x58A5CAC1, (Instr.aand64 .acq .part 5 ⟨9, true⟩ 5)),
    (Enc.word 0x58C5CAC1, (Instr.aorN32 .acq .part 5 ⟨9, true⟩ 5)),
    (Enc.word 0x58E5CAC1, (Instr.aorI32 .acq .part 5 ⟨9, true⟩ 5)),
    (Enc.word 0x5905CAC1, (Instr.aor64 .acq .part 5 ⟨9, true⟩ 5)),
    (Enc.word 0x5925CAC1, (Instr.axorN32 .acq .part 5 ⟨9, true⟩ 5)),
    (Enc.word 0x5945CAC1, (Instr.axorI32 .acq .part 5 ⟨9, true⟩ 5)),
    (Enc.word 0x5965CAC1, (Instr.axor64 .acq .part 5 ⟨9, true⟩ 5)),
    (Enc.word 0x5985CAC1, (Instr.aswapN32 .acq .part 5 ⟨9, true⟩ 5)),
    (Enc.word 0x59A5CAC1, (Instr.aswapI32 .acq .part 5 ⟨9, true⟩ 5)),
    (Enc.word 0x59C5CAC1, (Instr.aswap64 .acq .part 5 ⟨9, true⟩ 5)),
    (Enc.word 0x59E5CD41, (Instr.acasN32 .acq .part 10 ⟨9, true⟩ 5))], decode p.1 = some p.2 := by decide

/-- Words of the table, rows 161 to 176 of the native instructions: match bits with their operand fields filled in. -/
theorem test_decode_words_11 : ∀ p ∈ [
    (Enc.word 0x5A05CD41, (Instr.acasI32 .acq .part 10 ⟨9, true⟩ 5)),
    (Enc.word 0x5A25CD41, (Instr.acas64 .acq .part 10 ⟨9, true⟩ 5)),
    (Enc.word 0x5A65CAC1, (Instr.amin .acq .part true 5 ⟨9, true⟩ 5)),
    (Enc.word 0x5AA5CAC1, (Instr.amax .acq .part true 5 ⟨9, true⟩ 5)),
    (Enc.word 0x5AE5CAC1, (Instr.aminn .acq .part true 5 ⟨9, true⟩ 5)),
    (Enc.word 0x5B25CAC1, (Instr.amaxn .acq .part true 5 ⟨9, true⟩ 5)),
    (Enc.word 0x5B45CAC1, (Instr.afadd .acq .part 5 ⟨9, true⟩ 5)),
    (Enc.word 0x58000043, (Instr.fence .acq .part)),
    (Enc.word 0x94200343, (Instr.xfence 37 6)),
    (Enc.word 0x0000C845, (Instr.trinit ⟨9, true⟩)),
    (Enc.word 0x0020C845, (Instr.trjoin ⟨9, true⟩)),
    (Enc.word 0x0040CAC5, (Instr.trarrive 5 ⟨9, true⟩)),
    (Enc.word 0x0066C845, (Instr.trexpect ⟨9, true⟩ ⟨6, false⟩)),
    (Enc.word 0x0086CAC5, (Instr.trwait 5 ⟨9, true⟩ ⟨6, false⟩)),
    (Enc.word 0x00A0CAC5, (Instr.trtest 5 ⟨9, true⟩)),
    (Enc.word 0x00C0C845, (Instr.trdrop ⟨9, true⟩))], decode p.1 = some p.2 := by decide

/-- Words of the table, rows 177 to 192 of the native instructions: match bits with their operand fields filled in. -/
theorem test_decode_words_12 : ∀ p ∈ [
    (Enc.word 0x0800CD47, (Instr.chsend 2 10 ⟨9, true⟩)),
    (Enc.word 0x08260547, (Instr.chrecv 2 10 6)),
    (Enc.word 0x0840CD47, (Instr.chrecvFrom 2 10 ⟨9, true⟩)),
    (Enc.word 0x086002C7, (Instr.chpoll 2 5)),
    (Enc.word 0xCC06CAC9, (Instr.cpfill true 19 5 ⟨9, true⟩ ⟨6, false⟩)),
    (Enc.word 0xCC26CAC9, (Instr.cpdrain true 19 5 ⟨9, true⟩ ⟨6, false⟩)),
    (Enc.word 0xCC46CAC9, (Instr.cpgath true 19 5 ⟨9, true⟩ ⟨6, false⟩)),
    (Enc.word 0xCC66CAC9, (Instr.cpscat true 19 5 ⟨9, true⟩ ⟨6, false⟩)),
    (Enc.word 0x0080CAC9, (Instr.cpwait 5 ⟨9, true⟩)),
    (Enc.word 0x00A0CAC9, (Instr.cppoll 5 ⟨9, true⟩)),
    (Enc.word 0x4CC002C9, (Instr.tlstat 19 5)),
    (Enc.word 0x4CE0C849, (Instr.tlset 19 ⟨9, true⟩)),
    (Enc.word 0xA806CACD, (Instr.mxmul true false true false 2 5 ⟨9, true⟩ ⟨6, false⟩)),
    (Enc.word 0xA826CACD, (Instr.mxmulg true false true false 2 5 ⟨9, true⟩ ⟨6, false⟩)),
    (Enc.word 0x884002CD, (Instr.mxzero true 2 5)),
    (Enc.word 0x8860CACD, (Instr.mxread true 2 5 ⟨9, true⟩))], decode p.1 = some p.2 := by decide

/-- Words of the table, rows 193 to 208 of the native instructions: match bits with their operand fields filled in. -/
theorem test_decode_words_13 : ∀ p ∈ [
    (Enc.word 0x0080CACD, (Instr.mxwait 5 ⟨9, true⟩)),
    (Enc.word 0x00A0CACD, (Instr.mxpoll 5 ⟨9, true⟩)),
    (Enc.word 0x0006CAD1, (Instr.spawn 5 ⟨9, true⟩ ⟨6, false⟩)),
    (Enc.word 0x0020C851, (Instr.reap ⟨9, true⟩)),
    (Enc.word 0x0040C851, (Instr.wake ⟨9, true⟩)),
    (Enc.word 0x0446C951, (Instr.wakeV 2 ⟨9, true⟩ ⟨6, false⟩)),
    (Enc.word 0x0080CAD1, (Instr.sleep 5 ⟨9, true⟩)),
    (Enc.word 0x00A0CAD1, (Instr.hop 5 ⟨9, true⟩)),
    (Enc.word 0x08000059, (Instr.trap 2)),
    (Enc.word 0x0420C859, (Instr.eretCtx ⟨9, true⟩)),
    (Enc.word 0xC44002D9, (Instr.mfs .tepc 5)),
    (Enc.word 0x3460C859, (Instr.mts (.sgb 5) ⟨9, true⟩)),
    (Enc.word 0x0080CAD9, (Instr.sfrec 5 ⟨9, true⟩)),
    (Enc.word 0x08A0CAD9, (Instr.fltinfo 2 5 ⟨9, true⟩)),
    (Enc.word 0x000202DB, (Instr.cntrd 5 2)),
    (Enc.word 0x800002DB, (Instr.cntrdUnit 0 5))], decode p.1 = some p.2 := by decide

/-- Words of the table, rows 209 to 224 of the native instructions: match bits with their operand fields filled in. -/
theorem test_decode_words_14 : ∀ p ∈ [
    (Enc.word 0x2422005B, (Instr.cntcfg 9 2)),
    (Enc.word 0x0042005B, (Instr.cntstop 2)),
    (Enc.word 0x0006CAD3, (Instr.lnch 5 ⟨9, true⟩ ⟨6, false⟩)),
    (Enc.word 0x0026CAD3, (Instr.relnch 5 ⟨9, true⟩ ⟨6, false⟩)),
    (Enc.word 0x0045CAD3, (Instr.dtmark 5 ⟨9, true⟩ 5)),
    (Enc.word 0x006002D3, (Instr.dtwave 5)),
    (Enc.word 0x1400CAD5, (Instr.gtopen 5 5 ⟨9, true⟩)),
    (Enc.word 0x2420CAD5, (Instr.gtsig true false 1 5 ⟨9, true⟩)),
    (Enc.word 0x0440CD55, (Instr.gtwait 1 10 ⟨9, true⟩)),
    (Enc.word 0x04600555, (Instr.gtpoll 1 10)),
    (Enc.word 0xA486CAD5, (Instr.gtxfer 5 1 5 ⟨9, true⟩ ⟨6, false⟩)),
    (Enc.word 0x04A00055, (Instr.gtclose 1)),
    (Enc.word 0x1406CADD, (Instr.evreq 5 5 ⟨9, true⟩ ⟨6, false⟩)),
    (Enc.word 0x1420CADD, (Instr.kinst 5 5 ⟨9, true⟩)),
    (Enc.word 0x0040CADD, (Instr.cmpsw 5 ⟨9, true⟩)),
    (Enc.half 0x12A2, (Instr.mov16 5 9))], decode p.1 = some p.2 := by decide

/-- Words of the table, rows 225 to 240 of the native instructions: match bits with their operand fields filled in. -/
theorem test_decode_words_15 : ∀ p ∈ [
    (Enc.half 0x12A4, (Instr.add16 5 9)),
    (Enc.half 0x12A6, (Instr.sub16 5 9)),
    (Enc.half 0x12A8, (Instr.and16 5 9)),
    (Enc.half 0x12AA, (Instr.or16 5 9)),
    (Enc.half 0x12AC, (Instr.xor16 5 9)),
    (Enc.half 0xA6AE, (Instr.ldi16 5 83)),
    (Enc.half 0xB2B0, (Instr.ldI6416 5 9 5)),
    (Enc.half 0xB2B2, (Instr.stI6416 5 9 5)),
    (Enc.half 0xB2B4, (Instr.ldN3216 5 9 5)),
    (Enc.half 0xB2B6, (Instr.stN3216 5 9 5)),
    (Enc.half 0xA6B8, (Instr.bz16 5 83)),
    (Enc.half 0xA6BA, (Instr.bnz16 5 83)),
    (Enc.half 0x12BE, (Instr.movF16 5 9)),
    (Enc.word 0x00400015, Instr.ret),
    (Enc.word 0x00600015, Instr.exit),
    (Enc.word 0x00800015, Instr.nop)], decode p.1 = some p.2 := by decide

/-- Words of the table, rows 241 to 247 of the native instructions: match bits with their operand fields filled in. -/
theorem test_decode_words_16 : ∀ p ∈ [
    (Enc.word 0x00200019, Instr.decouple),
    (Enc.word 0x00A0003F, Instr.drain),
    (Enc.word 0x00600051, Instr.yield),
    (Enc.word 0x00200059, Instr.eret),
    (Enc.word 0x00800053, Instr.dtforget),
    (Enc.half 0x0000, Instr.exit16),
    (Enc.half 0x001C, Instr.ret16)], decode p.1 = some p.2 := by decide

/-- Gydon halfwords of every opcode of R41 to R53, fields d, a, b filled where the format has them. -/
theorem test_decode_gydon : ∀ p ∈ [
    (0x0904, Instr.gydonLi), (0x1120, .gydonLhi), (0x1940, .gydonMv), (0x214C, .gydonAdd), (0x294C, .gydonSub), (0x314C, .gydonAnd),
    (0x394C, .gydonOr), (0x414C, .gydonXor), (0x494C, .gydonShl), (0x514C, .gydonShr), (0x5943, .gydonLdb), (0x6143, .gydonLdh),
    (0x6943, .gydonLdw), (0x7143, .gydonStw), (0x795F, .gydonBeq), (0x815F, .gydonBne), (0x895F, .gydonBlt), (0x97FF, .gydonJmp),
    (0x9940, .gydonTbl), (0xA14D, .gydonField), (0xA840, .gydonEmit), (0xA841, .gydonEmitH), (0xB040, .gydonOrig), (0xB800, .gydonDone),
    (0xC040, .gydonFail)], decodeGydon p.1 = some p.2 := by decide

/-- Halfwords with an unassigned opcode (0, 25, 31) or a bit set in an unused field are illegal (R39). -/
theorem test_decode_gydon_illegal : ∀ w ∈ [0x0000, 0x07FF, 0xC800, 0xF800, 0x1941, 0x214D, 0xA943, 0xA844, 0xB041, 0xB140, 0xB801, 0xC041,
    0x9941], decodeGydon w = none := by decide

/-- An unassigned major, a set field that a record does not use, a type outside the record's list, and the index code that M forbids. -/
theorem test_decode_illegal : ∀ w ∈ [Enc.word 0xFFFFFFFF, .word 0x02100906, .half 0x0007, .word 0x41C6CA83],
    (decode w).all (fun i => !i.wf) = true := by decide

/-! ### Single steps -/

/-- A package with partition 0 on clusters 0 to 3 and a running context 0 of core 0 whose g1 and g2 hold numbers, and whose window sg0
covers the scratchpad. -/
def machine (f : Ctx → Ctx := id) : State :=
  (State.reset.modPart 0 fun p => { p with en := true, base := 0, len := 4 }).setCtxAt 0 0 (f
    { st := .run, role := .lead, g := ((Vector.replicate 16 0).set 1 0x7FFFFFFFFFFFFFFF).set 2 3, sgl := .replicate 8 0x0107000000006000 })

/-- A field of the state after a step, from context 0 of core 0. -/
def after (s : State) (f : Ctx → W) : Option W := match step s with | .next t => some (f (t.ctxAt 0 0)) | _ => none

/-- ADD.I64 g3, g1, g2 wraps: 2^63 − 1 + 3 = −2^63 + 2 (R113); the pc moves on by 4. -/
theorem test_step_add : after ((machine).withFetchWord 32 0x00020983) (fun c => c.g[(3 : Fin 16)]) = some 0x8000000000000002 ∧
    after ((machine).withFetchWord 32 0x00020983) (fun c => c.pc - machine.cur.pc) = some 4 := by decide +kernel

/-- ADD.N8 g3, g1.f, g2: 255 + 3 = 2 modulo 2^8, and g1 is empty afterwards (R70, R73). -/
theorem test_step_add_n8 : after ((machine).withFetchWord 32 0x2C028983) (fun c => c.g[(3 : Fin 16)]) = some 2 ∧
    after ((machine).withFetchWord 32 0x2C028983) (fun c => c.full.setWidth 64) = some 0xFFFD := by decide +kernel

/-- LDI g5, −300 (R118). -/
theorem test_step_ldi : after ((machine).withFetchWord 32 0xFFF6A289) (fun c => c.g[(5 : Fin 16)]) = some (-300) := by decide +kernel

/-- SAR.I8 g3, g1, g2: the low byte of g1 is −1; a shift to the right keeps −1 (R114). -/
theorem test_step_sar : after ((machine).withFetchWord 32 0x0D820983) (fun c => c.g[(3 : Fin 16)]) = some (-1) := by decide +kernel

/-- BEQ back by one halfword is not taken for g1 and g2, which differ, and is taken for g1 and g1 (R126, R127). -/
theorem test_step_beq : after ((machine).withFetchWord 32 0xFFE20811) (fun c => c.pc - machine.cur.pc) = some 4 ∧
    after ((machine).withFetchWord 32 0xFFE10811) (fun c => c.pc - machine.cur.pc) = some (-2) := by decide +kernel

/-- TRAP 2 enters the lead's handler: TEPC is pc + 4, the pc is 2 × TVEC.ADDR, TACT is set; the slot has KIND 2 and the number
(R281 to R283). -/
theorem test_step_trap : (match step (((machine).modCore 0 fun c => { c with tvec := 0x901 }).withFetchWord 32 0x08000059) with
    | .next t => let c := t.coreAt 0
      (c.tepc - (machine).cur.pc, (t.ctxAt 0 0).pc, c.tact, c.tpend, (c.slots[(0 : Fin 16)]).kind, (c.slots[(0 : Fin 16)]).code)
    | _ => (0, 0, false, 0, 0, 0)) = (4, 0x900, true, 1, 2, 2) := by decide +kernel

/-- Without an enabled handler an all-zero word pair's first halfword, EXIT, raises ECTX in the lead, which falls: it parks, FENCED (R136,
R284). -/
theorem test_step_exit_lead : (match step ((machine).withFetchWord 16 0) with
    | .next t => ((t.coreAt 0).fallen, decide ((t.ctxAt 0 0).park = .fenced))
    | _ => (false, false)) = (true, true) := by decide +kernel

/-- A Gydon halfword runs in context 15 of the translating core: LI b1, 5 (R41). -/
theorem test_step_gydon : (match step (State.reset.withFetchWord 16 0x0905) with
    | .next t => t.cores.any fun c => (c.2.ctxs[(15 : Fin 16)]).gyd.b[(1 : Fin 8)] == 5
    | _ => false) = true := by decide +kernel

/-! ### States that meet the hypotheses of the statements -/

/-- A descriptor: 4 elements of 8 bytes from offset 0x1000 of segment 1. -/
def sampleDesc (dir : Nat) : Nat := 0x1000 + 4 * 2 ^ 64 + 2 ^ 80 + 8 * 2 ^ 96 + 3 * 2 ^ 160 + dir * 2 ^ 163 + 2 ^ 164

/-- A running context: sg0 and sg1 local, sg2 and sg7 global, s0 bound for reading, s1 for writing, s2 configured. -/
def sampleCtx : Ctx :=
  { st := .run, pc := 0x40, iword := 0x12345678
    g := .ofFn fun i => .ofNat 64 (0x1000000010 * (i.val + 1))
    k := (((Vector.replicate 4 0xFF).set 0 0x35).set 1 0x0F).set 2 0
    sgb := .replicate 8 0
    sgl := ((((Vector.replicate 8 0).set 0 0x0107000000006000).set 1 0x011F000000006000).set 2 0x001F800000000000).set 7 0x0103000000006000
    ports := (((Vector.replicate 4 {}).set 0 { cfg := true, bound := true, desc := sampleDesc 0, remain := 4, ahead := [.val 9] }).set 1
      { cfg := true, bound := true, desc := sampleDesc 1, remain := 4 }).set 2 { cfg := true, desc := sampleDesc 0, remain := 4 } }

/-- Partition 0 owns clusters 0 to 3; context 2 of core 3 runs. -/
def sample : State :=
  let s : State := { core := 3, ctx := 2, cycle := 100 }
  let s := s.modPart 0 fun p => { p with en := true, base := 0, len := 4 }
  s.setCtxAt 3 2 sampleCtx

/-- The small state with its context changed. -/
def sampleWith (f : Ctx → Ctx) : State := sample.modCur f

/-- The small state whose context is parked with a request, and an event for it. -/
def parked (r : Req) (f : Ctx → Ctx := id) : State :=
  { (sampleWith fun c => f { c with st := .parked .agent, step := 4, req := some r, prog := some {} }) with ev := { g := 3, x := 2 } }

/-- The state with a core saved by pre-emption. -/
def saved (s : State) (g : Nat) : State := s.modCore g fun c => { c with away := some 0x100000 }

/-- A launch of cluster 0 with two blocks. -/
def sampleLaunch : Launch :=
  { q := 1, i := 4, re := false, serial := false, gw := false, trace := false, tset := 0, quota := 2, eclass := 0, wlim := 0, lid := 7
    seed1 := 11, seed2 := 22, seed3 := 33, blocks := 2, first := 0, count := 1, sgb := .replicate 8 0x1000, sgl := .replicate 8 0, key := 5
    image := [], priv := [], arg := [], cap := 16, budget := 100, konst := [], data := [], dataTo := 0, stage := .admission }

/-- Ready, decided. -/
theorem ready_of {s : State} {a : List Src} {d : List Reg}
    (h : (a.all (fun a => !s.cur.bound a.r && (!a.f || s.cur.isFull a.r)) && d.all fun d => !s.cur.bound d) = true) : Ready s a d := by
  simp only [Bool.and_eq_true, List.all_eq_true, Bool.or_eq_true, Bool.not_eq_true'] at h
  refine ⟨fun x hx => (h.1 x hx).1, h.2, fun x hx hf => ?_⟩
  rcases (h.1 x hx).2 with g | g
  · rw [g] at hf; cases hf
  · exact g

/-- LocalAccess, decided. -/
theorem local_of {s : State} {sg : Fin 8} {o : W} {n : Nat} {r : List Right} {a : Nat}
    (h : decide (segKind s.cur.sgl[sg] = 1 ∧ o.toNat + n ≤ bitsOf s.cur.sgl[sg] 0 48 ∧ (∀ q ∈ r, s.cur.sgl[sg].getLsbD q.bit = true) ∧
      s.cur.sgb[sg].toNat + o.toNat + n ≤ 0x6000 ∧ a = (s.cur.sgb[sg] + o).toNat ∧ a % n = 0) = true) : LocalAccess s sg o n r a := by
  obtain ⟨a, b, c, d, e, f⟩ := of_decide_eq_true h
  exact ⟨a, b, c, d, e, f⟩

/-- GlobalAccess, decided. -/
theorem global_of {s : State} {sg : Fin 8} {o : W} {n al : Nat} {r : List Right} {a : Nat}
    (h : decide (segKind s.cur.sgl[sg] = 0 ∧ o.toNat + n ≤ bitsOf s.cur.sgl[sg] 0 48 ∧ (∀ q ∈ r, s.cur.sgl[sg].getLsbD q.bit = true) ∧
      a = (s.cur.sgb[sg] + o).toNat ∧ a % al = 0 ∧ a < 2 ^ 48) = true) : GlobalAccess s sg o n al r a := by
  obtain ⟨a, b, c, d, e, f⟩ := of_decide_eq_true h
  exact ⟨a, b, c, d, e, f⟩

/-- TileOpen, decided. -/
theorem open_of {s : State} {a : Nat}
    (h : decide (a < 0x0800 ∨ ((s.here.tileAt a).stash = none ∧ (s.here.tileAt a).st = .ready)) = true) : TileOpen s a := by
  have := of_decide_eq_true h
  exact this

/-- Whether a result can be written into gD of a context. -/
def delivers (s : State) (g : Nat) (x : Fin 16) (d : Reg) : Bool :=
  (s.coreAt g).away.isNone && (s.coreAt g).stopping.isNone && !(s.ctxAt g x).reaping && !(s.ctxAt g x).later && !(s.ctxAt g x).bound d

/-- Deliverable, decided. -/
theorem deliverable_of {s : State} {g : Nat} {x : Fin 16} {d : Reg}
    (h : delivers s g x d = true) : Deliverable s g x d := by
  simp only [delivers, Bool.and_eq_true, Option.isNone_iff_eq_none, Bool.not_eq_true'] at h
  exact ⟨h.1.1.1.1, h.1.1.1.2, h.1.1.2, h.1.2, h.2⟩

/-- IntegerArithmetic: register 15, and a source that is the destination too. -/
theorem test_hyp_IntegerArithmetic : Ready sample [⟨15, true⟩, ⟨0, false⟩] [15] := ready_of (by decide +kernel)

/-- LogicAndShifts: one source twice, read synchronously. -/
theorem test_hyp_LogicAndShifts : Ready sample [⟨3, true⟩, ⟨3, true⟩] [4] ∧ tySigned .n64 = false ∧ tySigned .i8 = true := by
  and_intros <;> first | decide +kernel | exact ready_of (by decide +kernel)

/-- CompareAndSelect. -/
theorem test_hyp_CompareAndSelect : Ready sample [⟨0, false⟩, ⟨15, true⟩] [0] := ready_of (by decide +kernel)

/-- ConstantsAndAddresses: with a constant, without a source, with an index register. -/
theorem test_hyp_ConstantsAndAddresses : Ready sample [⟨15, true⟩] [0] ∧ Ready sample [] [15] ∧
    Ready sample (indexOf ⟨7, some ⟨15, false⟩, 0x3FF⟩) [0] ∧ Ready sample (indexOf ⟨0, none, 0⟩) [0] := by
  and_intros <;> first | decide +kernel | exact ready_of (by decide +kernel)

/-- SixteenBitForms. -/
theorem test_hyp_SixteenBitForms : Ready sample [⟨15, false⟩] [0] ∧ Ready sample [] [15] ∧ Ready sample [⟨15, true⟩] [15] := by
  and_intros <;> first | decide +kernel | exact ready_of (by decide +kernel)

/-- PackedLanes: the types at the ends of the lists. -/
theorem test_hyp_PackedLanes : Ready sample [⟨3, true⟩, ⟨15, false⟩] [3] ∧ Ty.i32 ∈ [Ty.i32, .i16, .i8, .n32, .n16, .n8] ∧
    Ty.n8 ∈ [Ty.i32, .i16, .i8, .n32, .n16, .n8] ∧ Ty.n32 ∈ [Ty.i16, .i32, .n16, .n32] ∧ Ty.n16 ∈ [Ty.i8, .i16, .n8, .n16] ∧
    Ready sample [⟨3, true⟩] [15] := by
  and_intros <;> first | decide +kernel | exact ready_of (by decide +kernel)

/-- ScalarFloat. -/
theorem test_hyp_ScalarFloat : Ready sample [⟨4, false⟩, ⟨4, true⟩] [4] := ready_of (by decide +kernel)

/-- PackedFloat: pairs that use gB and that do not. -/
theorem test_hyp_PackedFloat : Ready sample [⟨4, false⟩, ⟨0, false⟩] [4] ∧ Ty.bf16 ∈ [Ty.f32, .f16, .bf16] ∧ pfcvtUsesB .f16 .f32 = true ∧
    pfcvtUsesB .f32 .f16 = false := by
  and_intros <;> first | decide +kernel | exact ready_of (by decide +kernel)

/-- The small state with block addresses in g3, g4 and g5: the last block of the scratchpad, the constant window, the first tile. -/
def blockState : State := sampleWith fun c => { c with g := ((c.g.set 3 0x5FC0).set 4 0).set 5 0x0800 }

/-- The same with 248 bytes to quantise at the end of the scratchpad, and with an operation in flight. -/
def quantState : State := sampleWith fun c => { c with g := (c.g.set 3 0x0800).set 4 0x5F08 }

/-- BlockOperations: the destination and the sources at the ends of their ranges; an operation in flight. -/
theorem test_hyp_BlockOperations : Ready blockState [⟨4, true⟩, ⟨5, false⟩] [3] ∧ GoodBlock blockState (blockState.g 3) 64 64 0x0800 ∧
    GoodBlock blockState (blockState.g 4) 64 64 0 ∧ GoodBlock blockState (blockState.g 5) 64 64 0 ∧
    GoodBlock quantState (quantState.g 4) 248 8 0 ∧ Ready blockState [⟨4, true⟩] [3] ∧
    ((parked (.block 0x0800 [1, 2] 3)).ctxAt 3 2).st = .parked .agent ∧
    ((parked (.block 0x0800 [1, 2] 3)).ctxAt 3 2).req = some (.block 0x0800 [1, 2] 3) := by
  and_intros <;> first | decide +kernel | exact ready_of (by decide +kernel)

/-- A request of the small state's context. -/
def sfuEntry (due : Nat) : SfuReq := { core := 3, ctx := 2, issued := 80, due := due }

/-- A quad with a request that has started and whose token is due. -/
def sfuState : State := { (sampleWith fun c => { c with st := .parked .agent, req := some (.sfu 5 .div .i64 7 2 1 true) }).modQuad 0 fun q =>
  { q with busy := [sfuEntry 90] } with ev := { g := 3, x := 2 } }

/-- The same before it starts. -/
def sfuWaiting : State := { (sampleWith fun c => { c with st := .parked .agent, req := some (.sfu 5 .rsq .f32 7 2 1 false) }).modQuad 0 fun q =>
  { q with queue := [sfuEntry 0] } with ev := { g := 0 } }

/-- SfuRequests: operands; the oldest request of a quad that starts none in this cycle; a started request. -/
theorem test_hyp_SfuRequests : Ready sample [⟨3, true⟩, ⟨4, false⟩] [3] ∧ Ready sample [⟨3, true⟩] [15] ∧
    ((sfuWaiting.quadAt 0).queue = sfuEntry 0 :: [] ∧ Nat.max (sfuEntry 0).issued (sfuWaiting.quadAt 0).started ≤ sfuWaiting.cycle ∧
      sfuWaiting.oldestOf (sfuEntry 0) = true ∧ (sfuWaiting.ctxAt 3 (ctxNo 2)).aside = none ∧ (sfuWaiting.ctxAt 3 (ctxNo 2)).req = some (.sfu 5 .rsq .f32 7 2 1 false)) ∧
    ((sfuState.quadAt (quadOf 3)).tokenOf sfuState.cycle 3 2 sfuState.tokenWaits = some (sfuEntry 90) ∧ (sfuState.ctxAt 3 (ctxNo 2)).aside = none ∧
      (sfuState.ctxAt 3 (ctxNo 2)).req = some (.sfu 5 .div .i64 7 2 1 true) ∧ Deliverable sfuState 3 (ctxNo 2) 5) ∧
    (let q := { sfuWaiting.quadAt 0 with started := 101 }
     q.queue = sfuEntry 0 :: [] ∧ sfuWaiting.cycle < Nat.max (sfuEntry 0).issued q.started) := by
  and_intros <;> first | decide +kernel | exact ready_of (by decide +kernel) | exact deliverable_of (by decide +kernel)

/-- SynchronisedReadParks: one of two synchronised operands is empty; an index register; a context that waits for a register. -/
theorem test_hyp_SynchronisedReadParks :
    NotFull (sampleWith fun c => { c with full := 0xFFF7 }) [⟨3, true⟩, ⟨4, true⟩] [5] ∧
    NotFull (sampleWith fun c => { c with full := 0x7FFF }) [⟨15, true⟩] [] ∧
    NotFull (sampleWith fun c => { c with full := 0xFFF7 }) [⟨3, true⟩, ⟨5, false⟩] [] ∧ (⟨7, some ⟨3, true⟩, 8⟩ : MOff).idx = some ⟨3, true⟩ ∧
    ((sampleWith fun c => { c with st := .parked (.full [3]) }).ctxAt 3 2).st = .parked (.full [3]) :=
  ⟨⟨by decide +kernel, by decide +kernel, by decide +kernel⟩, ⟨by decide +kernel, by decide +kernel, by decide +kernel⟩,
    ⟨by decide +kernel, by decide +kernel, by decide +kernel⟩, rfl, by decide +kernel⟩

/-- Stream 0 with a number of elements left and some fetched ahead. -/
def streamState (remain : Nat) (ahead : List Elem) : State :=
  sampleWith fun c => { c with ports := c.ports.set 0 { (c.ports[(0 : Fin 4)]) with remain := remain, ahead := ahead } }

/-- StreamOperands, sources: an element, none yet, none left, the last one; a write stream. -/
theorem test_hyp_StreamOperands_sources : ((sample.cur.ports[(0 : Fin 4)]).bound = true ∧ sample.cur.bound 5 = false ∧ sample.cur.bound 3 = false ∧
      (sample.cur.ports[(0 : Fin 4)]).writes = false) ∧
    (((streamState 1 [.val 9]).cur.ports[(0 : Fin 4)]).remain ≠ 0 ∧ ((streamState 1 [.val 9]).cur.ports[(0 : Fin 4)]).ahead = .val 9 :: []) ∧
    (((streamState 1 []).cur.ports[(0 : Fin 4)]).remain ≠ 0 ∧ ((streamState 1 []).cur.ports[(0 : Fin 4)]).ahead = []) ∧
    ((streamState 0 []).cur.ports[(0 : Fin 4)]).remain = 0 ∧
    ((sample.cur.ports[(1 : Fin 4)]).bound = true ∧ (sample.cur.ports[(1 : Fin 4)]).writes = true) := by decide +kernel

/-- StreamOperands, destinations: an element of 8 bytes at 0x1000. -/
theorem test_hyp_StreamOperands_destinations : (sample.cur.ports[(1 : Fin 4)]).bound = true ∧ sample.cur.bound 4 = false ∧
    (sample.cur.ports[(1 : Fin 4)]).writes = true ∧ (sample.cur.ports[(1 : Fin 4)]).remain ≠ 0 ∧
    (let q := sample.cur.ports[(1 : Fin 4)]
     LocalAccess sample q.sg (q.offset q.i0 q.i1) (szBytes q.sz) [.w] 0x1000) ∧ TileOpen sample 0x1000 := by
  and_intros <;> first | decide +kernel | exact local_of (by decide +kernel) | exact open_of (by decide +kernel)

/-- The small state with a descriptor at 0x5FE0, the last place for one. -/
def scfgState : State := (sampleWith fun c => { c with g := c.g.set 3 0x5FE0 }).modCore 3 fun c => { c with pad := Memory.store c.pad 0x5FE0 32 (sampleDesc 0) }

/-- Streams: a descriptor in the scratchpad and in memory, a bound port, one that is not configured, an element that can be fetched. -/
theorem test_hyp_Streams : Ready scfgState [⟨3, true⟩] [] ∧ (scfgState.cur.ports[(2 : Fin 4)]).bound = false ∧
    LocalAccess scfgState 1 (scfgState.g 3) 32 [.r] 0x5FE0 ∧ TileOpen scfgState 0x5FE0 ∧
    streamDescOk (Memory.load scfgState.here.pad 0x5FE0 32) = true ∧
    scfgState.seg 2 (scfgState.g 3) 32 32 [.r] = .ok (false, 0x5FE0) ∧ scfgState.here.stashAt scfgState.cur.comp 0x5FE0 = none ∧
    scfgState.cur.giveUp ≠ some (0x5FE0 / 65536) ∧ scfgState.held scfgState.core 0x5FE0 = none ∧
    (scfgState.cur.ports[(0 : Fin 4)]).bound = true ∧ (scfgState.cur.ports[(3 : Fin 4)]).cfg = false ∧
    (scfgState.cur.ports[(2 : Fin 4)]).cfg = true ∧ Ready scfgState [] [5] := by
  and_intros <;>
    first | decide +kernel | exact ready_of (by decide +kernel) | rfl
          | exact local_of (by decide +kernel) | exact open_of (by decide +kernel)

/-- The small state with the arrival of an element at stream 0, whose last element it is. -/
def elementState : State := { sample with ev := { g := 3, x := 2, n := 0 } }

/-- Streams, an arrival: the second of four elements, from 0x1008. -/
theorem test_hyp_Streams_arrival : (elementState.ctxAt 3 2).st ≠ .free ∧ (elementState.coreAt 3).away = none ∧ (0 : Fin 4) = Fin.ofNat 4 elementState.ev.n ∧
    ((elementState.ctxAt 3 2).ports[(0 : Fin 4)]).bound = true ∧ ((elementState.ctxAt 3 2).ports[(0 : Fin 4)]).writes = false ∧
    ((elementState.ctxAt 3 2).ports[(0 : Fin 4)]).ahead.length < 8 ∧
    ((elementState.ctxAt 3 2).ports[(0 : Fin 4)]).ahead.length < ((elementState.ctxAt 3 2).ports[(0 : Fin 4)]).remain ∧
    (let q := (elementState.ctxAt 3 2).ports[(0 : Fin 4)]
     let i := q.skip q.ahead.length (q.i0, q.i1)
     LocalAccess (elementState.focus 3 2) q.sg (q.offset i.1 i.2) (szBytes q.sz) [.r] 0x1008) ∧
    TileOpen (elementState.focus 3 2) 0x1008 ∧
    ((sampleWith fun c => { c with st := .parked (.element 3) }).ctxAt 3 2).st = .parked (.element 3) := by
  and_intros <;> first | decide +kernel | exact local_of (by decide +kernel) | exact open_of (by decide +kernel)

/-- A coupled context whose partner has completed the same branch and taken it to 0x100. -/
def gangState : State := (sampleWith fun c => { c with gang := some (2, 2) }).setCtxAt 2 2
  { sampleCtx with gang := some (2, 2), gout := some (true, 0x100), pc := 0x100 }

/-- Agrees, of an uncoupled context. -/
theorem agrees_of {s : State} {b : Bool} {v : W} (h : s.cur.gang.isNone = true) : Agrees s b v := by
  intro f n m o e
  rw [e] at h
  exact absurd h (by simp)

/-- Branches: an uncoupled context, a coupled one that follows its gang, one that leaves it by its outcome although the target is the same,
an even and an odd target. -/
theorem test_hyp_Branches : Ready sample [⟨1, true⟩, ⟨2, false⟩] [] ∧ Ready sample [⟨0, false⟩] [] ∧ Ready sample [⟨15, true⟩] [] ∧
    Agrees sample false 0x44 ∧ Agrees gangState true 0x100 ∧ ¬Agrees gangState false 0x100 ∧ (sample.g 4).toNat % 2 = 0 ∧
    (sampleWith fun c => { c with g := c.g.set 4 1 }).g 4 = 1 := by
  refine ⟨ready_of (by decide +kernel), ready_of (by decide +kernel), ready_of (by decide +kernel), agrees_of (by decide +kernel), ?_, ?_, by decide +kernel, by decide +kernel⟩
  · intro f n m o h hm hne _ ho
    rw [show gangState.cur.gang = some (2, 2) from by decide +kernel] at h
    cases h
    rw [show gangState.members gangState.core 2 2 = [2, 3] from by decide +kernel] at hm
    have h : ∀ m ∈ [2, 3], m ≠ gangState.core → (gangState.ctxAt m gangState.ctx).gout = some (true, 0x100) := by decide +kernel
    rw [h m hm hne] at ho
    exact (Option.some.inj ho).symm
  · intro h
    exact absurd (h 2 2 2 (true, 0x100) (by decide +kernel) (by decide +kernel) (by decide +kernel) (by decide +kernel) (by decide +kernel)) (by decide)

/-- A full return stack whose spill count leads to the last double of the scratchpad. -/
def callState : State := sampleWith fun c => { c with rstk := [1, 2, 3, 4, 5, 6, 7, 8], sc := 0xBFF }

/-- The same with nothing in the hardware. -/
def spilledState : State := sampleWith fun c => { c with rstk := [], sc := 0xC00 }

/-- A buffered store of the context. -/
def storeEntry : SbEntry := { seq := 7, ctx := 2, pc := 0x40, src := .st, va := 0x30044, sz := .n32, data := 0x1234567890ABCDEF }

/-- The small state with a buffered store. -/
def storedState : State := sample.modCore 3 fun c => { c with sb := [storeEntry], sbSeq := 8 }

/-- CallsReturnsAndEnds: an empty and a full return stack, a spill and a return from it, EXIT with and without a buffered store, the lead. -/
theorem test_hyp_CallsReturnsAndEnds : sample.cur.rstk.length < 8 ∧ Ready sample [⟨4, true⟩] [] ∧ (sample.g 4).toNat % 2 = 0 ∧
    callState.cur.rstk.length = 8 ∧ LocalAccess callState 7 (.ofNat 64 (8 * callState.cur.sc)) 8 [.w] 0x5FF8 ∧ TileOpen callState 0x5FF8 ∧ 0x0800 ≤ 0x5FF8 ∧ Agrees sample true 0x100 ∧
    callState.cur.rstk = 1 :: [2, 3, 4, 5, 6, 7, 8] ∧ callState.here.frozen = false ∧ spilledState.here.frozen = false ∧
    spilledState.cur.sc ≠ 0 ∧ LocalAccess spilledState 7 (.ofNat 64 (8 * (spilledState.cur.sc - 1))) 8 [.r] 0x5FF8 ∧ TileOpen spilledState 0x5FF8 ∧
    sample.ctx ≠ 0 ∧ sample.here.storesOf sample.ctx.val = false ∧ sample.cur.rstk = [] ∧ sample.cur.sc = 0 ∧
    storedState.here.storesOf storedState.ctx.val = true ∧ State.reset.ctx = 0 := by
  and_intros <;>
    first | decide +kernel | exact ready_of (by decide +kernel)
          | exact local_of (by decide +kernel) | exact open_of (by decide +kernel) | exact agrees_of (by decide +kernel)

/-- Masks. -/
theorem test_hyp_Masks : Ready sample [⟨15, true⟩] [] ∧ Ready sample [] [15] := by
  and_intros <;> first | decide +kernel | exact ready_of (by decide +kernel)

/-- A context that may couple with the whole of cluster 0, and was coupled before. -/
def coupleState (n : Nat) : State := sampleWith fun c => { c with g := c.g.set 3 (.ofNat 64 n), gangOld := some (0, 4) }

/-- Gangs, the instructions: gangs of 2 and of 32, a count that is no power of two, RECOUPLE with and without an earlier gang. -/
theorem test_hyp_Gangs : Ready (coupleState 32) [⟨3, true⟩] [5] ∧
    (∀ n ∈ [2, 32], let s := coupleState n
      let first := s.coreIndex s.core - s.coreIndex s.core % n
      (s.g 3).toNat = n ∧ n ∈ [2, 4, 8, 16, 32, 64] ∧ s.cur.gang = none ∧ s.ctx ≠ 0 ∧ first + n ≤ s.coreCount s.core ∧
        dieOf (s.coreNo s.core first) = dieOf (s.coreNo s.core (first + n - 1))) ∧
    ((coupleState 3).g 3).toNat ∉ [2, 4, 8, 16, 32, 64] ∧ (coupleState 2).cur.gangOld = some (0, 4) ∧ (coupleState 2).cur.gangLost = false ∧
    sample.cur.gangOld = none ∧ gangState.cur.gang = some (2, 2) ∧ 2 ∈ gangState.members gangState.core 2 2 ∧
    (gangState.ctxAt 2 gangState.ctx).gang = some (2, 2) := by
  and_intros <;> first | decide +kernel | exact ready_of (by decide +kernel)

/-- Four cores whose contexts 2 wait to form a gang; the one of core 5 is the last to arrive. -/
def arrivalState : State := (List.range 4).foldl (fun s j => s.setCtxAt (4 + j) 2
  { sampleCtx with st := .parked .agent, step := 4, req := some (.gang (Fin.ofNat 16 j) false 4 4 (decide (j ≠ 1))) }) { sample with ev := { g := 5, x := 2 } }

/-- Gangs, the arrival of the last of four members. -/
theorem test_hyp_Gangs_arrival : arrivalState.ev.g = arrivalState.coreNo 5 (4 + 1) ∧
    (∀ j, j < 4 → arrivalState.coreNo (arrivalState.coreNo 5 (4 + j)) 4 = arrivalState.coreNo 5 (4 + 0)) ∧
    (∀ j, j < 4 → (arrivalState.ctxAt (arrivalState.coreNo 5 (4 + j)) 2).st = .parked .agent ∧
      (arrivalState.ctxAt (arrivalState.coreNo 5 (4 + j)) 2).req = some (.gang (Fin.ofNat 16 j) false 4 4 (decide (j ≠ 1))) ∧
      (arrivalState.ctxAt (arrivalState.coreNo 5 (4 + j)) 2).pc = (arrivalState.ctxAt 5 2).pc ∧
      arrivalState.launchFor (arrivalState.coreNo 5 (4 + j)) 2 = arrivalState.launchFor 5 2) ∧
    (∀ j, j < 4 → Deliverable arrivalState (arrivalState.coreNo 5 (4 + j)) 2 (Fin.ofNat 16 j)) ∧
    (∀ j, 4 ≤ j → j < 64 → (arrivalState.ctxAt (arrivalState.coreNo 5 (4 + j)) 2).req = none) := by
  refine ⟨by decide +kernel, by decide +kernel, by decide +kernel, ?_, ?_⟩
  · intro j hj
    have h : ∀ j, j < 4 → delivers arrivalState (arrivalState.coreNo 5 (4 + j)) 2 (Fin.ofNat 16 j) = true := by decide +kernel
    exact deliverable_of (h j hj)
  · have h : ∀ j, j < 64 → 4 ≤ j → (arrivalState.ctxAt (arrivalState.coreNo 5 (4 + j)) 2).req = none := by decide +kernel
    exact fun j a b => h j b a

/-- Index registers for the accesses: g3 holds 0x2000. -/
def accessState : State := sampleWith fun c => { c with g := (c.g.set 3 0x2000).set 4 0x07F8, ports := .replicate 4 {} }

/-- A memory operand with index g3. -/
def operand (sg : Fin 8) (disp : BitVec 10) : MOff := { sg := sg, idx := some ⟨3, true⟩, disp := disp }

/-- The tile of 0x2000 FILLING, or in stash mode. -/
def tileState (st : TileSt) (m : Option Stash) : State := accessState.modCore 3 fun c => { c with tiles := c.tiles.set 8 { st := st, stash := m } }

/-- A stash of the line at 0x30400 with one dirty word. -/
def stashMap : Stash := { va := 0x2400, pa := 0x12400, asid := 0, wright := true, comp := 0, valid := 0xF0FF, dirty := 0x0100 }

/-- Loads, local: the last byte below the top of a segment, the constant window, a tile that is not READY, a tile in stash mode. -/
theorem test_hyp_Loads_local : Ready accessState (indexOf (operand 1 0)) [5] ∧
    LocalAccess accessState 1 (offsetOf accessState (operand 1 0x1FF) 8) 8 [.r] 0x2FF8 ∧ TileOpen accessState 0x2FF8 ∧
    LocalAccess accessState 1 (accessState.g 4) 8 [.r] 0x07F8 ∧ TileOpen accessState 0x07F8 ∧
    LocalAccess accessState 1 (accessState.g 3) 4 [.r] 0x2000 ∧ TileOpen accessState 0x2000 ∧ Ready accessState [⟨4, false⟩] [15] ∧
    (((tileState .filling none).here.tileAt 0x2000).stash = none ∧ ((tileState .filling none).here.tileAt 0x2000).st ≠ .ready) ∧
    ((tileState .ready (some stashMap)).here.tileAt 0x2000).stash ≠ none := by
  and_intros <;> first | decide +kernel | exact ready_of (by decide +kernel) | exact local_of (by decide +kernel) | exact open_of (by decide +kernel)

/-- A port whose cluster holds the translation of page 0. -/
def heldState (r : Bool) : State := accessState.modCluster 0 fun c =>
  { c with tlb := [{ part := 0, vpage := 0, pa := 0x120000, r := r, w := true, x := false, big := false, unscr := false, leaf := 0x430018 }] }

/-- A core that holds the bytes at 0x2000 in its data cache. -/
def cachedState : State := accessState.modCore 3 fun c => { c with dcache :=
  [{ vline := 0x80, asid := 0, comp := 0, words := .replicate 8 0x77, valid := 0xFF, owned := 0, pline := 7, stamp := 3 }] }

/-- Loads, global: served by the core, a walk to come, a translation that the port holds, one without the right; PREF. -/
theorem test_hyp_Loads_global : Ready accessState (indexOf (operand 2 0)) [5] ∧
    GlobalAccess accessState 2 (offsetOf accessState (operand 2 0) 8) 8 8 [.r] 0x2000 ∧
    (accessState.here.stashAt accessState.cur.comp 0x2000 = none ∧ accessState.here.foreign accessState.cur.comp 0x2000 8 = false ∧
      accessState.here.quick accessState.cur.comp accessState.curPart.asid 0x2000 8 = none) ∧
    (cachedState.here.stashAt cachedState.cur.comp 0x2000 = none ∧ cachedState.here.foreign cachedState.cur.comp 0x2000 8 = false ∧
      cachedState.here.quick cachedState.cur.comp cachedState.curPart.asid 0x2000 8 = some 0x77) ∧
    Translation accessState 0x2000 { r := true } .walk ∧ Translation (heldState true) 0x2000 { r := true } (.ready 0x122000) ∧
    accessState.here.sb = [] ∧ accessState.here.dcache = [] ∧
    GlobalAccess accessState 2 (offsetOf accessState (operand 2 0x1FF) 64) 64 64 [] 0x9FC0 ∧
    GlobalAccess accessState 2 (accessState.g 4) 8 8 [.r] 0x07F8 := by
  refine ⟨ready_of (by decide +kernel), global_of (by decide +kernel), by decide +kernel, by decide +kernel,
    ⟨by decide +kernel, .inl ⟨by decide +kernel, rfl⟩⟩, ⟨by decide +kernel, .inr ⟨_, _, rfl, rfl, rfl⟩⟩, by decide +kernel, by decide +kernel,
    global_of (by decide +kernel), global_of (by decide +kernel)⟩

/-- Loads: a translation without the right to read. -/
theorem test_hyp_Loads_refused : ∃ e, (heldState false).held (heldState false).core 0x2000 = some e ∧
    (heldState false).grant (heldState false).core (heldState false).cur.comp 0x2000 { r := true } e = .prot ∧
    (heldState false).cur.giveUp ≠ some (0x2000 / 65536) ∧ (heldState false).here.quick (heldState false).cur.comp (heldState false).curPart.asid 0x2000 8 = none :=
  ⟨_, rfl, rfl, by decide +kernel, by decide +kernel⟩

/-- PREF: an operand that no global access fits, since its segment is local. -/
theorem test_hyp_Loads_pref : Ready accessState (indexOf (operand 1 0)) [] ∧
    ∀ a, ¬GlobalAccess accessState 1 (offsetOf accessState (operand 1 0) 64) 64 64 [] a :=
  ⟨ready_of (by decide +kernel), fun _ h => absurd h.kind (by decide +kernel)⟩

/-- The lead with a store buffer; the constant window from c16 on. -/
def leadState : State := { (accessState.setCtxAt 3 0 { accessState.cur with g := accessState.cur.g.set 3 0x80 }) with ctx := 0 }

/-- Stores: a tile, the constant window for the lead at c16 and at its end, for another context, below c16; global with and without room;
DRAIN with and without a buffered store. -/
theorem test_hyp_Stores : Ready accessState (indexOf (operand 1 0) ++ [⟨5, false⟩]) [] ∧
    LocalAccess accessState 1 (offsetOf accessState (operand 1 0x1FF) 8) 8 [.w] 0x2FF8 ∧ TileOpen accessState 0x2FF8 ∧
    (LocalAccess leadState 1 (leadState.g 3) 8 [.w] 0x80 ∧ TileOpen leadState 0x80 ∧ leadState.ctx = 0) ∧
    LocalAccess accessState 1 (accessState.g 4) 8 [.w] 0x07F8 ∧ accessState.ctx ≠ 0 ∧
    (GlobalAccess accessState 2 (offsetOf accessState (operand 2 0) 8) 8 8 [.w] 0x2000 ∧
      accessState.here.stashMap 0x2000 = none ∧ accessState.here.hasRoom accessState.ctx.val = true) ∧
    (accessState.modCore 3 fun c => { c with sb := List.replicate 64 storeEntry }).here.hasRoom 2 = false ∧
    Ready accessState [⟨4, false⟩, ⟨5, false⟩] [] ∧
    accessState.here.storesOf accessState.ctx.val = false ∧ storedState.here.storesOf storedState.ctx.val = true :=
  ⟨ready_of (by decide +kernel), local_of (by decide +kernel), open_of (by decide +kernel), ⟨local_of (by decide +kernel), open_of (by decide +kernel),
    by decide +kernel⟩, local_of (by decide +kernel), by decide +kernel, ⟨global_of (by decide +kernel), by decide +kernel, by decide +kernel⟩,
    by decide +kernel, ready_of (by decide +kernel), by decide +kernel, by decide +kernel⟩

/-- Segment 1 with another limit, base or kind. -/
def limited (l b : W) : State := accessState.modCur fun c => { c with sgl := c.sgl.set 1 l, sgb := c.sgb.set 1 b }

/-- AccessChecks: each check is the first that fails, at the first offset at which it fails. -/
theorem test_hyp_AccessChecks :
    (∀ e ∈ [(0x0207000000006000, 0, 8, 3), (0x0107000000002007, 0, 8, 3), (0x0106000000006000, 0, 8, 3), (0x010700000000FFFF, 0x4000, 8, 3),
        (0x0107000000006000, 1, 2, 6), (0x0007000000006000, 0xFFFFFFFFE000, 8, 4)],
      failedCheck (BitVec.ofNat 64 e.2.1) (BitVec.ofNat 64 e.1) 0x2000 e.2.2.1 e.2.2.1 [.r] = some e.2.2.2) ∧
    failedCheck 0 0x0107000000002008 0x2000 8 8 [.r] = none ∧
    failedCheck (limited 0x0105000000006000 0).cur.sgb[(1 : Fin 8)] (limited 0x0105000000006000 0).cur.sgl[(1 : Fin 8)]
      (offsetOf (limited 0x0105000000006000 0) (operand 1 0) 8) 8 8 [.w] = some 3 ∧
    Ready (limited 0x0105000000006000 0) (indexOf (operand 1 0) ++ [⟨5, false⟩]) [] ∧ Ready (limited 0x0105000000006000 0) [⟨3, false⟩] [] ∧
    ((limited 0 0).cur.ports[(3 : Fin 4)]).bound = false := by
  and_intros <;> first | decide +kernel | exact ready_of (by decide +kernel)

/-- Core 5 with a window that admits both directions over 0x2000 to 0x20FF, at scope PART; g3 holds 5 and g4 an address. -/
def remoteState (l : W) : State :=
  (accessState.modCur fun c => { c with g := (c.g.set 3 5).set 4 l }).modCore 5 fun c => { c with win := c.win.set 2 0xE000000301002000 }

/-- RemoteAccesses, the issuer: the last bytes of the scratchpad, too far a core, a misaligned address, the constant window; windows. -/
theorem test_hyp_RemoteAccesses_issuer : Ready (remoteState 0x5FF8) [⟨3, true⟩, ⟨4, true⟩] [6] ∧
    (((remoteState 0x5FF8).g 3).toNat < (remoteState 0x5FF8).coreCount 3 ∧ ((remoteState 0x5FF8).g 4).toNat + 8 ≤ 0x6000 ∧
      ((remoteState 0x5FF8).g 4).toNat % 8 = 0 ∧ (remoteState 0x5FF8).here.hasRoom 2 = true) ∧
    0x6000 < ((remoteState 0x5FF9).g 4).toNat + 8 ∧ (remoteState 0).coreCount 3 ≤ ((remoteState 32).g 4).toNat ∧
    ((remoteState 0x5FF4).g 4).toNat % 8 ≠ 0 ∧ ((remoteState 0x07F8).g 4).toNat < 0x0800 ∧
    Ready (remoteState 0) [⟨3, true⟩, ⟨4, true⟩, ⟨5, false⟩] [] ∧ winBad 0xE000000301002000 = false ∧ winBad 0xE000000301002001 = true ∧
    Ready leadState [⟨5, false⟩] [] ∧ leadState.ctx = 0 := by
  and_intros <;> first | decide +kernel | exact ready_of (by decide +kernel)

/-- An LDX in flight to core 5, and an STX. -/
def ldxState (f : CoreSt → CoreSt := id) : State :=
  ({ (remoteState 0).modCur fun c => { c with st := .parked .agent, step := 4, req := some (.ldx 6 .i16 5 0x20FE) } with ev := { g := 3, x := 2 } } : State).modCore 5 f

/-- The STX. -/
def stxState (l : Nat) : State :=
  { (remoteState 0).modCore 3 fun c => { c with sb := [{ storeEntry with src := .stx, va := l, target := 5 }] } with ev := { g := 3, n := 1, v := 7 } }

/-- RemoteAccesses, the target: a window that ends with the access, none that covers it, a core that is away. -/
theorem test_hyp_RemoteAccesses_target :
    ((ldxState).ctxAt 3 (ctxNo 2)).req = some (.ldx 6 .i16 5 0x20FE) ∧ (ldxState).coreNo 3 5 = 5 ∧ ((ldxState).coreAt 5).away = none ∧
    WindowAdmits (ldxState) 3 5 0x20FE 2 false ∧ Deliverable (ldxState) 3 2 6 ∧
    ((ldxState).coreAt 3).frozen = false ∧
    (∀ i : Fin 4, winCovers (((ldxState fun c => { c with win := .replicate 4 0 }).coreAt 5).win[i]) 0x20FE 2 false = false) ∧
    (((ldxState fun c => { c with away := some 0 }).coreAt 5).away ≠ none ∧ ((ldxState fun c => { c with away := some 0 }).coreAt 5).inbox.length < 256 ∧
      Msg.ldx 3 2 ∉ ((ldxState fun c => { c with away := some 0 }).coreAt 5).inbox) ∧
    (∃ e, ((stxState 0x20FC).coreAt 3).stxDue 7 = some e ∧ WindowAdmits (stxState 0x20FC) 3 5 e.va (sszBytes e.sz) true) ∧
    (∃ e, ((stxState 0x2100).coreAt 3).stxDue 7 = some e ∧
      ∀ i : Fin 4, winCovers (((stxState 0x2100).coreAt 5).win[i]) e.va (sszBytes e.sz) true = false) :=
  ⟨by decide +kernel, by decide +kernel, by decide +kernel, ⟨⟨2, by decide +kernel⟩, by decide +kernel⟩, deliverable_of (by decide +kernel),
    by decide +kernel, by decide +kernel, by decide +kernel, ⟨_, rfl, ⟨2, by decide +kernel⟩, by decide +kernel⟩, ⟨_, rfl, by decide +kernel⟩⟩

/-- A core whose tile 5 maps the line at 0x2400; g3 holds an address. -/
def stashState (m : Option Stash) (a : W) : State := (accessState.modCur fun c => { c with g := c.g.set 3 a }).modCore 3 fun c =>
  { c with tiles := c.tiles.set 5 { stash := m } }

/-- A tile that fills. -/
def busyTile : State := (stashState none 0x2400).modHere fun c => { c with tiles := c.tiles.set 5 { st := .filling, jobs := 1 } }

/-- Stashes, the instructions: tile 2 and tile 23, an idle and a busy tile, a clean and a dirty one, WBACK of a clean and of a dirty line. -/
theorem test_hyp_Stashes_instructions : Ready (stashState none 0x2400) [⟨3, true⟩] [] ∧ 2 ≤ (2 : Tile).val ∧ 2 ≤ (23 : Tile).val ∧ (1 : Tile).val < 2 ∧
    GlobalAccess (stashState none 0x2400) (Fin.ofNat 8 (2 : Reg).val) ((stashState none 0x2400).g 3) 1024 1024 [.r] 0x2400 ∧
    ((stashState none 0x2400).here.tiles[(5 : Tile)]).stash = none ∧ (stashState none 0x2400).here.stashOver 0x2400 = false ∧
    (stashState none 0x2400).waitOver 3 2 (.tileIdle 5) = true ∧ (busyTile.here.tiles[(5 : Tile)]).stash = none ∧
    busyTile.waitOver 3 2 (.tileIdle 5) = false ∧
    ((stashState (some stashMap) 0).here.tiles[(5 : Tile)]).stash = some stashMap ∧ stashMap.dirty ≠ 0 ∧ { stashMap with dirty := 0 }.dirty = 0 ∧
    GlobalAccess (stashState (some stashMap) 0x27C0) 2 ((stashState (some stashMap) 0x27C0).g 3) 64 64 [.w] 0x27C0 ∧
    (stashState (some stashMap) 0x2440).here.stashMap 0x2440 = some (5, stashMap) ∧ stashMap.owes (some 1) = true ∧ stashMap.owes (some 0) = false ∧
    (∀ e ∈ (stashState (some stashMap) 0x2440).here.sb, e.ctx = 2 → e.src = .stx ∨ e.va / 64 ≠ 0x2440 / 64) := by
  and_intros <;> first | decide +kernel | exact ready_of (by decide +kernel) | exact global_of (by decide +kernel)

/-- A physical memory whose translation table at 0x400000 maps the page of 0x30000 to 0x120000 with rights. -/
def mapped (rights : Nat) : Memory :=
  let m := Memory.store [] 0x400000 8 (0x410000 + 1)
  let m := Memory.store m 0x410000 8 (0x420000 + 1)
  let m := Memory.store m 0x420000 8 (0x430000 + 1)
  Memory.store m (0x430000 + 24) 8 (0x120000 + rights)

/-- A state whose context waits with a request, over that memory. -/
def walking (rights : Nat) (r : Req) : State :=
  { (parked r).modPart 0 fun p => { p with troot := 0x400000, wmask := p.wmask.map fun _ => 0xFFFF } with mem := mapped rights }

/-- Stashes, the events: a fill of the second line; one of a stale mapping whose page has lost R; a write-back for which a context waits. -/
theorem test_hyp_Stashes_events :
    (let s := (parked (.stashFill 5 1)).modCore 3 fun c => { c with tiles := c.tiles.set 5 { stash := some stashMap } }
     (s.ctxAt 3 2).st = .parked .agent ∧ (s.ctxAt 3 2).req = some (.stashFill 5 1) ∧ ((s.coreAt 3).tiles[(5 : Fin 24)]).stash = some stashMap ∧
       (s.coreAt 3).storesLine ((stashMap.va + 64) / 64) = false ∧ stashMap.stale = false ∧
       (match s.lineFor 3 (stashMap.pa + 64) (s.leafOf 3 (stashMap.va + 64) (stashMap.pa + 64)) with | .words .. => true | _ => false) = true) ∧
    (let m : Stash := { stashMap with va := 0x30400, stale := true }
     let s := (walking 5 (.stashFill 5 1)).modCore 3 fun c => { c with tiles := c.tiles.set 5 { stash := some m } }
     (s.ctxAt 3 2).st = .parked .agent ∧ (s.ctxAt 3 2).req = some (.stashFill 5 1) ∧ ((s.coreAt 3).tiles[(5 : Fin 24)]).stash = some m ∧ m.stale = true ∧
       (match s.translate 3 m.comp m.va { r := true } with | (.prot, _) => true | _ => false) = true) ∧
    (let s := (parked (.wback 5 (some 1) false)).modCore 3 fun c => { c with tiles := c.tiles.set 5 { stash := some stashMap } }
     ((s.coreAt 3).tiles[(5 : Fin 24)]).stash = some stashMap ∧ stashMap.dirty.getLsbD 8 = true ∧
       s.lineLive (stashMap.pa / 64 + 1) = true ∧ (s.ctxAt 3 2).wantsBack 5 8 = true) := by decide +kernel

/-- The frame that holds an address has a new tag, and no line of it has been written since. -/
def retagged (s : State) (pa : Nat) : State := { s with tags := [(pa / 65536, { written := some [] })] }

/-- How a translation ends, without the state that it leaves. -/
def ending (r : XEnd × State) : Nat := match r.1 with | .ok pa _ => pa | .prot => 1 | .absent => 2 | .bad pa => pa + 1

/-- WalksAndReplies, the walks of loads, STASH, DISCARD and stores: granted, refused, with no page, and with a table line that fails. -/
theorem test_hyp_WalksAndReplies_walks :
    (∀ r ∈ [Req.load 5 .i16 0x3FFFE .walk, .stash 5 0x30400, .discard 0x30440], let s := walking 7 r
      s.ev.n ≠ 1 ∧ (s.ctxAt 3 2).st = .parked .agent ∧ (s.ctxAt 3 2).req = some r ∧ s.mayWalk 3 2 r = true ∧ (s.ctxAt 3 2).giveUp = none ∧ (s.ctxAt 3 2).aside = none) ∧
    Req.walks (.load 5 .i16 0x3FFFE .walk) = some (0x3FFFE, { r := true }, 0) ∧
    ending ((walking 3 (.load 5 .i16 0x3FFFE .walk)).translate 3 0 0x3FFFE { r := true }) = 0x12FFFE ∧
    ending ((walking 5 (.load 5 .i16 0x3FFFE .walk)).translate 3 0 0x3FFFE { r := true }) = 1 ∧
    ending ((walking 5 (.load 5 .i16 0x40000 .walk)).translate 3 0 0x40000 { r := true }) = 2 ∧
    ((walking 5 (.load 5 .i16 0x40000 .walk)).translate 3 0 0x40000 { r := true }).2.migrates 0 0x40000 = false ∧
    ending ((retagged (walking 7 (.load 5 .i16 0x3FFFE .walk)) 0x420000).translate 3 0 0x3FFFE { r := true }) = 0x420001 ∧
    ending ((walking 7 (.stash 5 0x30400)).translate 3 0 0x30400 { r := true }) = 0x120400 ∧
    (((walking 7 (.stash 5 0x30400)).coreAt 3).tiles[(5 : Fin 24)]).stash = none ∧
    ending ((walking 7 (.discard 0x30440)).translate 3 0 0x30440 { w := true }) = 0x120440 ∧
    (let s : State := { (walking 7 .gydonDone).modCore 3 fun c => { c with sb := [storeEntry] } with ev := { g := 3, n := 1, v := 7 } }
     (s.coreAt 3).sb.find? (fun k => k.seq == s.ev.v) = some storeEntry ∧ storeEntry.src ≠ .stx ∧ storeEntry.fault = none ∧ storeEntry.xl = .walk ∧
       storeEntry.gaveUp = false ∧ storeEntry.page = none ∧ ending (s.translate 3 0 0x30044 { w := true }) = 0x120044) ∧
    ending ((walking 3 .gydonDone).translate 3 0 0x30044 { w := true }) = 1 := by decide +kernel

/-- WalksAndReplies, the replies of a load, an LDRO and a descriptor; a core that is stopped for a pre-emption. -/
theorem test_hyp_WalksAndReplies_replies :
    ((walking 3 (.load 5 .i16 0x30046 (.ready 0x120046))).coreAt 3).frozen = false ∧ ((saved (walking 3 (.load 5 .i16 0x30046 (.ready 0x120046))) 3).coreAt 3).frozen = true ∧
    (let s := walking 3 (.load 5 .i16 0x30046 (.ready 0x120046))
     (match s.coreLoad 3 2 0x30046 0x120046 2 with | .val _ t => delivers t 3 2 5 | _ => false) = true) ∧
    (let s := walking 3 (.ldro 5 .i32 0x30044 (.ready 0x120044))
     (match s.roRead 3 0 0x120044 (s.leafOf 3 0x30044 0x120044) with
      | .words _ t => let u := t.noteRead 3 2 0x30044 4
        delivers u 3 2 5
      | _ => false) = true) ∧
    (let s0 := walking 3 (.desc 2 0x30040 (.ready 0x120040))
     let s : State := { s0 with mem := Memory.store s0.mem 0x120040 32 (sampleDesc 0) }
     (match s.coreLoads 3 2 0x30040 0x120040 4 with | .val v _ => streamDescOk v | _ => false) = true) ∧
    (match (walking 3 (.desc 2 0x30040 (.ready 0x120040))).coreLoads 3 2 0x30040 0x120040 4 with | .val v _ => streamDescOk v | _ => true) = false := by
  decide +kernel

/-- A settled store, oldest of its word, whose word core 5 owns. -/
def settledStore : State := { (walking 7 .gydonDone).modCore 3 fun c => { c with sb := [{ storeEntry with xl := .ready 0x120044 }] } with
  ev := { g := 3, v := 7 }, owners := [(0x120044 / 8, 5)] }

/-- StoreEvents: a store that may complete; its line, which passes its check or fails it; a word that another core owns and this one writes. -/
theorem test_hyp_StoreEvents :
    (match (settledStore.coreAt 3).storeDue 7, settledStore.readyScrub 0 (settledStore.leafOf 3 0x30044 0x120044) with
      | some (e, pa), some t => e.va == 0x30044 && pa == 0x120044 && t.lineLive (pa / 64)
      | _, _ => false) = true ∧
    (retagged settledStore 0x120044).lineLive (0x120044 / 64) = false ∧ aget? settledStore.owners (0x120044 / 8) = some 5 ∧ (5 ≠ 3) ∧ settledStore.writesWord 3 (0x120044 / 8) = true := by decide +kernel

/-- HomeReadBack: one byte, and a whole word, at the end of a word; a line that fails its check. -/
theorem test_hyp_HomeReadBack : 0x120047 % 8 + 1 ≤ 8 ∧ 0 < 1 ∧ 0x120040 % 8 + 8 ≤ 8 ∧
    settledStore.lineLive (0x120047 / 64) = true ∧ (retagged settledStore 0x120047).lineLive (0x120047 / 64) = false := by decide +kernel

/-- The small state with an address in g3 and the scratchpad's last double set. -/
def atomicState (a : W) : State := (accessState.modCur fun c => { c with g := c.g.set 3 a })

/-- Atomics: the pair of ACAS, an access at the first tile's start and at the end of the scratchpad, one in global memory; scopes with and without
cross-die actions; a guest whose strap is clear. -/
theorem test_hyp_Atomics : Ready (atomicState 0x5FF8) (atomicReads .cas ⟨3, true⟩ 14) [14] ∧ ScopeAllowed (atomicState 0x5FF8) .sys ∧
    LocalAccess (atomicState 0x5FF8) (Fin.ofNat 8 (1 : Reg).val) ((atomicState 0x5FF8).g 3) 8 [.a, .w, .r] 0x5FF8 ∧ TileOpen (atomicState 0x5FF8) 0x5FF8 ∧
    LocalAccess (atomicState 0x0800) 1 ((atomicState 0x0800).g 3) 4 [.a, .w, .r] 0x0800 ∧ TileOpen (atomicState 0x0800) 0x0800 ∧
    ReleaseDone (atomicState 0x5FF8) .part ∧ (atomicState 0).crossDie 3 .quad = false ∧ (atomicState 0).crossDie 3 .pkg = true ∧
    GlobalAccess (accessState.modCur fun c => { c with g := c.g.set 3 0x7FFFFFFFFFF8, sgl := c.sgl.set 2 0x001F800000000000 }) 2 0x7FFFFFFFFFF8 8 8 [.a, .w, .r] 0x7FFFFFFFFFF8 ∧
    (atomicState 0).here.stashMap 0x2000 = none := by
  and_intros <;>
    first | decide +kernel | exact ready_of (by decide +kernel) | exact local_of (by decide +kernel)
          | exact open_of (by decide +kernel) | exact global_of (by decide +kernel) | (unfold ReleaseDone; decide +kernel) | exact fun _ _ => by decide +kernel

/-- AtomicEvents: an atomic that may leave, with its home line; a reply without a sweep, after a sweep, and during one. -/
theorem test_hyp_AtomicEvents :
    (let s := walking 7 (.atomicOut 5 .add false true 3 0 0x30044 .ar .quad (.ready 0x120044))
     (s.ctxAt 3 2).reaping = false ∧ (s.ctxAt 3 2).aside = none ∧ (s.ctxAt 3 2).req = some (.atomicOut 5 .add false true 3 0 0x30044 .ar .quad (.ready 0x120044)) ∧
       s.mayLeave 3 2 .ar .quad 0x30044 = true ∧
       (match s.readyScrub 0 (s.leafOf 3 0x30044 0x120044) with | some t => (t.readHome 0 (0x120044 / 64) (s.leafOf 3 0x30044 0x120044).unscr).isSome | none => false) = true) ∧
    (∀ e ∈ [none, some [], some [(1, 2)]], let s := walking 7 (.atomicBack 5 false true 9 .acq .quad e)
      (s.ctxAt 3 2).req = some (.atomicBack 5 false true 9 .acq .quad e) ∧ (s.ctxAt 3 2).aside = none ∧ delivers s 3 2 5 = true) ∧
    ((walking 7 .gydonDone).ctxAt 3 2).prog = some {} ∧ scopeHio .quad = false ∧ (walking 7 .gydonDone).hioDone 0 = true := by decide +kernel

/-- A context whose fence has its sweep done, one with a buffered store, an invalidation and HIO writes in flight. -/
def fenceState : State := { (storedState.modCur fun c => { c with prog := none }) with
  ev := { g := 3, x := 2, n := 1, p := 0, v := 4 }
  invals := [{ seq := 5, home := 1, die := 0, line := 9, src := none }]
  hioQ := [{ port := 2, seq := 4, pa := 0x500FFF, bytes := [1, 2], sys := false }, { port := 2, seq := 6, pa := 0x500000, bytes := [1], sys := true }] }

/-- Fences, the instructions: nothing to wait for, a buffered store to wait for, a sweep to begin and one that is over. -/
theorem test_hyp_Fences_instructions : ScopeAllowed sample .part ∧ ReleaseDone sample .part ∧ ¬ReleaseDone storedState .part ∧
    sample.crossDie 3 .quad = false ∧ sample.crossDie 3 .pkg = true ∧ (sample.cur.prog.getD (sample.newProg 3)).sweep = none ∧
    ((sampleWith fun c => { c with prog := some { sweep := some [] } }).cur.prog.getD {}).sweep = some [] ∧ sample.hioDone 0 = true ∧
    sample.xReleased 3 (sample.cur.prog.getD (sample.newProg 3)) 0x3F .quad = true ∧
    storedState.xReleased 3 (storedState.cur.prog.getD (storedState.newProg 3)) 1 .quad = false := by
  and_intros <;> first | decide +kernel | (unfold ReleaseDone; decide +kernel) | exact fun _ _ => by decide +kernel

/-- Fences, the events. -/
theorem test_hyp_Fences_events :
    fenceState.invals.find? (fun v => v.home == fenceState.ev.n && v.die == fenceState.ev.p) = some { seq := 5, home := 1, die := 0, line := 9, src := none } ∧
    fenceState.findLine 0 9 = none ∧
    (({ fenceState with lines := [{ die := 0, line := 9, words := .replicate 8 0, dirty := false, filler := 0, way := 0, stamp := 0 }] } : State).findLine 0 9).isSome = true ∧
    (let s := fenceState.modCur fun c => { c with prog := some { sweep := some [(1, 5), (2, 0)] } }
     s.granted 3 2 = false ∧ (s.ctxAt 3 2).aside = none ∧ (s.ctxAt 3 2).sweeping = some [(1, 5), (2, 0)] ∧ [(1, 5), (2, 0)].find? (fun m => m.1 == s.ev.n) = some (1, 5) ∧ s.markerBack (dieOf 3) (1, 5) = true ∧
       s.markerBack (dieOf 3) (1, 6) = false ∧
       (let t : State := { s with hops := [{ core := 3, ctx := ctxNo s.ev.x, src := 8, image := s.ctxAt 3 2 }] }
        (t.hops.find? fun k => decide (k.core = t.ev.g ∧ k.ctx = ctxNo t.ev.x)).map (fun h => h.image.sweeping) = some (some [(1, 5), (2, 0)]))) ∧
    (fenceState.hioQ.find? (fun w => w.seq == fenceState.ev.v) = some { port := 2, seq := 4, pa := 0x500FFF, bytes := [1, 2], sys := false } ∧
      (∀ k ∈ fenceState.hioQ, k.port = 2 → 4 ≤ k.seq) ∧ 2 ≤ 65536 - 0x500FFF % 65536 ∧ 65536 - 0x50FFFF % 65536 < 2) ∧
    (fenceState.tagOf 0x500FFF).world = 0 ∧ (({ fenceState with tags := [(0x50, { world := 3 })] } : State).tagOf 0x500FFF).world = 3 := by decide +kernel

/-- A truss object at an address of g3, and a context 5 of the core that waits on it. -/
def trussState (o : Truss) (a : Nat := 0x0800) (f : Ctx → Ctx := id) : State :=
  ((sampleWith fun c => f { c with g := (c.g.set 3 (.ofNat 64 a)).set 4 0x123 }).modCore 3 fun c =>
    (c.setCtx 5 { sampleCtx with st := .parked .agent, step := 4, req := some (.trwait 7 a false) }).setTruss a o)

/-- A live object with two members, of which one has arrived. -/
def trussObject : Truss := { phase := false, live := true, bytes := 0, arr := 2, mem := 6 }

/-- Membership of the object at 0x0800. -/
def joined (c : Ctx) : Ctx := { c with trm := c.trm.set 1 (.ofNat 64 (2 ^ 63 + 0x0800)) }

/-- TrussAt, decided. -/
theorem trussAt_of {s : State} {v : W} {a : Nat} (h : decide (a = v.toNat ∧ 0x0800 ≤ a ∧ a + 32 ≤ 0x6000 ∧ a % 32 = 0 ∧
    (a < 0x0800 ∨ ((s.here.tileAt a).stash = none ∧ (s.here.tileAt a).st = .ready))) = true) : TrussAt s v a := by
  obtain ⟨b, c, d, e, f⟩ := of_decide_eq_true h
  exact ⟨b, c, d, e, f⟩

/-- TrussInstructions: an object at the first place of the tiles and at the last one; live and not, with and without members; a member that has
and has not arrived; no free membership; the largest and a too large expectation; a wait on the current phase, on an earlier one, past
its deadline. -/
theorem test_hyp_TrussInstructions : TrussAt (trussState trussObject) ((trussState trussObject).g 3) 0x0800 ∧
    TrussAt (trussState trussObject 0x5FE0) ((trussState trussObject 0x5FE0).g 3) 0x5FE0 ∧
    Ready (trussState trussObject) [⟨3, true⟩] [7] ∧ Ready (trussState trussObject) [⟨3, true⟩, ⟨4, false⟩, ⟨7, false⟩] [7] ∧
    (trussState trussObject).here.truss 0x0800 = trussObject ∧ (trussState trussObject).cur.isMember 0x0800 = false ∧
    (trussState trussObject 0x0800 joined).cur.isMember 0x0800 = true ∧ (trussState trussObject).cur.freeTrm = some 0 ∧
    (trussState trussObject 0x0800 fun c => { c with trm := .replicate 4 (.ofNat 64 (2 ^ 63 + 0x2020)) }).cur.freeTrm = none ∧
    natBit trussObject.arr 2 = false ∧ natBit { trussObject with arr := 4 }.arr 2 = true ∧
    (BitVec.ofNat 32 trussObject.bytes).toInt + ((2 ^ 31 - 1 : Nat) : Int) ≤ 2 ^ 31 - 1 ∧
    2 ^ 31 - 1 < (BitVec.ofNat 32 trussObject.bytes).toInt + ((2 ^ 31 : Nat) : Int) ∧
    (trussState trussObject).cur.deadline = none ∧
    ((trussState trussObject 0x0800 fun c => { c with deadline := some 99 }).cur.deadline = some 99 ∧ 99 < (trussState trussObject).cycle) :=
  by and_intros <;> first | decide +kernel | exact ready_of (by decide +kernel) | exact trussAt_of (by decide +kernel)

/-- TrussPhases: a context that waits, with its phase turning and not; a deadline behind and ahead. -/
theorem test_hyp_TrussPhases : trussObject.bytes < 2 ^ 32 ∧ trussObject.arr < 2 ^ 16 ∧ trussObject.mem < 2 ^ 16 ∧
    ((trussState trussObject).here.ctxs[(5 : Fin 16)]).st = .parked .agent ∧ ((trussState trussObject).here.ctxs[(5 : Fin 16)]).req = some (.trwait 7 0x0800 false) ∧
    ((((trussState trussObject).endTruss 0x0800 { trussObject with arr := 6 }).here.truss 0x0800).phase = true) ∧
    ((((trussState trussObject).endTruss 0x0800 trussObject).here.truss 0x0800).phase = false) ∧
    (let s := { trussState trussObject with ev := { g := 3, x := 5 } }.modCtx 3 5 fun c => { c with deadline := some 100 }
     (s.ctxAt 3 5).deadline = some 100 ∧ (s.coreAt 3).away = none ∧ s.cycle ≤ 100 ∧ 100 < { s with cycle := 101 }.cycle) := by decide +kernel

/-- Two flits of different senders in channel 1 of core 3; g3 holds 5. -/
def chanState : State := (sampleWith fun c => { c with g := c.g.set 3 5 }).modCore 3 fun c =>
  { c with chans := c.chans.set 1 [{ lo := 1, hi := 2, src := 4, ctx := 3 }, { lo := 3, hi := 4, src := 5, ctx := 6 }] }

/-- Channels, the instructions: the last core and one too far; a flit there, none, the named sender's, none of his. -/
theorem test_hyp_Channels_instructions : Ready chanState [⟨3, true⟩, ⟨14, false⟩, ⟨15, false⟩] [14, 15] ∧
    (chanState.g 3).toNat < chanState.coreCount 3 ∧ chanState.coreCount 3 ≤ ((chanState.modCur fun c => { c with g := c.g.set 3 32 }).g 3).toNat ∧
    Ready chanState [] [14, 15, 12] ∧ chanState.here.flitsFor 3 1 2 = { lo := 1, hi := 2, src := 4, ctx := 3 } :: [{ lo := 3, hi := 4, src := 5, ctx := 6 }] ∧
    chanState.here.flitsFor 3 2 2 = [] ∧
    (chanState.here.flitsFor 3 1 2).find? (fun m => m.src == 5) = some { lo := 3, hi := 4, src := 5, ctx := 6 } ∧
    (∀ m ∈ chanState.here.flitsFor 3 1 2, m.src ≠ 6) := by
  and_intros <;> first | decide +kernel | exact ready_of (by decide +kernel)

/-- A flit in flight to channel 1 of core 5, which holds n flits. -/
def flitState (n : Nat) : State := (parked (.send 1 5 77 78)).modCore 5 fun c => { c with chans := c.chans.set 1 (List.replicate n { lo := 1, hi := 2, src := 4, ctx := 3 }) }

/-- A named receive that has stood since a cycle, and its partner's. -/
def probeState (at_ : Nat) (l : List Probe) : State := { (sampleWith fun c => { c with st := .parked (.flit 1 (some 5)), parkedAt := at_ }).setCtxAt 5 4
  { st := .parked (.flit 2 (some 3)) } with ev := { g := 3, x := 2 }, cycle := 2000, probes := l }

/-- Channels, the events: 7 and 8 flits; 1,024 and 1,023 cycles; a probe that goes on, one that is back, a confirm pass that goes on and ends. -/
theorem test_hyp_Channels_events :
    (∀ n ∈ [7, 8], ((flitState n).ctxAt 3 2).st = .parked .agent ∧ ((flitState n).ctxAt 3 2).req = some (.send 1 5 77 78) ∧ (flitState n).coreNo 3 5 = 5 ∧
      ((flitState n).coreAt 5).away = none ∧ (((flitState n).coreAt 5).chans[(1 : Fin 4)]).length = n ∧ (3, 2) ∉ ((flitState n).coreAt 5).chanQ) ∧
    (∀ e ∈ ((flitState 7).coreAt 5).chanQ.takeWhile (fun e => e != (3, 2)), (flitState 7).sending e.1 e.2 ≠ some (1, 5)) ∧
    ((saved (flitState 8) 5).coreAt 5).away ≠ none ∧ Msg.flit 3 2 ∉ ((flitState 8).coreAt 5).inbox ∧
    (((probeState 976 []).ctxAt 3 2).st = .parked (.flit 1 (some 5)) ∧ ((probeState 976 []).coreAt 3).away = none ∧
      (probeState 976 []).waitOver 3 2 (.flit 1 (some 5)) = false ∧ ((probeState 976 []).coreAt 3).frozen = false ∧
      (∀ p ∈ (probeState 976 []).probes, p.path.head? ≠ some (3, 2, 976)) ∧
      ((probeState 976 []).ctxAt 3 2).parkedAt + 1024 ≤ (probeState 976 []).cycle ∧ (probeState 977 []).cycle < ((probeState 977 []).ctxAt 3 2).parkedAt + 1024) ∧
    (let p : Probe := { path := [(3, 2, 0)], dest := 5, confirm := none }
     (probeState 0 [p]).probes[0]? = some p ∧ ((probeState 0 [p]).coreAt 5).away = none ∧ p.dest ≠ 3 ∧ p.path.length < 4096) ∧
    (let p : Probe := { path := [(3, 2, 0), (5, 4, 0)], dest := 3, confirm := none }
     (probeState 0 [p]).probes[0]? = some p ∧ (probeState 0 [p]).edge 3 2 = some (1, 5, 0)) ∧
    (∀ e ∈ [([(3, 2, 0)], 3, 2, 1, 5), ([(5, 4, 0), (3, 2, 0)], 5, 4, 2, 3)],
      let p : Probe := { path := [(3, 2, 0), (5, 4, 0)], dest := 3, confirm := some e.1 }
      let s := probeState 0 [p]
      s.probes[0]? = some p ∧ s.edge e.2.1 e.2.2.1 = some (e.2.2.2.1, e.2.2.2.2, 0) ∧ nextOnPath p.path (e.1.length - 1) = e.2.2.2.2 ∧
        s.flitComing e.2.1 e.2.2.2.1 e.2.2.2.2 false = false ∧ s.flitComing e.2.1 e.2.2.2.1 e.2.2.2.2 true = false ∧
        ∀ m ∈ (s.coreAt e.2.1).chans[(Fin.ofNat 4 e.2.2.2.1 : Fin 4)], m.src ≠ s.coreIndex e.2.2.2.2) ∧
    (probeState 0 []).edge 3 3 = none := by decide +kernel

/-- Channels, a cycle that stands whole, and one of which an edge was made anew or is gone. -/
theorem test_hyp_Channels_cycle : (probeState 0 []).cycleStands [(3, 2, 0), (5, 4, 0)] = true ∧
    (probeState 7 []).edge 3 2 = some (1, 5, 7) ∧ (probeState 7 []).cycleStands [(3, 2, 0), (5, 4, 0)] = false ∧
    ((probeState 0 []).modCtx 5 4 fun c => { c with st := .run }).cycleStands [(3, 2, 0), (5, 4, 0)] = false := by decide +kernel

/-- A transfer record: 3 by 2 elements of 8 bytes, or a list of 3, from segment 2 at 0x100. -/
def record (idx cnt1 str0 str1 loff : Nat) (sg : Nat := 2) : Nat :=
  0x100 + 3 * 2 ^ 64 + cnt1 * 2 ^ 80 + str0 * 2 ^ 96 + str1 * 2 ^ 128 + loff * 2 ^ 160 + idx * 2 ^ 176 + 3 * 2 ^ 192 + sg * 2 ^ 196

/-- A record in the scratchpad, the indices of a list, page 3 mapped. -/
def copyState (r : Nat) (rights : Nat := 7) : State :=
  let s := sample.modPart 0 fun p => { p with troot := 0x400000, wmask := p.wmask.map fun _ => 0xFFFF }
  let s := s.modCur fun c => { c with g := (c.g.set 3 0x1000).set 4 0x2000, sgb := c.sgb.set 2 0x30000 }
  let s := (s.padStore 3 0x1000 32 r).padStore 3 0x1800 12 0x000000180000000800000010
  { s with mem := mapped rights }

/-- A job record in order. -/
theorem jobRecord_of {s : State} {k : CopyKind} {l : Tile} {d : Reg} {a b : Src} {r : Nat} (h : Ready s (jobReadsOf a b) [d])
    (g : decide ((s.g a.r).toNat ≤ 0x5FE0 ∧ (s.g a.r).toNat % 32 = 0 ∧ (k = .fill ∨ k = .gath → 2 ≤ l.val) ∧ (s.here.tiles[l]).stash = none ∧
      r = Memory.load s.here.pad (s.g a.r).toNat 32) = true) (t : TileOpen s (s.g a.r).toNat) : JobRecord s k l d a b r := by
  obtain ⟨a, b, c, d, e⟩ := of_decide_eq_true g
  exact ⟨h, a, b, t, c, d, e⟩

/-- The same with tile 23 READY. -/
def copyReady (r : Nat) : State := (copyState r).modHere fun c => { c with tiles := c.tiles.set 23 { st := .ready } }

/-- CopyInstructions, the four jobs into tiles 2 and 23, an invalid record, a queue with room. -/
theorem test_hyp_CopyInstructions_records : JobRecord (copyState (record 0 2 8 64 64)) .fill 2 7 ⟨3, true⟩ ⟨4, true⟩ (record 0 2 8 64 64) ∧
    JobRecord (copyState (record 0x1800 1 0 0 0)) .scat 23 7 ⟨3, true⟩ ⟨15, true⟩ (record 0x1800 1 0 0 0) ∧
    JobRecord (copyState 0) .drain 1 7 ⟨3, true⟩ ⟨15, true⟩ 0 ∧ recValid .drain 0 = false ∧ ((copyState 0).copyJobs 3).length < 8 :=
  ⟨jobRecord_of (ready_of (by decide +kernel)) (by decide +kernel) (open_of (by decide +kernel)),
    jobRecord_of (ready_of (by decide +kernel)) (by decide +kernel) (open_of (by decide +kernel)),
    jobRecord_of (ready_of (by decide +kernel)) (by decide +kernel) (open_of (by decide +kernel)), by decide +kernel, by decide +kernel⟩

/-- CopyInstructions, a fill with a truss. -/
theorem test_hyp_CopyInstructions_fill : JobAdmitted (copyState (record 0 2 8 64 64)) .fill 2 ⟨4, true⟩ (record 0 2 8 64 64) :=
  ⟨by decide +kernel, fun _ => ⟨0x2000, trussAt_of (by decide +kernel), by decide +kernel⟩,
      by decide +kernel, by unfold CopySpace; decide +kernel, by decide +kernel⟩

/-- CopyInstructions, a scatter without one. -/
theorem test_hyp_CopyInstructions_scatter : JobAdmitted (copyReady (record 0x1800 1 0 0 0)) .scat 23 ⟨15, true⟩ (record 0x1800 1 0 0 0) :=
    ⟨by decide +kernel, fun h => absurd h (by decide), by decide +kernel, by unfold CopySpace; decide +kernel, by decide +kernel⟩

/-- A job with a record, whose first elements are done. -/
def copyJob (k : CopyKind) (r done : Nat) : CopyJob := { jobOf (copyState r) k 10 ⟨15, true⟩ r with id := 5, done := done }

/-- CopyInstructions, status: a queued job, a running one, a finished one, an identifier that is not kept; TLSET of an idle and a busy tile. -/
theorem test_hyp_CopyInstructions_status :
    (let s := (copyState 0).modHere fun c => { c with copyQ := [copyJob .fill 0 3] }
     (s.copyJobs 3).any (fun j => j.id == 5) = true ∧ s.here.copyQ.find? (fun j => j.id == 5) = some (copyJob .fill 0 3)) ∧
    (let s := (copyState 0).modCluster 0 fun c => { c with copyRun := some (3, copyJob .fill 0 3) }
     (s.copyJobs 3).any (fun j => j.id == 5) = true ∧ (∀ j ∈ s.here.copyQ, j.id ≠ 5) ∧ (s.clusterAt (3 / 8)).copyRun = some (3 % 8, copyJob .fill 0 3)) ∧
    (let s := (copyState 0).modHere fun c => { c with copyStat := [{ id := 5, code := 7, sub := 0, done := 3, ovf := false, addr := 9 }] }
     (∀ j ∈ s.copyJobs 3, j.id ≠ 5) ∧ (s.here.copyStat.find? fun j => j.id == 5).isSome = true ∧ ∀ j ∈ s.here.copyStat, j.id ≠ 6) ∧
    ((sampleWith fun c => { c with g := c.g.set 3 2 }).g 3 = 2 ∧ (sampleWith fun c => { c with g := c.g.set 3 0 }).g 3 = 0) ∧ (copyState 0).g 3 ≠ 0 ∧ (copyState 0).g 3 ≠ 2 ∧
    (copyState 0).waitOver 3 2 (.tileIdle 9) = true ∧ ((copyState 0).here.tiles[(9 : Tile)]).stash = none ∧ busyTile.waitOver 3 2 (.tileIdle 5) = false ∧
    ((stashState (some stashMap) 0).here.tiles[(5 : Tile)]).stash ≠ none := by decide +kernel

/-- A running job. -/
def copyRuns (k : CopyKind) (r done : Nat) (rights : Nat := 7) : State :=
  { ((copyState r rights).modCluster 0 fun c => { c with copyRun := some (3, copyJob k r done) }) with ev := { g := 0 } }

/-- CopyJobs: a queue whose turn it is; elements of a fill and of a scatter, the first and the last; a page without the right; a record whose element
fails its segment check; a job whose elements are all done and whose context waits. -/
theorem test_hyp_CopyJobs :
    (let s : State := { (copyState 0).modCore 5 fun c => { c with copyQ := [copyJob .fill 0 0] } with ev := { g := 0 } }
     let last := (s.clusterAt 0).copyLast
     (s.clusterAt 0).copyRun = none ∧ (s.coreAt ((last + 1 + (5 + 7 - last) % 8) % 8)).copyQ = copyJob .fill 0 0 :: [] ∧
       (s.coreAt ((last + 1 + (5 + 7 - last) % 8) % 8)).frozen = false ∧ ((saved s 4).coreAt 4).frozen = true ∧
       ∀ k, k < (5 + 7 - last) % 8 → (s.coreAt ((last + 1 + k) % 8)).copyQ = []) ∧
    (∀ d ∈ [0, 5], let s := copyRuns .fill (record 0 2 8 64 64) d
      let j := copyJob .fill (record 0 2 8 64 64) d
      (s.clusterAt 0).copyRun = some (3, j) ∧ j.done ≠ recTotal j.record ∧ recPlanes j.record = false ∧ j.gaveUp = false ∧ j.page = none ∧
        (match elemCheck j.sgb j.sgl (jobOffset s 3 j) 8 (recAlign j.record) with
          | .ok va => (match s.jobReads 3 j.comp va 8 1 with | .val .. => true | _ => false)
          | .error _ => false) = true) ∧
    (let s := copyRuns .scat (record 0x1800 1 0 0 0) 2
     let j := copyJob .scat (record 0x1800 1 0 0 0) 2
     j.done ≠ recTotal j.record ∧ s.blockComing 3 = false ∧ (match elemCheck j.sgb j.sgl (jobOffset s 3 j) 8 (recAlign j.record) with
       | .ok va => (match s.jobMayWrite 3 j.comp va 8 1 with | .val .. => true | _ => false)
       | .error _ => false) = true) ∧
    (let s := copyRuns .fill (record 0 2 8 64 64) 0 1
     (match s.jobReads 3 0 0x30100 8 1 with | .prot _ => true | _ => false) = true) ∧
    (let r := record 0 2 8 64 64 + 2 ^ 48
     (match elemCheck (copyJob .fill r 0).sgb (copyJob .fill r 0).sgl (jobOffset (copyRuns .fill r 0) 3 (copyJob .fill r 0)) (recBytes r) (recAlign r) with
       | .error _ => true | _ => false) = true) ∧
    (let s := (copyRuns .fill (record 0 2 8 64 64) 6).modCtx 3 2 fun c => { c with st := .parked .agent, step := 4, req := some (.copyJob 7 5) }
     (copyJob .fill (record 0 2 8 64 64) 6).done = recTotal (record 0 2 8 64 64) ∧ (s.ctxAt 3 2).req = some (.copyJob 7 5) ∧
       (s.ctxAt 3 2).aside = none ∧ delivers s 3 2 7 = true) := by decide +kernel

/-- CopyJobs: a fill of plane rows, a page that is not present, a line that fails its check, and a job whose context has gone on. -/
theorem test_hyp_CopyJobs_planes :
    (let r := 0x100 + 3 * 2 ^ 64 + 2 * 2 ^ 80 + 64 * 2 ^ 128 + 2 ^ 195 + 2 * 2 ^ 196 + 4 * 2 ^ 200
     let s := copyRuns .fill r 0
     let j := copyJob .fill r 0
     recValid .fill r = true ∧ recPlanes r = true ∧ j.done ≠ recTotal r ∧
       (match elemCheck j.sgb j.sgl (jobOffset s 3 j) (recBytes r) (recAlign r) with
         | .ok va => (match s.jobReads 3 j.comp va 1 (recBytes r) with | .val .. => true | _ => false)
         | .error _ => false) = true) ∧
    (let s : State := { copyRuns .fill (record 0 2 8 64 64) 0 with mem := [] }
     (match s.jobReads 3 0 0x30100 8 1 with | .absent a => !s.migrates 0 a && (s.pageFault 3 7 2 a 0x40).1.isSome | _ => false) = true) ∧
    (let s := retagged (copyRuns .fill (record 0 2 8 64 64) 0) 0x120100
     (match s.jobReads 3 0 0x30100 8 1 with | .bad pa => pa == 0x120100 | _ => false) = true) ∧
    ((copyRuns .fill (record 0 2 8 64 64) 6).ctxAt 3 2).req = none ∧ ((copyRuns .fill (record 0 2 8 64 64) 6).ctxAt 3 2).aside = none := by decide +kernel

/-- A matrix record: format, precision, base, rows, columns; global, segment, offset. -/
def mxRecord (fmt prec base rows cols : Nat) (glob sg : Nat := 0) : Nat :=
  fmt + prec * 2 ^ 8 + base * 2 ^ 16 + rows * 2 ^ 32 + glob * 2 ^ 40 + sg * 2 ^ 41 + cols * 2 ^ 48

/-- Two records in the scratchpad, the column count in g7, and a geometry. -/
def mxState (ra rb : Nat) (n : Nat := 16) (rights : Nat := 7) : State :=
  let s := sample.modPart 0 fun p => { p with troot := 0x400000, wmask := p.wmask.map fun _ => 0xFFFF }
  let s := s.modCur fun c => { c with
    g := (((c.g.set 3 0x1000).set 4 0x1020).set 7 (.ofNat 64 n)), sgb := c.sgb.set 2 0x30000, geom := .ofNat 64 (2 * 2 ^ 24 + 24 * 2 ^ 32 + 20 * 2 ^ 48) }
  let s := (s.padStore 3 0x1000 32 ra).padStore 3 0x1020 32 rb
  { s with mem := mapped rights }

/-- A record at an address, decided. -/
theorem recordAt_of {s : State} {v : W} {r : Nat} (h : decide (v.toNat ≤ 0x5FE0 ∧ v.toNat % 32 = 0 ∧ r = Memory.load s.here.pad v.toNat 32) = true)
    (t : TileOpen s v.toNat) : RecordAt s v r := by
  obtain ⟨a, b, c⟩ := of_decide_eq_true h
  exact ⟨a, b, t, c⟩

/-- MatrixInstructions, records: a pair, an invalid one, two that are no pair, a destination; the column counts at the ends of their ranges. -/
theorem test_hyp_MatrixInstructions_records :
    Ready (mxState (mxRecord 3 0 0x1400 4 3) (mxRecord 3 0 0x1800 3 6)) [⟨3, true⟩, ⟨4, false⟩, ⟨7, false⟩] [7] ∧
    RecordAt (mxState (mxRecord 3 0 0x1400 4 3) (mxRecord 3 0 0x1800 3 6)) ((mxState (mxRecord 3 0 0x1400 4 3) (mxRecord 3 0 0x1800 3 6)).g 3) (mxRecord 3 0 0x1400 4 3) ∧
    RecordAt (mxState (mxRecord 3 0 0x1400 4 3) (mxRecord 3 0 0x1800 3 6)) ((mxState (mxRecord 3 0 0x1400 4 3) (mxRecord 3 0 0x1800 3 6)).g 4) (mxRecord 3 0 0x1800 3 6) ∧
    mxValid .a 0 = false ∧ mxValid .a (mxRecord 3 0 0x1400 4 3) = true ∧ mxValid .b (mxRecord 3 0 0x1800 3 6) = true ∧
    mxPair (mxRecord 3 0 0x1400 4 3) (mxRecord 3 0 0x1800 3 6) = true ∧ mxPair (mxRecord 3 0 0x1400 4 3) (mxRecord 18 0 0x1800 2 5) = false ∧
    mxValid .dst (mxRecord 1 0 0x1C00 4 6) = true ∧ (3 : Fin 4).val + (mxCols (mxRecord 1 0 0x1C00 4 6) + 127) / 128 ≤ 4 ∧
    4 < (1 : Fin 4).val + (mxCols (mxRecord 1 0 0x1C00 4 400) + 127) / 128 ∧ mxValid .dst (mxRecord 1 0 0x1C00 4 400) = true ∧
    (((mxState 0 0 512).g 7).toNat = 512 ∧ (0 : Fin 4).val + (512 + 127) / 128 ≤ 4 ∧ 4 < (1 : Fin 4).val + (512 + 127) / 128) ∧
    ((mxState 0 0 528).g 7).toNat = 528 ∧ ((mxState 0 0 112).g 7).toNat = 112 ∧ ((mxState 0 0 128).g 7).toNat = 128 ∧
    (bitsOf (mxState 0 0).cur.geom 24 8 ≠ 0 ∧ bitsOf (mxState 0 0).cur.geom 32 16 ≠ 0 ∧ bitsOf (mxState 0 0).cur.geom 48 16 ≠ 0) ∧
    bitsOf sample.cur.geom 24 8 = 0 := by
  and_intros <;> first | decide +kernel | exact ready_of (by decide +kernel) | exact recordAt_of (by decide +kernel) (open_of (by decide +kernel))

/-- A product job of the small state. -/
def mxJob (k : MxKind) : MxJob := { mxJobOf (mxState (mxRecord 3 0 0x1400 4 3) (mxRecord 3 0 0x1800 3 6)) k false true false 1 (mxRecord 3 0 0x1400 4 3)
  (mxRecord 3 0 0x1800 3 6) with id := 5 }

/-- MatrixInstructions, jobs: admitted, with 7 and 8 jobs before it; status as in CopyInstructions. -/
theorem test_hyp_MatrixInstructions_jobs : MxAdmitted (mxState (mxRecord 3 0 0x1400 4 3) (mxRecord 3 0 0x1800 3 6)) (mxJob (.mul 16)) ∧
    MxAdmitted (mxState 0 0) (mxJobOf (mxState 0 0) .zero false false false 3 0 0) ∧ ((mxState 0 0).mxJobs 3).length < 8 ∧
    8 ≤ (((mxState 0 0).modHere fun c => { c with mxQ := List.replicate 8 (mxJob .zero) }).mxJobs 3).length ∧
    (let s := (mxState 0 0).modHere fun c => { c with mxQ := [mxJob .zero] }
     (s.mxJobs 3).any (fun j => j.id == 5) = true ∧ (s.here.mxQ.find? fun j => j.id == 5).isSome = true) ∧
    (let s := (mxState 0 0).modHere fun c => { c with mxStat := [{ id := 5, code := 7, sub := 0, done := 0, ovf := true, addr := 9 }] }
     (∀ j ∈ s.mxJobs 3, j.id ≠ 5) ∧ (s.here.mxStat.find? fun j => j.id == 5).isSome = true ∧ ∀ j ∈ s.here.mxStat, j.id ≠ 6) ∧
    (let s := (mxState 0 0).modCluster 0 fun c => { c with mxRun := some (3, mxJob .zero) }
     (s.clusterAt (3 / 8)).mxRun.map (fun e => (e.1, e.2.id)) = some (3 % 8, 5) ∧ ∀ j ∈ s.here.mxQ, j.id ≠ 5) := by
  refine ⟨⟨by decide +kernel, rfl, ?_⟩, ⟨by decide +kernel, rfl, ?_⟩, by decide +kernel, by decide +kernel, by decide +kernel, by decide +kernel, by decide +kernel⟩
  · have h : ∀ t ∈ tilesOf (mxJob (.mul 16)).ranges, 1024 * t < 0x0800 ∨
        (((mxState (mxRecord 3 0 0x1400 4 3) (mxRecord 3 0 0x1800 3 6)).here.tileAt (1024 * t)).stash = none ∧
          ((mxState (mxRecord 3 0 0x1400 4 3) (mxRecord 3 0 0x1800 3 6)).here.tileAt (1024 * t)).st = .ready) := by decide +kernel
    exact h
  · have h : tilesOf (mxJobOf (mxState 0 0) .zero false false false 3 0 0).ranges = [] := by decide +kernel
    rw [h]; exact nofun

/-- A running matrix job that its context waits for. -/
def mxRuns (k : MxKind) : State :=
  { ((mxState (mxRecord 3 0 0x1400 4 3) (mxRecord 3 0 0x1800 3 6)).modCluster 0 fun c => { c with mxRun := some (3, mxJob k) }).modCtx 3 2 fun c =>
      { c with st := .parked .agent, step := 4, req := some (.mxJob 7 5) } with ev := { g := 0 } }

/-- MatrixProducts: a job whose turn it is; products and a zeroing that run. -/
theorem test_hyp_MatrixProducts :
    (let s : State := { (mxState 0 0).modCore 5 fun c => { c with mxQ := [mxJob .zero] } with ev := { g := 0 } }
     let last := (s.clusterAt 0).mxLast
     (s.clusterAt 0).mxRun.isNone = true ∧ (s.coreAt ((last + 1 + (5 + 7 - last) % 8) % 8)).mxQ.length = 1 ∧
       (s.coreAt ((last + 1 + (5 + 7 - last) % 8) % 8)).frozen = false ∧ ((saved s 4).coreAt 4).frozen = true ∧
       ∀ k, k < (5 + 7 - last) % 8 → (s.coreAt ((last + 1 + k) % 8)).mxQ.isEmpty = true) ∧
    (∀ k ∈ [MxKind.mul 16, .mul 512, .mulg 112, .zero], ((mxRuns k).clusterAt 0).mxRun.isSome = true ∧ (mxJob k).page = none ∧ (mxJob k).kind = k ∧
      mxGlobal (mxJob k).recB = false ∧ ((mxRuns k).ctxAt 3 2).req = some (.mxJob 7 5) ∧ (mxRuns k).ev.n = 0 ∧
      (mxRuns k).blockComing 3 = false ∧ ((mxRuns k).ctxAt 3 2).aside = none ∧ delivers (mxRuns k) 3 2 7 = true) ∧
    ((mxJob (.mul 16)).cols ≠ 0 ∧ (mxJob (.mul 16)).localWord (0x1400 / 8) = true ∧ aget? (mxJob (.mul 16)).got (0x1400 / 8) = none) := by
  decide +kernel

/-- MatrixInstructions, the completion of a read into the scratchpad and the fault of one into a page without the right. -/
theorem test_hyp_MatrixInstructions_reads : mxGlobal (mxRecord 1 0 0x1C00 4 6) = false ∧ mxGlobal (mxRecord 1 0 0 2 3 1 2) = true ∧
    (let s := mxState (mxRecord 1 0 0 2 3 1 2) 0 16 3
     let j := mxJobOf s .read false false false 0 (mxRecord 1 0 0 2 3 1 2) 0
     j.page = none ∧ j.gaveUp = false ∧ s.blockComing 3 = false ∧ (s.ctxAt 3 2).req = none ∧ (s.ctxAt 3 2).aside = none ∧ s.mxAbsent 3 j = none ∧ j.dRest.length = 6 ∧
       (match s.jobMayWrite 3 j.comp 0x30000 (mxSize j.recA) 1 with | .prot _ => true | _ => false) = true) := by decide +kernel

/-- The lead issues, with 5 in g3, and its helper is context 5. -/
def leadWith (f : Ctx → Ctx := id) (y : Ctx := {}) : State :=
  { ((sample.setCtxAt 3 0 (f { sampleCtx with g := (sampleCtx.g.set 3 5).set 4 0x80, ports := .replicate 4 {} })).setCtxAt 3 2 {}).setCtxAt 3 5 y with ctx := 0 }

/-- A sleeping helper. -/
def sleeper (dl : Option Nat := none) : Ctx :=
  { sampleCtx with role := .helper, st := .parked .agent, park := .sleep, step := 4, req := some (.sleep 7), deadline := dl, ports := .replicate 4 {} }

/-- Names, decided. -/
theorem names_of {s : State} {v : W} {x : Fin 16}
    (h : (v == .ofNat 64 x.val && decide (x ≠ 0) && match (s.ctxAt s.core x).role with | .translator _ => false | _ => true) = true) :
    Names s v x := by
  simp only [Bool.and_eq_true, beq_iff_eq, decide_eq_true_eq] at h
  refine ⟨h.1.1, h.1.2, fun l e => ?_⟩
  rw [e] at h
  exact absurd h.2 (by simp)

/-- ContextControl: context 5 named. -/
theorem test_hyp_ContextControl_names : Names (leadWith) ((leadWith).g 3) 5 := names_of (by decide +kernel)

/-- ContextControl, the lead's instructions: numbers 0 and 16; a FREE, a running, a sleeping context, one whose limit has passed;
a buffered store, and an atomic on its way, which outlives its context. -/
theorem test_hyp_ContextControl_lead : sample.ctx ≠ 0 ∧ (leadWith).ctx = 0 ∧ (leadWith fun c => { c with g := c.g.set 3 0 }).g 3 = 0 ∧
    16 ≤ ((leadWith fun c => { c with g := c.g.set 3 16 }).g 3).toNat ∧ Ready (leadWith) [⟨3, true⟩, ⟨4, true⟩, ⟨7, false⟩] [] ∧
    Ready (leadWith) [⟨3, true⟩, ⟨4, true⟩] [] ∧ Ready (leadWith) [⟨3, true⟩] [] ∧
    ((leadWith).ctxAt 3 5).st = .free ∧ (leadWith).hops = [] ∧ ((leadWith).g 4).toNat % 2 = 0 ∧
    ((leadWith id (sleeper)).ctxAt 3 5).st ≠ .free ∧ ((leadWith id (sleeper)).ctxAt 3 5).st = .parked .agent ∧
    ((leadWith id (sleeper (some 100))).ctxAt 3 5).req = some (.sleep 7) ∧ (leadWith id (sleeper (some 100))).cycle ≤ 100 ∧
    ((leadWith id (sleeper (some 99))).ctxAt 3 5).deadline = some 99 ∧ 99 < (leadWith).cycle ∧
    Deliverable (leadWith id (sleeper)) 3 5 7 ∧ ((leadWith id { sleeper with st := .run, req := none }).ctxAt 3 5).req = none ∧
    ((leadWith id { sleeper with st := .run, req := none }).ctxAt 3 5).undo.ports = [] ∧
    ((leadWith id (sleeper)).ctxAt 3 5).reaping = false ∧ (leadWith id (sleeper)).outlives 3 5 = false ∧
    (leadWith id (sleeper)).here.storesOf 5 = false ∧ (leadWith).cur.req = none ∧ (leadWith).cores.all (fun e => (e.2.ctxs[(5 : Fin 16)]).gangOld.isNone) = true ∧
    (((leadWith id (sleeper)).modHere fun c => { c with sb := [{ storeEntry with ctx := 5 }] }).here.storesOf 5 = true) ∧
    (leadWith id { sleeper with prog := some {}, req := some (.atomicOut 5 .add false true 3 0 0x30044 .rlx .quad (.ready 0x120044)) }).outlives 3 5 = true := by
  and_intros <;> first | decide +kernel | exact ready_of (by decide +kernel) | exact deliverable_of (by decide +kernel)

/-- ContextControl: SLEEP with a pending wake, with no limit, with its limit at this cycle and one later; the limit of a sleeping context. -/
theorem test_hyp_ContextControl_sleep : Ready sample [⟨3, true⟩] [7] ∧ sample.cur.pendWake = false ∧ sample.cur.deadline = none ∧
    (sampleWith fun c => { c with pendWake := true }).cur.pendWake = true ∧ (sampleWith fun c => { c with deadline := some 100 }).cur.deadline = some 100 ∧
    100 ≤ sample.cycle ∧ sample.cycle < 101 ∧
    (let s : State := { leadWith id (sleeper (some 100)) with ev := { g := 3, x := 5 } }
     (s.ctxAt 3 5).st = .parked .agent ∧ (s.ctxAt 3 5).req = some (.sleep 7) ∧ (s.ctxAt 3 5).deadline = some 100 ∧ 100 ≤ s.cycle) ∧
    Deliverable { leadWith id (sleeper (some 100)) with ev := { g := 3, x := 5 } } 3 5 7 := by
  and_intros <;> first | decide +kernel | exact ready_of (by decide +kernel) | exact deliverable_of (by decide +kernel)

/-- A context that may hop, with the target in g3. -/
def hopState (i : Nat) : State := sampleWith fun c => { c with g := c.g.set 3 (.ofNat 64 i) }

/-- HopAndSave, HOP: the last core of the partition and one too far; a coupled context, and one that still holds its leader's word; one that is a
truss member; a buffered store. -/
theorem test_hyp_HopAndSave_hop : Ready (hopState 31) [⟨3, true⟩] [7] ∧ ((hopState 31).g 3).toNat < 8 * ((hopState 31).partOf 3).len ∧
    8 * ((hopState 32).partOf 3).len ≤ ((hopState 32).g 3).toNat ∧ gangState.cur.gang ≠ none ∧ (hopState 31).cur.gang = none ∧
    (sampleWith fun c => { c with gword := some (5, 4) }).cur.gword ≠ none ∧ (hopState 31).cur.gword = none ∧ (hopState 31).ctx ≠ 0 ∧
    ((hopState 31).cur.trm.toList.all fun v => !v.getLsbD 63) = true ∧ (hopState 31).copyJobs 3 = [] ∧ (hopState 31).mxJobs 3 = [] ∧
    (hopState 31).here.storesOf 2 = false ∧ storedState.here.storesOf 2 = true ∧
    ((trussState trussObject 0x0800 joined).cur.trm.toList.any fun v => v.getLsbD 63) = true := by
  and_intros <;> first | decide +kernel | exact ready_of (by decide +kernel)

/-- A HOP that asks core 21, whose contexts are in a state. -/
def hopAsks (st : CtxSt) : State := { (parked (.hop 7 21)).modCore 21 fun c => { c with ctxs := .replicate 16 { st := st } } with ev := { g := 3, x := 2, n := 5 } }

/-- An image on its way to context 2 of core 3. -/
def hopping (n : Option (List (Nat × Nat))) : State :=
  { (sample.setCtxAt 3 2 {}) with ev := { g := 3, x := 2, n := 3 }, hops := [{ core := 3, ctx := 2, src := 9, image := { sampleCtx with step := 4, req := some (.hopIn 7 n) } }] }

/-- HopAndSave, the events: a grant, a refusal, an arrival before, during and after its sweep, at a saved core too. -/
theorem test_hyp_HopAndSave_events :
    (((hopAsks .free).ctxAt 3 2).st = .parked .agent ∧ ((hopAsks .stopped).ctxAt 3 2).st = .parked .agent) ∧
    ((hopAsks .free).ctxAt 3 2).req = some (.hop 7 21) ∧ ((hopAsks .free).coreAt 3).storesOf 2 = false ∧ ((hopAsks .free).coreAt 3).frozen = false ∧
    ((hopAsks .free).ctxAt 3 2).prog = some {} ∧
    (hopAsks .free).released 3 0 .die = true ∧ dieOf 3 = dieOf 21 ∧ ((hopAsks .free).coreAt 21).away = none ∧ ((hopAsks .free).ctxAt 21 5).st = .free ∧
    (hopAsks .free).hops = [] ∧ (hopAsks .free).otherLaunch 3 ((hopAsks .free).ctxAt 3 2) 21 = false ∧
    (∀ y : Fin 16, ((hopAsks .stopped).ctxAt 21 y).st ≠ .free) ∧ delivers (hopAsks .stopped) 3 2 7 = true ∧
    (∀ n ∈ [none, some [], some [(1, 2)]], let s := hopping n
     (s.hops.find? fun k => k.core == 3 && k.ctx == 2).map (fun h => h.image.req) = some (some (.hopIn 7 n)) ∧ (s.coreAt 3).frozen = false) ∧
    (let s := hopping (some [])
     (match s.hops.find? fun k => k.core == 3 && k.ctx == 2 with
      | some h => (match s.readyHop 3 h.image with
        | some r =>
          let u : State := { r with hops := r.hops.filter fun k => !(k.core == 3 && k.ctx == 2) }
          delivers ((u.setCtxAt 3 2 { h.image with st := .parked .agent, park := .hop, parkedAt := u.cycle }).acquire 3 2 .die) 3 2 7
        | none => false)
      | none => false) = true) ∧
    (let s := saved (hopping none) 3
     (s.coreAt 3).away ≠ none ∧ (s.coreAt 3).inbox.length < 256 ∧ Msg.hop 3 2 ∉ (s.coreAt 3).inbox) := by decide +kernel

/-- HopAndSave, a core that may be saved with a context that waits without effect, one whose buffered stores and one whose job it must wait for, one
that resumes, messages to a saved core. -/
theorem test_hyp_HopAndSave_save :
    (let s : State := { (sampleWith fun c => { c with st := .parked (.full [2]) }) with ev := { g := 3, v := 0x100000 } }
     (s.coreAt 3).away = none ∧ (s.coreAt 3).halted = false ∧ s.partOfCluster (3 / 8) ≠ none ∧ (s.coreAt 3).sb = [] ∧ s.jobRuns 3 = false ∧
       (s.ctxAt 3 2).st = .parked (.full [2]) ∧ (s.ctxAt 3 2).req = none ∧ (s.ctxAt 3 2).park ≠ .fenced) ∧
    (storedState.coreAt 3).sb ≠ [] ∧ (copyRuns .fill 0 0).jobRuns 3 = true ∧ gangState.cur.gang = some (2, 2) ∧ 3 ∈ gangState.members 3 2 2 ∧
    (let s : State := { saved sample 3 with ev := { g := 3 } }
     (s.coreAt 3).away = some 0x100000 ∧ (s.coreAt 3).inbox = []) ∧
    (let s : State := { saved (parked (.ldx 5 .i8 4 0x800)) 4 with ev := { g := 3, x := 2, n := 1 } }
     (s.ctxAt 3 2).req = some (.ldx 5 .i8 4 0x800) ∧ (s.coreAt (8 * (s.partOf 3).base + 4)).away ≠ none ∧ Msg.ldx 3 2 ∉ (s.coreAt 4).inbox) ∧
    (let s : State := { saved (parked (.send 1 4 7 8)) 4 with ev := { g := 3, x := 2, n := 2 } }
     s.sending 3 2 = some (1, 4) ∧ Msg.flit 3 2 ∉ (s.coreAt 4).inbox) ∧
    (let s : State := { saved (stxState 0x20FC) 5 with ev := { g := 3, x := 2, n := 0, v := 7 } }
     ((s.coreAt 3).stxDue 7).isSome = true ∧ (s.coreAt 5).away ≠ none) ∧
    ((saved (hopping none) 3).hops.any fun h => h.core == 3 && h.ctx == 2) = true := by decide +kernel

/-- Core 3 with a lead, TVEC and TACT; context 2 runs. -/
def trapState (tv : Nat) (tact : Bool) (f : CoreSt → CoreSt := id) (v : W := 5) : State :=
  ({ sample.setCtxAt 3 0 { sampleCtx with g := sampleCtx.g.set 3 v, pc := 0x800, ports := .replicate 4 {} } with ctx := 0 } : State).modCore 3 fun c =>
    f { c with tvec := .ofNat 64 tv, tact := tact }

/-- FaultEntry: every combination of an enabled handler and an active one. -/
theorem test_hyp_FaultEntry : ((trapState 0x901 false).ctxAt 3 2).gang = none ∧ ((trapState 0x901 false).ctxAt 3 0).gang = none ∧
    ((trapState 0x901 false).coreAt 3).tvec.getLsbD 0 = true ∧ ((trapState 0x901 false).coreAt 3).tact = false ∧
    ((trapState 0x901 true).coreAt 3).tact = true ∧ ((trapState 0x900 false).coreAt 3).tvec.getLsbD 0 = false ∧
    ((trapState 0x900 false).coreAt 3).storesOf 2 = false ∧ (trapState 0x900 false).outlives 3 2 = false ∧
    (∀ y : Fin 16, waitsGang ((trapState 0x900 false).ctxAt 3 y) = false) := by decide +kernel

/-- TrapsAndRecords, the instructions: the lead in and out of its handler; a STOPPED context, with and without a request; slots; records and
addresses at the ends of the range. -/
theorem test_hyp_TrapsAndRecords_instructions : sample.ctx ≠ 0 ∧ (trapState 0x901 true).ctx = 0 ∧ (trapState 0x901 true).here.tact = true ∧
    (trapState 0x901 false).here.tact = false ∧ Ready (trapState 0x901 true) [⟨3, true⟩] [7] ∧ (trapState 0x901 true).g 3 = .ofNat 64 (5 : Fin 16).val ∧
    (let s := trapState 0x901 true fun c => c.setCtx 5 { sampleCtx with st := .stopped }
     (s.ctxAt 3 5).st = .stopped ∧ (s.ctxAt 3 5).reaping = false ∧ (s.ctxAt 3 5).req = none) ∧
    (let s := trapState 0x901 true fun c => c.setCtx 5 { sampleCtx with st := .stopped, req := some (.load 5 .i8 64 .walk) }
     (s.ctxAt 3 5).req = some (.load 5 .i8 64 .walk)) ∧ ((trapState 0x901 true).ctxAt 3 5).st ≠ .stopped ∧
    15 < ((trapState 0 false id 16).g 3).toNat ∧ (trapState 0 false).here.sfq = [] ∧
    (let s := trapState 0 false (fun c => { c with sfq := [.replicate 4 7] }) 0x5FE0
     s.here.sfq = .replicate 4 7 :: [] ∧ (s.g 3).toNat % 32 = 0 ∧ 0x0800 ≤ (s.g 3).toNat ∧ (s.g 3).toNat + 32 ≤ 0x6000 ∧ ∀ e ∈ s.here.sb, e.fault = none) ∧
    TileOpen (trapState 0 false (fun c => { c with sfq := [.replicate 4 7] }) 0x5FE0) 0x5FE0 ∧
    ((trapState 0 false id 0x7E0).g 3).toNat < 0x0800 ∧ 0x6000 < ((trapState 0 false id 0x6000).g 3).toNat + 32 ∧ ((trapState 0 false id 0x1008).g 3).toNat % 32 ≠ 0 := by
  and_intros <;> first | decide +kernel | exact ready_of (by decide +kernel) | exact open_of (by decide +kernel)

/-- A request that an interrupted lead has set aside. -/
def asideOf : Aside := { req := some (.copyJob 7 3), pc := 0x7FC, len := 4 }

/-- TrapsAndRecords: a lead in its handler without and with a request set aside; requests that a handler entry waits for, sets aside, and abandons; a
TRWAIT past its deadline. -/
theorem test_hyp_TrapsAndRecords_aside :
    let with' := fun (r : Req) => (trapState 0x901 false fun c => { c with tpend := 4 }).modCtx 3 0 fun c => { c with st := .parked .agent, step := 4, req := some r }
    (trapState 0x901 true).cur.aside = none ∧ ((trapState 0x901 true).modCur fun c => { c with aside := some asideOf }).cur.aside = some asideOf ∧
    asideOf.req = some (.copyJob 7 3) ∧
    (let r : Req := .sfu 7 .rcp .f32 1 0 0 true
     r.awaited = true ∧ (with' r).hasLeft 3 0 = true) ∧
    (let r : Req := .copyJob 7 3
     r.awaited = false ∧ (with' r).hasLeft 3 0 = true ∧ ((with' r).ctxAt 3 0).token = none) ∧
    (let r : Req := .load 7 .i8 64 .walk
     (with' r).hasLeft 3 0 = false) ∧
    (let s := (with' (.trwait 7 0x0800 false)).modCtx 3 0 fun c => { c with deadline := some 99 }
     (s.ctxAt 3 0).req = some (.trwait 7 0x0800 false) ∧ (s.ctxAt 3 0).deadline = some 99 ∧ 99 < s.cycle ∧ (s.ctxAt 3 0).token = none) := by decide +kernel

/-- TrapsAndRecords, the events: a handler that is due, from a lead that runs or sleeps;
a fallen lead and one that has never run; a fetch that faults. -/
theorem test_hyp_TrapsAndRecords_events :
    (let s : State := { trapState 0x901 false fun c => { c with tpend := 4 } with ev := { g := 3 } }
     let c := s.coreAt 3
     c.tpend ≠ 0 ∧ c.tact = false ∧ c.tvec.getLsbD 0 = true ∧ c.down = false ∧ c.halted = false ∧ c.frozen = false ∧ (s.ctxAt 3 0).st = .run ∧
       (s.ctxAt 3 0).token = none ∧ (s.ctxAt 3 0).bound (Fin.ofNat 16 7) = false) ∧
    (∀ v ∈ [99, 100], let s := (trapState 0x901 false fun c => { c with tpend := 4 }).modCtx 3 0 fun c =>
       { c with st := .parked .agent, req := some (.sleep 7), deadline := some v }
     (s.ctxAt 3 0).st = .parked .agent ∧ (s.ctxAt 3 0).req = some (.sleep 7) ∧ (s.ctxAt 3 0).deadline = some v ∧ (s.cycle ≤ v ↔ v = 100) ∧
       delivers s 3 0 7 = true) ∧
    (trapState 0x901 true).here.tact = true ∧
    (let s := sample.modCore 3 fun c => { c with fallen := true }
     (s.coreAt 3).frozen = false ∧ (s.coreAt 3).halted = false ∧ s.partOfCluster (3 / 8) ≠ none ∧ (s.coreAt 3).fallen = true ∧ (s.ctxAt 3 0).aside = none) ∧
    ((sample.coreAt 3).fallen = false ∧ (sample.ctxAt 3 0).st = .free) ∧
    (let s := sampleWith fun c => { c with sgl := c.sgl.set 0 0x0103000000006000 }
     s.cur.gydonMode = false ∧ (match s.fetch with | .error (.fault ..) => true | _ => false) = true) ∧
    (let s := (sampleWith fun c => { c with pc := 0x1000 }).modHere fun c => { c with tiles := c.tiles.set 4 { st := .filling, jobs := 1 } }
     (match s.fetch with | .error (.park ..) => true | _ => false) = true) ∧
    (let s : State := { (sampleWith fun c => { c with sgb := c.sgb.set 0 0x40000, sgl := c.sgl.set 0 0x0004000000006000 }).modPart 0 fun p =>
       { p with troot := 0x400000, wmask := p.wmask.map fun _ => 0xFFFF } with mem := mapped 7 }
     s.cur.gydonMode = false ∧ (match s.fetch with | .error (.held _) => true | _ => false) = true) := by decide +kernel

/-- SpecialRegisters: registers of a context and of the fault unit, bases and limits at the ends of their ranges, a STOPPED context, units below and above 6. -/
theorem test_hyp_SpecialRegisters : Ready sample [⟨3, true⟩] [] ∧ Ready sample [] [7] ∧ faultRegister .fpc = false ∧ faultRegister (.tscr 3) = true ∧
    sample.ctx ≠ 0 ∧ (leadWith).ctx = 0 ∧
    (∀ v ∈ [0x100, 0x220], let s := (limited 0x0107000000000120 0x100).modCur fun c => { c with g := c.g.set 3 (.ofNat 64 v) }
      s.cur.sgb[(1 : Fin 8)].toNat ≤ (s.g 3).toNat ∧ (s.g 3).toNat ≤ s.cur.sgb[(1 : Fin 8)].toNat + s.cur.sgl[(1 : Fin 8)].toNat % 2 ^ 48) ∧
    (∀ v ∈ [0xFF, 0x221], let s := (limited 0x0107000000000120 0x100).modCur fun c => { c with g := c.g.set 3 (.ofNat 64 v) }
      (s.g 3).toNat < s.cur.sgb[(1 : Fin 8)].toNat ∨ s.cur.sgb[(1 : Fin 8)].toNat + s.cur.sgl[(1 : Fin 8)].toNat % 2 ^ 48 < (s.g 3).toNat) ∧
    segKind 0x0101000000000120 = segKind (limited 0x0107000000000120 0).cur.sgl[(1 : Fin 8)] ∧ segKind 0x0207000000000120 ≠ segKind 0x0107000000000120 ∧
    (leadWith).here.tsel = (0 : Fin 16).val ∧ ((leadWith).ctxAt 3 0).st ≠ .stopped ∧
    (let s := (leadWith id { sleeper with st := .stopped }).modHere fun c => { c with tsel := 5 }
     s.here.tsel = (5 : Fin 16).val ∧ (s.ctxAt 3 5).st = .stopped ∧ (s.ctxAt 3 5).reaping = false ∧ (s.g 3).toNat % 2 = 1 ∧ (s.g 4).toNat % 2 = 0) ∧
    (5 : Fin 8).val < 6 ∧ 6 ≤ (6 : Fin 8).val ∧ ((parked (.sliceSum 7 true)).ctxAt 3 2).req = some (.sliceSum 7 true) ∧ Deliverable (parked (.sliceSum 7 true)) 3 2 7 := by
  and_intros <;> first | decide +kernel | exact ready_of (by decide +kernel) | exact deliverable_of (by decide +kernel)

/-- A queue descriptor with its ring at 0x31000, 4 entries. -/
def queueWord (head tail replay flags : Nat) : Nat := 0x31000 + 4 * 2 ^ 64 + head * 2 ^ 96 + tail * 2 ^ 128 + replay * 2 ^ 160 + flags * 2 ^ 200

/-- A packet of a type at 0x5FC0, the last place for one; queue 1 of the device in memory; g3 and g4 as given. -/
def lnchState (v q : W) (type : Nat) (d : Nat := queueWord 0 5 4 3) : State :=
  let s := sample.modPart 0 fun p => { p with troot := 0x400000, qtab := 0x30000, wmask := p.wmask.map fun _ => 0xFFFF }
  let s := s.modCur fun c => { c with g := (c.g.set 3 v).set 4 q, sgb := c.sgb.set 2 0x30000 }
  { s.padStore 3 0x5FC0 64 (type + 0x1122334455667788 * 2 ^ 200) with mem := Memory.store (mapped 7) 0x120040 64 d }

/-- What a read of queue 1's descriptor by the executing core's partition gives. -/
def devQueue (s : State) : Option QDesc :=
  match s.cpRead (s.partNo s.core) ((s.part (s.partNo s.core)).qtab + 64) 64 with | .ok m => queueOf m | .error _ => none

/-- DeviceLaunch, LNCH and RELNCH: a packet at the end of the scratchpad, a misaligned one, one beyond; types; queues; a full queue and one with room;
a release that is over and one that is not. -/
theorem test_hyp_DeviceLaunch_lnch : Ready (lnchState 0x5FC0 1 1) [⟨3, true⟩, ⟨4, false⟩] [7] ∧ (lnchState 0x5FC0 1 1).cur.req.isNone = true ∧
    TileOpen (lnchState 0x5FC0 1 1) 0x5FC0 ∧ ((lnchState 0x5FC0 1 1).g 3).toNat % 64 = 0 ∧ ((lnchState 0x5FC0 1 1).g 3).toNat + 64 ≤ 0x6000 ∧
    ((lnchState 0x5FC1 1 1).g 3).toNat % 64 ≠ 0 ∧ 0x6000 < ((lnchState 0x6000 1 1).g 3).toNat + 64 ∧
    (∀ t ∈ [1, 2, 3, 4, 5], (Memory.byte (lnchState 0x5FC0 1 t).here.pad 0x5FC0).toNat = t) ∧ ((lnchState 0x5FC0 1 1).g 4).toNat < 8 ∧
    8 ≤ ((lnchState 0x5FC0 8 1).g 4).toNat ∧
    (match devQueue (lnchState 0x5FC0 1 1) with | some k => k.en && k.dev && (k.tail + 2 ^ 32 - k.replay) % 2 ^ 32 != k.size | none => false) = true ∧
    (match devQueue (lnchState 0x5FC0 1 1 (queueWord 0 5 1 3)) with | some k => k.en && k.dev && (k.tail + 2 ^ 32 - k.replay) % 2 ^ 32 == k.size | none => false) = true ∧
    (match devQueue (lnchState 0x5FC0 1 1 (queueWord 0 5 1 1)) with | some k => k.dev | none => true) = false ∧
    (lnchState 0x5FC0 1 1).released 3 (lnchState 0x5FC0 1 1).here.sbSeq .part = true ∧
    (let s := (lnchState 0x5FC0 1 1).modHere fun c => { c with sb := [{ storeEntry with seq := 0 }], sbSeq := 1 }
     s.released 3 s.here.sbSeq .part = false) := by
  and_intros <;> first | decide +kernel | exact ready_of (by decide +kernel) | exact open_of (by decide +kernel)

/-- DeviceLaunch: a packet that waits for its release and can then be placed. -/
theorem test_hyp_DeviceLaunch_placed :
    (let l : List Byte := (List.range 64).map fun i => .ofNat 8 (i + 1)
     let s := (lnchState 0x5FC0 1 1).modCur fun c => { c with req := some (.enqueue 7 1 l) }
     s.cur.req = some (.enqueue 7 1 l) ∧ s.cur.bound 7 = false ∧
     (match s.cpStore 0 (0x30000 + 64 + 16) 4 6 none with
      | .ok t => (match t.cpStores 0 (0x31000 + 64 + 1) none (l.drop 1) with
        | .ok u => (match u.cpStores 0 (0x31000 + 64) none (l.take 1) with | .ok _ => true | .error _ => false) | .error _ => false)
      | .error _ => false) = true) := by decide +kernel

/-- A block of a traced relaunch. -/
def tracedState : State := ((lnchState 5 1 1).modCur fun c => { c with role := .block 1 4 }).modPart 0 fun p =>
  { p with launches := [(1, { sampleLaunch with trace := true, re := true, wave := 3 })] }

/-- DeviceLaunch, tracing: a span of no byte, one that ends at the segment's limit; a context that is no block. -/
theorem test_hyp_DeviceLaunch_trace : tracedState.cur.role = .block 1 4 ∧ (aget? (tracedState.partOf 3).launches 1).map (fun l => (l.trace, l.re, l.wave)) = some (true, true, 3) ∧
    Ready tracedState [⟨3, true⟩] [7] ∧ Ready tracedState [] [7] ∧
    GlobalAccess tracedState (Fin.ofNat 8 (2 : Reg).val) (tracedState.g 3) (0x800000000000 - 5) 1 [.r] 0x30005 ∧
    (tracedState.modCur fun c => { c with g := c.g.set 7 0 }).g 7 = 0 ∧ 0x30005 + (0x800000000000 - 5) ≤ 2 ^ 48 ∧
    (match sample.cur.role with | .block .. => true | _ => false) = false := by
  and_intros <;> first | decide +kernel | exact ready_of (by decide +kernel) | exact global_of (by decide +kernel)

/-- A handle of every right in slot 2; its gate. -/
def handleState (h : W) (v n w : W) : State := (lnchState v n 0).modCur fun c => { c with g := c.g.set 7 w, gth := c.gth.set 2 h }

/-- GateInstructions: a handle with every right, a free slot, one without the right; the least and the most that GTXFER takes; a span. -/
theorem test_hyp_GateInstructions : Ready (handleState 0xF600012300000007 0x1000 128 64) [⟨3, true⟩, ⟨4, false⟩] [7] ∧
    Ready (handleState 0xF600012300000007 0x1000 128 64) [⟨3, true⟩, ⟨4, false⟩, ⟨7, false⟩] [] ∧ Ready (handleState 0 0 0 0) [] [6, 7] ∧
    Ready (handleState 0xF600012300000007 0x1000 128 64) [⟨3, true⟩] [6, 7] ∧
    (handleState 0xF600012300000007 0x1000 128 64).cur.gth[(2 : Fin 4)].getLsbD 63 = true ∧
    (handleState 0xF600012300000007 0x1000 128 64).cur.gateAside = false ∧
    ((handleState 0xF600012300000007 0x1000 128 64).modCur fun c => { c with aside := some { req := some (.gateHeld 6 2 .poll), pc := 0, len := 4 } }).cur.gateAside = true ∧
    (∀ b ∈ [60, 61, 62], (handleState 0xF600012300000007 0x1000 128 64).cur.gth[(2 : Fin 4)].getLsbD b = true ∧
      (handleState 0x8600012300000007 0x1000 128 64).cur.gth[(2 : Fin 4)].getLsbD b = false) ∧
    (handleState 0xF600012300000007 0x1000 128 64).cur.gth[(0 : Fin 4)].getLsbD 63 = false ∧
    (∀ h : Fin 4, ((lnchState 0 0 0).modCur fun c => { c with gth := .replicate 4 0xF600012300000007 }).cur.gth[h].getLsbD 63 = true) ∧
    (handleState 0 0x1000 0 64).g 4 = 0 ∧ 65536 < ((handleState 0 0x1000 65537 64).g 4).toNat ∧ ((handleState 0 0x1000 65536 64).g 4).toNat % 64 = 0 ∧
    ((handleState 0 0x1001 64 64).g 3).toNat % 64 ≠ 0 ∧ segKind (handleState 0 0x1000 64 64).cur.sgl[(1 : Fin 8)] ≠ 0 ∧
    GlobalAccess (handleState 0xF600012300000007 0x1000 128 64) 2 ((handleState 0xF600012300000007 0x1000 128 64).g 3) 128 64 [.g, .r] 0x31000 ∧
    (match (Spec.read (handleState 0xF600012300000007 0x1000 128 64) [⟨3, true⟩, ⟨4, false⟩]).pagesOf { r := true } 0 0x31000 128 3 with
      | .ok _ => true | .error _ => false) = true := by
  and_intros <;> first | decide +kernel | exact ready_of (by decide +kernel) | exact global_of (by decide +kernel)

/-- Gate 0x123, whose entry 3 admits every compartment of partition 0. -/
def sampleGate (f : Gate → Gate := id) : Gate :=
  f { valid := true, seq := 9, value := 5, inst := 7, wbase := 0x500000, wlen := 65536
      acl := ((.replicate 8 {} : Vector Acl 8).set 3 { en := true, part := 0, comp := 255, rights := 7, pkg := 0, burst := 5, tokens := 2, rate := 3, free := false }) }

/-- An operation on its way to the gate. -/
def gateState (op : GateOp) (k : Gate) : State :=
  { (parked (.gateOut 6 2 op) fun c => { c with gth := c.gth.set 2 0xF600012300000007 }) with gates := [(0x123, k)] }

/-- A request on its way to its gate, decided. -/
theorem forGate_of {s : State} {w : Wait} {d : Reg} {h : Nat} {op : GateOp} {i : Nat}
    (n : i = match op with | .open _ n => n | _ => gateOf (s.ctxAt s.ev.g (ctxNo s.ev.x)).gth[Fin.ofNat 4 h])
    (f : let c := s.ctxAt s.ev.g (ctxNo s.ev.x)
      decide (c.st = .parked w ∧ c.req = some (.gateOut d h op) ∧ c.reaping = false ∧ c.aside = none ∧
        (c.prog.all fun p => s.released s.ev.g p.seq .part) = true) = true) : ForGate s w d h op i := by
  obtain ⟨a, b, c, o, e⟩ := of_decide_eq_true f
  exact ⟨a, b, .inr fun p k => by rw [k] at e; exact e, c, o, by cases op <;> exact n⟩

/-- A signal for a gate at which context 4 of core 5 waits for SEQ 10. -/
def wakingState : State :=
  (gateState (.sig false none) (sampleGate fun k => { k with queue := [(5, 4)] })).setCtxAt 5 4
    { sampleCtx with st := .parked .agent, step := 4, req := some (.gateHeld 6 2 (.wait 10)), gth := (.replicate 4 0 : Vector W 4).set 2 0xF600012300000007 }

/-- GateOperations: the signal brings SEQ to the waiting target. -/
theorem test_hyp_GateOperations_waiting : ForGate wakingState .agent 6 2 (.sig false none) 0x123 ∧ (wakingState.gate 0x123).fwd = none ∧
    (wakingState.gate 0x123).queue = [(5, (4 : Fin 16).val)] ∧
    (let u := (wakingState.ctxAt 5 4).gth[(Fin.ofNat 4 2 : Fin 4)]
     (wakingState.gate 0x123).inst = u.toNat % 2 ^ 32 ∧ (Fin.ofNat 8 (u.toNat / 2 ^ 57) : Fin 8) = 3) ∧
    Matches wakingState 3 2 (sampleGate).acl[(3 : Fin 8)] ∧ Matches wakingState 5 4 (sampleGate).acl[(3 : Fin 8)] ∧
    natBit (sampleGate).acl[(3 : Fin 8)].rights 0 = true ∧ natBit (sampleGate).acl[(3 : Fin 8)].rights 1 = true ∧
    1 ≤ (sampleGate).acl[(3 : Fin 8)].tokens ∧ (wakingState.ctxAt 5 4).req = some (.gateHeld 6 2 (.wait 10)) ∧ (wakingState.ctxAt 5 4).reaping = false ∧
    (wakingState.ctxAt 5 4).aside = none ∧ (10 : W).toNat ≤ (sampleGate).seq + 1 := by
  refine ⟨forGate_of (by decide +kernel) (by decide +kernel), ?_⟩
  unfold Matches
  decide +kernel

/-- GateOperations: a request for a gate that is on its way within the package; one that has gone to another package, whose answer may and may not come. -/
theorem test_hyp_GateOperations_moved :
    (let s : State := { gateState (.sig false none) { fwd := some (0, 9) } with gateMoves := [(9, sampleGate)] }
     ForGate s .agent 6 2 (.sig false none) 0x123 ∧ (s.gate 0x123).fwd = some (s.pkgnum, 9) ∧ (9, sampleGate) ∈ s.gateMoves) ∧
    (∀ st ∈ [LinkSt.active 3, .lock 3],
      let s : State := { gateState (.sig false none) { fwd := some (3, 9) } with links := (State.reset.links).set 2 { st := st, partner := some (3, 3) } }
      let t := s.modCtx 3 2 fun c => { c with req := some (.gateHeld 6 2 (.sig false none)) }
      (t.ctxAt 3 2).req = some (.gateHeld 6 2 (.sig false none)) ∧ t.linkOpen 3 (.gateOp 3 2) = decide (st = .active 3) ∧
        gateOf (t.ctxAt 3 2).gth[(Fin.ofNat 4 2 : Fin 4)] = 0x123) := by
  refine ⟨⟨forGate_of (by decide +kernel) (by decide +kernel), by decide +kernel, by decide +kernel⟩, by decide +kernel⟩

/-- GateOperations: a poll, a signal, GTOPEN of a gate number and of one beyond the last, and a signal for a gate that has moved to another
package. -/
theorem test_hyp_GateOperations_arrivals : AtGate (gateState .poll (sampleGate)) .agent 6 2 .poll 0x123 ∧
    AtGate (gateState (.sig false none) (sampleGate)) .agent 6 2 (.sig false none) 0x123 ∧
    AtGate (gateState (.open 7 0x123) (sampleGate)) .agent 6 2 (.open 7 0x123) 0x123 ∧
    AtGate (gateState (.open 1 4096) (sampleGate)) .agent 6 2 (.open 1 4096) 4096 ∧
    (let s := gateState (.sig false none) { fwd := some (3, 9) }
     ForGate s .agent 6 2 (.sig false none) 0x123 ∧ (s.gate 0x123).fwd = some (3, 9) ∧ (s.gate 0x123).held = false ∧ (s.gate 0x123).valid = false ∧ 3 ≠ s.pkgnum) := by
  and_intros <;> try apply AtGate.mk
  all_goals first | decide +kernel | (refine forGate_of ?_ ?_ <;> decide +kernel)

/-- GateOperations: a held gate; an entry that grants and ones that do not; a handle of another instance; SEQ at its end;
tokens enough and not; a wait that is over and one that is not; a window that ends with the transfer and one that does not. -/
theorem test_hyp_GateOperations_gate :
    ((gateState .poll (sampleGate fun k => { k with held := true })).gate 0x123).held = true ∧
    Matches (gateState .poll (sampleGate)) 3 2 (sampleGate).acl[(3 : Fin 8)] ∧ (sampleGate).acl[(3 : Fin 8)].rights &&& 7 = 7 ∧
    (∀ f : Fin 8, f < 3 → (sampleGate).acl[f].en = false) ∧ ((gateState .poll (sampleGate)).ctxAt 3 2).gth[(0 : Fin 4)].getLsbD 63 = false ∧
    (let v := ((gateState .poll (sampleGate)).ctxAt 3 2).gth[(Fin.ofNat 4 2 : Fin 4)]
     (sampleGate).inst = v.toNat % 2 ^ 32 ∧ (sampleGate fun k => { k with inst := 8 }).inst ≠ v.toNat % 2 ^ 32 ∧ Fin.ofNat 8 (v.toNat / 2 ^ 57) = (3 : Fin 8)) ∧
    (sampleGate fun k => { k with seq := 2 ^ 64 - 2 }).seq + 1 < 2 ^ 64 ∧ (sampleGate fun k => { k with seq := 2 ^ 64 - 1 }).seq + 1 = 2 ^ 64 ∧
    (8192 + 4095) / 4096 ≤ (sampleGate).acl[(3 : Fin 8)].tokens ∧ ¬((8256 + 4095) / 4096 ≤ (sampleGate).acl[(3 : Fin 8)].tokens) ∧
    (sampleGate).acl[(3 : Fin 8)].free = false ∧
    (9 : W).toNat ≤ (sampleGate).seq ∧ ¬((10 : W).toNat ≤ (sampleGate).seq) ∧ 65408 + 128 ≤ (sampleGate).wlen ∧ (sampleGate).wlen < 65472 + 128 := by
  unfold Matches
  decide +kernel

/-- GateLives, replies, transfers and refills. -/
theorem test_hyp_GateLives_cores :
    (∀ e ∈ [none, some []], let s := parked (.gateBack [(6, 1), (7, 2)] true none e)
      (s.coreAt 3).away = none ∧ (s.ctxAt 3 2).aside = none ∧ (s.ctxAt 3 2).later = false ∧ (s.ctxAt 3 2).req = some (.gateBack [(6, 1), (7, 2)] true none e) ∧
        ((saved s 3).coreAt 3).frozen = true ∧ delivers s 3 2 6 = true ∧ delivers (s.acquire 3 2 .part) 3 2 6 = true) ∧
    ((parked (.gateBack [(6, 1)] false (some (1, 99)) none)).ctxAt 3 2).req = some (.gateBack [(6, 1)] false (some ((1 : Fin 4).val, 99)) none) ∧
    (let s : State := { walking 7 (.gateCopy 0x123 0x30000 0 64 [3]) with gates := [(0x123, sampleGate)] }
     (s.ctxAt 3 2).req = some (.gateCopy 0x123 0x30000 0 64 [3]) ∧ (s.ctxAt 3 2).reaping = false ∧ (s.ctxAt 3 2).aside = none ∧ (s.ctxAt 3 2).later = false ∧ (s.coreAt 3).away = none ∧
     ((s.scrubPages 3 ([3].mapIdx fun k pa => ((0x30000 / 65536 + k) * 65536, pa))).map fun u => (u.copyAll 3 2 0x30000 0x500000 [3] (64 / 64) 0).2) = some none) ∧
    sample.cycle < 65536 * (sample.refills + 1) ∧
    (let s : State := { (parked (.gateHeld 6 2 (.sig false none)) fun c => { c with gth := c.gth.set 2 0xF600012300000007 }) with
       gates := [(0x123, sampleGate fun k => { k with queue := [(3, 2)] })], cycle := 65536 }
     65536 * (s.refills + 1) ≤ s.cycle ∧ (s.ctxAt 3 2).req = some (.gateHeld 6 2 (.sig false none)) ∧ (s.ctxAt 3 2).reaping = false ∧
     (s.ctxAt 3 2).aside = none ∧ (sampleGate).queue = []) := by decide +kernel

/-- The state when the next entry of the command ring, its last one, holds a code. -/
def turnOf (s : State) (code : Nat) : State := { s with ringPos := 511, cmdRing := Memory.store [] (128 * 511) 1 code }

/-- GateLives: the ring's turns; a frame that a gate takes, and one that it leaves as it is; an arrival over a link that is ACTIVE and one that is not. -/
theorem test_hyp_GateLives_ring : (∀ c ∈ [1, 2, 3, 4], Turn (turnOf sample c) c ∧ ¬Turn (turnOf sample (c + 1)) c) ∧
    (Owned (sampleGate) 0x50 ∧ ¬Owned {} 0x50 ∧ ¬Owned (sampleGate) 0x51 ∧
      aget? ({ sample with tags := [(0x50, { world := 255 })] } : State).tags 0x50 = some { world := 255 }) ∧
    (∀ st ∈ [LinkSt.active 1, .train 1], let s : State := { sample with ev := { x := 0x123, n := 1, p := 15 }, links := (State.reset.links).set 15 { st := st } }
      (s.links[(Fin.ofNat 16 s.ev.p : Fin 16)]).active = decide (st = .active 1) ∧ (s.gate 0x123).valid = false ∧ (s.gate 0x123).held = false) ∧
    (let s : State := { sample with gates := [(0x123, sampleGate fun k => { k with held := true, fwd := some (3, 7), queue := [(3, 2)] })] }
     (s.gate 0x123).fwd = some (3, 7) ∧ 3 ≠ s.pkgnum ∧ s.cores.all (fun c => c.2.ctxs.all fun k => k.aside.isNone && k.req.isNone) = true) := by
  unfold Turn Owned
  decide +kernel

/-- GateLives, the ring's commands: a gate that exists and one that does not, the last number and one beyond. -/
theorem test_hyp_GateLives_commands :
    (let s : State := { sample with ev := { x := 0x123, n := 0, v := 4095 }, gates := [(0x123, sampleGate)] }
     (s.gate 0x123).valid = true ∧ (s.gate 0x123).queue = [] ∧ (s.gate 0x124).valid = false ∧ (s.gate 4095).held = false ∧ s.ev.v < 4096) ∧
    (let s : State := { parked (.gateHeld 6 2 (.wait 20)) (fun c => { c with gth := c.gth.set 2 0xF600012300000007 }) with
       ev := { x := 0x123 }, gates := [(0x123, sampleGate fun k => { k with queue := [(3, 2)], held := true, fwd := some (0, 7) })] }
     (s.gate 0x123).queue = [(3, (2 : Fin 16).val)] ∧ (s.gate 0x123).fwd = some (s.pkgnum, 7) ∧ gateOf (s.ctxAt 3 2).gth[(Fin.ofNat 4 2 : Fin 4)] = 0x123 ∧ (s.ctxAt 3 2).aside = none ∧
       s.cores.all (fun c => c.2.ctxs.all fun k => match k.req with | some (.gateCopy ..) => false | _ => true) = true) ∧
    (let s : State := { sample with ev := { x := 0x123 }, gateMoves := [(0x123, sampleGate)] }
     (s.gate 0x123).valid = false ∧ (s.gate 0x123).held = false ∧ s.ev.n ≠ 1 ∧ s.ev.bytes = [] ∧ (s.gateMoves.find? fun m => m.1 == 0x123).isSome = true) := by
  decide +kernel

/-- Compartments 2, of a launch's key, and 3. -/
def trustState (v q : W) : State :=
  { lnchState v q 0 with
    worlds := [(0, { comps := ((.replicate 16 {} : Vector Comp 16).set 2 { made := true, entry := 5 }).set 3 { made := true } })] }

/-- Trust, the instructions: a nonce at the end of the scratchpad, misaligned, beyond; a span that can be translated; compartments. -/
theorem test_hyp_Trust_instructions : Ready (trustState 0x1000 0x5FC0) [⟨3, true⟩, ⟨4, false⟩] [7] ∧ ((trustState 0x1000 0x5FC0).g 4).toNat % 64 = 0 ∧
    ((trustState 0x1000 0x5FC0).g 4).toNat ≤ 0x5FC0 ∧ TileOpen (trustState 0x1000 0x5FC0) 0x5FC0 ∧ ((trustState 0 0x1001).g 4).toNat % 64 ≠ 0 ∧
    0x5FC0 < ((trustState 0 0x6000).g 4).toNat ∧ segKind (trustState 0 0).cur.sgl[(1 : Fin 8)] ≠ 0 ∧
    GlobalAccess (trustState 0x1000 0x5FC0) 2 ((trustState 0x1000 0x5FC0).g 3) 4864 64 [.w] 0x31000 ∧
    GlobalAccess (trustState 0x1000 0x5FC0) 2 ((trustState 0x1000 0x5FC0).g 3) 1216 64 [.r] 0x31000 ∧
    (match (Spec.read (trustState 0x1000 0x5FC0) [⟨3, true⟩, ⟨4, false⟩]).pagesOf { w := true } 1 0x31000 4864 3 with | .ok _ => true | .error _ => false) = true ∧
    (match (Spec.read (trustState 0x1000 0x5FC0) [⟨3, true⟩]).pagesOf { r := true } 0 0x31000 1216 3 with
      | .ok (l, t) => (match t.readSpan 0x31000 l 0x31000 152 with | .ok _ => true | .error _ => false) | .error _ => false) = true ∧
    15 < ((trustState 16 0).g 3).toNat ∧ ((trustState 2 0).compOf ((trustState 2 0).partOf 3) 2).made = true ∧ ((trustState 2 0).compOf ((trustState 2 0).partOf 3) 4).made = false ∧
    ((trustState 2 0).compOf ((trustState 2 0).partOf 3) 2).entry ≠ 0 ∧ ((trustState 3 0).compOf ((trustState 3 0).partOf 3) 3).entry = 0 ∧
    (∀ x : Fin 16, x ≠ 2 → ((trustState 3 0).ctxAt 3 x).st = .free) := by
  and_intros <;> first | decide +kernel | exact ready_of (by decide +kernel) | exact open_of (by decide +kernel) | exact global_of (by decide +kernel)

/-- The oldest evidence request, over a memory whose page has rights. -/
def evidenceState (rights : Nat) : State := (walking rights (.evidence 6 0x30000 [])).modPart 0 fun p => { p with evQ := [(3, 2)] }

/-- How the write of the record of evidence ends: made (1), refused (2), at a line that fails (3). -/
def evidenceEnds (s : State) : Nat :=
  match s.cpStores 0 0x30000 none (s.evidence 3 2 []) (s.ctxAt 3 2).comp with
  | .ok _ => 1
  | .error .refused => 2
  | .error (.bad _) => 3
  | .error _ => 0

/-- Trust, evidence: the oldest request, whose earlier writes are and are not performed; its record refused, and at a line that fails; a
request behind another, and one of a stopped core. -/
theorem test_hyp_Trust_evidence :
    (let s := evidenceState 7
     (s.ctxAt 3 2).st = .parked .agent ∧ (s.part 0).evQ.head? = some (3, (2 : Fin 16).val) ∧ (s.coreAt 3).frozen = false ∧ (s.ctxAt 3 2).prog = some {} ∧
       s.xReleased 3 {} 0x21 .core = true ∧ (s.modCore 3 fun c => { c with sb := [{ storeEntry with seq := 0 }], sbSeq := 1 }).xReleased 3 { seq := 1 } 0x21 .core = false) ∧
    ((walking 7 (.evidence 6 0x30000 [])).part 0).evQ = [] ∧ ((saved (evidenceState 7) 3).coreAt 3).frozen = true ∧
    evidenceEnds (evidenceState 3) = 2 ∧ evidenceEnds (retagged (evidenceState 7) 0x420000) = 3 := by decide +kernel

/-- Trust, the events: a blob of a wrong version; a rotation with a line left, with none, and with a frame that has left it; compartments 1, 15 and 16;
the ring's turns. -/
theorem test_hyp_Trust_events :
    (let s := walking 7 (.keyInst 6 (List.replicate 152 0))
     (s.ctxAt 3 2).req = some (.keyInst 6 (List.replicate 152 0)) ∧ (s.coreAt 3).away = none ∧ natBytes (ofBytes (List.replicate 152 0)) 0 4 ≠ 1) ∧
    (sample.compOf (sample.part 0) 3).kstate ≠ 2 ∧ sample.sweepLine 1 3 [] 0 = none ∧
    (({ sample with tags := [(7, { world := 1, comp := 3 })] } : State).sweepLine 1 3 [] 0) = some 7168 ∧
    (({ sample with tags := [(7, { world := 1, comp := 3 })] } : State).sweepLine 1 3 [7] 0) = none ∧
    ((sample.part 0).en = true ∧ 0 < 1 ∧ 1 ≤ 15 ∧ 15 < 16 ∧ (sample.compOf (sample.part 0) 1).made = false) ∧
    (∀ c ∈ [5, 6, 7], Turn (turnOf sample c) c ∧ ¬Turn (turnOf sample (c + 1)) c) := by
  unfold Turn
  decide +kernel

/-- A translation in context 15 of core 0, with an instruction word, registers and a request. -/
def gydonState (op : Nat) (k : Gydon) (f : Xlat → Xlat := id) (r : Option Req := none) : State :=
  let t : Xlat := f { l := 0, key := 5, xlen := 0, plen := 8, argl := 4, cap := 16, budget := 4096, vImage := 0x40
                      vIn := 0x30000, vArg := 0x30100, vScr := 0x30200, vOut := 0x32300, vMap := 0x32400, spans := [(0x33000, 64)] }
  let s := sample.modPart 0 fun p => { p with xlat := some t, troot := 0x400000, launches := [(0, { sampleLaunch with stage := .xlat })] }
  { s.setCtxAt 0 15 { st := if r.isSome then .parked .agent else .run, gydonMode := true, role := .translator 0, gyd := k, iword := .ofNat 32 op, req := r } with
    core := 0, ctx := 15, ev := { g := 0, x := 15 }, mem := mapped 7 }

/-- Registers, pc, meter and output length. -/
def gydonRegs (l : List Nat) (meter outLen : Nat) : Gydon := { b := .ofFn fun i => .ofNat 32 (l[i.val]?.getD 0), pc := 10, meter := meter, outLen := outLen }

/-- A translation's fields, as a Boolean. -/
def xlatIs (s : State) (f : Xlat → Bool) : Bool := match s.curPart.xlat with | some t => f t | none => false

/-- GydonRegisters: with 1 unit and with none, with 2 and with 1; an empty map, one whose last entry is of this index and of another. -/
theorem test_hyp_GydonRegisters :
    (∀ m ∈ [0, 1, 2], xlatIs (gydonState 0x2A4C (gydonRegs [7, 8, 0x80000005, 0xFFFFFFF3] m 4)) (fun t => t.omap.isEmpty) = true ∧
      (gydonState 0x2A4C (gydonRegs [7, 8, 0x80000005, 0xFFFFFFF3] m 4)).cur.gyd.meter = m) ∧
    xlatIs (gydonState 0xB040 (gydonRegs [7] 1 4) fun t => { t with omap := [(4, 9)] }) (fun t => mapWith t.omap 4 7 == some (0, [(4, 7)])) = true ∧
    xlatIs (gydonState 0xB040 (gydonRegs [7] 1 4) fun t => { t with omap := [(3, 9)] }) (fun t => mapWith t.omap 4 7 == some (1, [(4, 7), (3, 9)])) = true ∧
    mapWith (List.replicate 65536 (3, 9)) 4 7 = none ∧
    (let s := gydonState 0xB040 (gydonRegs [7] 1 4) fun t => { t with vMap := 0x40000 }
     s.cur.giveUp = none ∧ (match s.translate 0 0 0x40000 { r := false, w := true } with | (.absent, u) => !u.migrates (u.partNo 0) 0x40000 | _ => false) = true) := by
  decide +kernel

/-- GydonRegisters and GydonEvents: a write of the translation area that is made. -/
theorem test_hyp_GydonRegisters_writes : ∃ t, AreaWrites (gydonState 0xB040 (gydonRegs [7] 1 4)) 0 15 0x32400 8 (4 + 2 ^ 32 * 7) t := by
  have h : (match (gydonState 0xB040 (gydonRegs [7] 1 4)).translate 0 0 0x32400 { r := false, w := true } with
      | (.ok pa e, u) => (match u.readyScrub (u.partNo 0) e with | some w => w.lineLive (pa / 64) | none => false)
      | _ => false) = true := by decide +kernel
  rcases e : (gydonState 0xB040 (gydonRegs [7] 1 4)).translate 0 0 0x32400 { r := false, w := true } with ⟨x, u⟩
  rw [e] at h
  cases x with
  | ok pa l =>
    simp only at h
    rcases f : u.readyScrub (u.partNo 0) l with _ | w
    · rw [f] at h; cases h
    · rw [f] at h
      exact ⟨_, pa, l, u, w, ⟨by decide +kernel, e⟩, f, h, rfl⟩
  | prot => cases h
  | absent => cases h
  | bad => cases h

/-- GydonAccesses: the ends of the windows, and the first address beyond each check; notes whose branches land, leave OUT, and miss an instruction. -/
theorem test_hyp_GydonAccesses :
    (let s := gydonState 0 (gydonRegs [] 1 0)
     xlatIs s (fun t => ([(0x10000004, 4, false, none), (0x10000008, 1, false, some 3), (0x10000001, 2, false, some 6), (0x40001FFC, 4, true, none),
       (0x10000000, 4, true, some 3), (0, 1, false, some 3), (0x60000000, 1, false, some 3), (0x30000000, 1, false, some 3)] : List (Nat × Nat × Bool × Option Nat)).all
         fun e => windowCheck s t s.cur.gyd e.1 e.2.1 e.2.2.1 == e.2.2.2) = true) ∧
    (2 : Nat) ≤ (gydonState 0 (gydonRegs [] 2 0)).cur.gyd.meter := by decide +kernel

/-- GydonEvents: an access that returns, a page that is not present, one that was given up, DONE. -/
theorem test_hyp_GydonEvents :
    (let s := gydonState 0x5943 (gydonRegs [7, 8, 0x10000000] 5 0) id (some (.gydon (some 0x30003)))
     (s.ctxAt 0 15).st = .parked .agent ∧ decodeGydon 0x5943 = some .gydonLdb ∧ (s.ctxAt 0 15).req = some (.gydon (some 0x30003)) ∧ (s.ctxAt 0 15).giveUp = none ∧
       (match s.translate 0 0 0x30003 { r := true } with
        | (.ok pa e, u) => (match u.lineFor 0 pa e with | .words .. => true | _ => false)
        | _ => false) = true) ∧
    (let s := gydonState 0x5943 (gydonRegs [7, 8, 0x10000000] 5 0) id (some (.gydon (some 0x40003)))
     (match s.translate 0 0 0x40003 { r := true } with | (.absent, u) => !u.migrates (u.partNo 0) 0x40003 | _ => false) = true) ∧
    (((gydonState 0x5943 (gydonRegs [7] 5 0) id (some (.gydon (some 0x40003)))).modCtx 0 15 fun c => { c with giveUp := some 4 }).ctxAt 0 15).giveUp = some (0x40003 / 65536) ∧
    (let s := gydonState 0xB800 (gydonRegs [7] 4000 1) (fun t => { t with out := [5], notes := [(0, 1, 0, 0)] }) (some .gydonDone)
     (s.ctxAt 0 15).req = some .gydonDone ∧ xlatIs s (fun t => match s.cpStores 0 ((t.spans[0]?).getD (0, 0)).1 none (t.entryBlock 97) with | .ok _ => true | _ => false) = true) ∧
    (let s := gydonState 0xB800 (gydonRegs [7] 4000 1) (fun t => { t with spans := [(0x43000, 64)] }) (some .gydonDone)
     xlatIs s (fun t => match s.cpStores 0 ((t.spans[0]?).getD (0, 0)).1 none (t.entryBlock 97) with | .error (.absent v) => v == 0x43000 | _ => false) = true) := by
  decide +kernel

/-! ### Queues, launches and partitions -/

/-- Queue 1 of partition 0: 4 packets of 64 bytes at 0x31000, HEAD 4, TAIL 6, REPLAY 3, enabled and replayed; `packet` is at its head. -/
def queued (packet : Nat) (f : Part → Part := id) : State :=
  let s := sample.modPart 0 fun p => f { p with troot := 0x400000, qtab := 0x30000 }
  let d := 0x31000 + 4 * 2 ^ 64 + 4 * 2 ^ 96 + 6 * 2 ^ 128 + 3 * 2 ^ 160 + 3 * 2 ^ 200
  { s with ev := { p := 0, x := 1 }, mem := Memory.store (Memory.store (mapped 7) 0x120040 64 d) 0x121000 64 packet }

/-- Headed, decided. -/
theorem headed_of {s : State} {p q m : Nat} {d : QDesc}
    (h : (s.cpFree p && (match s.queue p q with | .ok e => e == some d | .error _ => false) && s.queueHas p q d
      && (match s.cpRead p (d.base + 64 * (d.head % d.size)) 64 with | .ok n => n == m | .error _ => false)) = true) : Headed s p q d m := by
  simp only [Bool.and_eq_true] at h
  obtain ⟨⟨⟨a, b⟩, c⟩, e⟩ := h
  refine ⟨a, ?_, c, ?_⟩
  · split at b
    · rename_i x hx; rw [hx]; simpa using b
    · cases b
  · split at e
    · rename_i x hx; rw [hx]; simpa using e
    · cases e

/-- A descriptor as `queued` writes it. -/
def queuedDesc : QDesc := { base := 0x31000, size := 4, head := 4, tail := 6, replay := 3, prio := 0, en := true, dev := true, report := 0 }

/-- QueuePackets: a launch packet that is invalid, and one that may not be taken while a launch is not admitted. -/
theorem test_hyp_QueuePackets_launch :
    Headed (queued 1) 0 1 queuedDesc 1 ∧ (queued 1).mayTake 0 1 1 = true ∧ (queued 1).nextQueue 0 = some 1 ∧
    (match (queued 1).readLaunch 0 1 4 1 with | .error (.invalid _) => true | _ => false) = true :=
  ⟨headed_of (by decide +kernel), by decide +kernel, by decide +kernel, by decide +kernel⟩

/-- A LAUNCH of one block in the sub-range of one cluster, its descriptor of zeros at 0x34000, its binary of a 2-byte image at 0x34100. -/
def launchPacket : Nat := 1 + 2 ^ 16 + 0x34100 * 2 ^ 64 + 2 ^ 320 + 0x34000 * 2 ^ 448

/-- A partition whose queue holds that packet, and the header of its binary. -/
def launchable (f : Part → Part := id) : State :=
  let s := queued launchPacket f
  { s with mem := Memory.store s.mem 0x124100 64 (0x424E524B + 2 ^ 32 + 64 * 2 ^ 64 + 2 * 2 ^ 96 + 2 ^ 192) }

/-- QueuePackets: a launch that is read, and one whose descriptor's page is absent. -/
theorem test_hyp_QueuePackets_read :
    Headed launchable 0 1 queuedDesc launchPacket ∧ launchable.mayTake 0 1 launchPacket = true ∧ launchable.nextQueue 0 = some 1 ∧
    (match launchable.readLaunch 0 1 4 launchPacket with | .ok l => l.quota == 1 && !l.gw && l.blocks == 1 | .error _ => false) = true ∧
    Headed (queued (launchPacket + 0x10000 * 2 ^ 448)) 0 1 queuedDesc (launchPacket + 0x10000 * 2 ^ 448) ∧
    (match (queued (launchPacket + 0x10000 * 2 ^ 448)).readLaunch 0 1 4 (launchPacket + 0x10000 * 2 ^ 448) with
      | .error (.absent va) => va == 0x44000 | _ => false) = true := by
  and_intros <;> first | decide +kernel | exact headed_of (by decide +kernel)

/-- QueuePackets: a launch that may not be taken yet. -/
theorem test_hyp_QueuePackets_held : Headed (queued 0x101 fun r => { r with launches := [(0, { sampleLaunch with stage := .run })] }) 0 1 queuedDesc 0x101 ∧
    (queued 0x101 fun r => { r with launches := [(0, { sampleLaunch with stage := .run })] }).mayTake 0 1 0x101 = false :=
  ⟨headed_of (by decide +kernel), by decide +kernel⟩

/-- A MARK packet and a WAITVAL packet at SCOPE 7, of VALUE 77 at 0x30100. -/
def markPacket (type : Nat) : Nat := type + 7 * 2 ^ 16 + 0x30100 * 2 ^ 64 + 77 * 2 ^ 128

/-- QueuePackets: a MARK at the head. -/
theorem test_hyp_QueuePackets_mark : Headed (queued (markPacket 3)) 0 1 queuedDesc (markPacket 3) ∧ (queued (markPacket 3)).nextQueue 0 = some 1 ∧
    markPacket 3 % 256 = 3 := ⟨headed_of (by decide +kernel), by decide +kernel, by decide⟩

/-- QueuePackets: a WAITVAL at the head. -/
theorem test_hyp_QueuePackets_wait : Headed (queued (markPacket 4)) 0 1 queuedDesc (markPacket 4) ∧ (queued (markPacket 4)).nextQueue 0 = some 1 ∧
    markPacket 4 % 256 = 4 := ⟨headed_of (by decide +kernel), by decide +kernel, by decide⟩

/-- QueuePackets: an invalid packet at the head. -/
theorem test_hyp_QueuePackets_invalid : Headed (queued 9) 0 1 queuedDesc 9 ∧ (queued 9).mayTake 0 1 9 = false :=
  ⟨headed_of (by decide +kernel), by decide +kernel⟩

/-- A queue that waits, with its partition changed. -/
def waiting (w : QWait) (f : Part → Part := id) : State := (queued 0).modPart 0 fun r => f { r with qwait := r.qwait.set 1 w }

/-- QueuePackets: a key that is cached, one that is new, one that an earlier launch translates. -/
theorem test_hyp_QueuePackets_lookup :
    (let s := queued 0 fun r => { r with launches := [(1, sampleLaunch), (0, { sampleLaunch with stage := .key })] }
     s.launchAt 0 1 = some sampleLaunch ∧ (s.part 0).xcache.all (fun e => e.key != sampleLaunch.key) = true ∧
       (s.part 0).launches.any (fun e => e.1 != 1 && e.2.key == sampleLaunch.key && decide (e.2.stage = .key)) = true) ∧
    (let s := queued 0 fun r => { r with launches := [(1, sampleLaunch)] }
     s.launchAt 0 1 = some sampleLaunch ∧ (s.part 0).launches.all (fun e => e.1 == 1) = true) := by decide +kernel

/-- QueuePackets: a MARK whose value can be written, one that waits for a launch, one whose release waits for the host's window. -/
theorem test_hyp_QueuePackets_markStore :
    (let s := waiting (.mark 4 7 0x30100 77 none)
     (s.part 0).qwait[Fin.ofNat 8 1] = .mark 4 7 0x30100 77 none ∧ s.cpFree 0 = true ∧ (s.part 0).launches = [] ∧
       s.markReleased 0 s.hioSeq (s.packetScope 0 7) = true) ∧
    (let s := waiting (.mark 4 7 0x30100 77 none) fun r => { r with launches := [(0, { sampleLaunch with stage := .run })] }
     s.cpFree 0 = true ∧ (s.part 0).launches.any (fun e => e.2.q == 1) = true) ∧
    (let s := { waiting (.mark 4 7 0x30100 77 none) with hioSeq := 3, hioQ := [{ port := 0, seq := 2, pa := 0x500000, bytes := [1], sys := true }] }
     s.cpFree 0 = true ∧ s.markReleased 0 s.hioSeq (s.packetScope 0 7) = false) := by decide +kernel

/-- QueuePackets: a WAITVAL whose condition holds, does not hold, and whose acquire waits. -/
theorem test_hyp_QueuePackets_waitval :
    (let s := waiting (.waitval 4 7 0 0x30100 0 none)
     (s.part 0).qwait[Fin.ofNat 8 1] = .waitval 4 7 0 0x30100 0 none ∧ s.cpFree 0 = true ∧
       (match s.cpRead 0 0x30100 8 with | .ok n => n == 0 && n != 1 | .error _ => false) = true ∧
       s.waitAcquired 0 (s.packetScope 0 7) (s.invSeq, s.hioSeq) = true) ∧
    (let s := { waiting (.waitval 4 8 0 0x30100 0 (some (0, 3))) (fun r => { r with guest := false }) with hioSeq := 3, hioQ := [{ port := 0, seq := 2, pa := 0x500000, bytes := [1], sys := true }] }
     s.cpFree 0 = true ∧ s.waitAcquired 0 (s.packetScope 0 8) (0, 3) = false) := by decide +kernel

/-- A partition with one launch. -/
def launching (l : Launch) (f : Part → Part := id) : State :=
  (queued 0).modPart 0 fun r => f { r with launches := [(1, l)], xarea := 0x40000, xcap := 100 }

/-- A launch at step 4. -/
def atStep4 (cap : Nat) : Launch := { sampleLaunch with stage := .key, step4 := some 0, cap := cap }

/-- What becomes of the working copies of the next translation: 1 written, 2 a page is absent, 3 refused, 4 no room. -/
def copiesOf (s : State) : Nat :=
  match (s.part 0).nextStep4 with
  | none => 0
  | some (x, l) => match (s.part 0).makeRoom l.workSizes ((s.part 0).xcache.length + 1) with
    | none => 4
    | some (r, spans) => match (s.setPart 0 r).putCopies 0 l (l.xlatAt x spans) with
      | .ok _ => 1
      | .error (.absent _) => 2
      | .error .refused => 3
      | .error _ => 0

/-- LaunchLives: a translation that waits for a page, one that may not write it, one without room; one whose context 15 is FREE. -/
theorem test_hyp_LaunchLives_translation :
    (let s := launching (atStep4 16)
     s.cpFree 0 = true ∧ (s.part 0).xlat = none ∧ (s.part 0).nextStep4 = some (1, atStep4 16) ∧ copiesOf s = 2 ∧
       copiesOf ({ s with mem := mapped 3 }.modPart 0 fun r => { r with xarea := 0x30000 }) = 3 ∧
       copiesOf (launching (atStep4 (2 ^ 24))) = 4) ∧
    (let t := (atStep4 16).xlatAt 1 []
     let s := launching (atStep4 16) fun r => { r with xlat := some t }
     s.cpFree 0 = true ∧ (s.part 0).xlat = some t ∧ t.started = false ∧ (s.ctxAt 0 15).st = .free ∧ (s.coreAt 0).frozen = false ∧
       (s.coreAt 0).halted = false) := by decide +kernel

/-- LaunchLives: an admission that fits, one that never will, one that waits; without a trace, with one to bind, with one to swap. -/
theorem test_hyp_LaunchLives_admission :
    (let s := launching sampleLaunch
     s.launchAt 0 1 = some sampleLaunch ∧ sampleLaunch.stage = .admission ∧ s.gated = false ∧ s.cpFree 0 = true ∧ s.overtakes sampleLaunch = false ∧
       sampleLaunch.cost.all (fun c => decide (s.sectorCharge c.1 + c.2 ≤ s.sectorLimit c.1)) = true ∧ sampleLaunch.trc = none ∧
       (match s.copyData 0 sampleLaunch with | .ok _ => true | .error _ => false) = true) ∧
    (let s := { launching sampleLaunch with esb := [(0, 0)] }
     sampleLaunch.cost.any (fun c => decide (s.sectorBudget c.1 < c.2 ∧ s.sectorCharge c.1 = 0)) = true) ∧
    (let s := launching sampleLaunch fun r => { r with launches := (2, { sampleLaunch with stage := .run, charge := [(0, 1024)] }) :: r.launches }
     s.launchAt 0 1 = some sampleLaunch ∧ s.overtakes sampleLaunch = false ∧
       sampleLaunch.cost.any (fun c => decide (s.sectorLimit c.1 < s.sectorCharge c.1 + c.2)) = true ∧
       sampleLaunch.cost.all (fun c => !decide (s.sectorBudget c.1 < c.2 ∧ s.sectorCharge c.1 = 0)) = true) ∧
    (let b : TBind := { gbase := 0x34000, glen := 0x2000, ranges := [(0x34000, 1)], area := 0x36000, nt := 1, pdig := 5 }
     let l := { sampleLaunch with trace := true, re := true, trc := some b }
     let s := launching l
     s.runsFull 0 (s.part 0).tsets[(0 : Fin 4)] l b = true ∧
       (let v := launching l fun r => { r with tsets := r.tsets.set 0 { valid := true, bound := true, lid := 7, blocks := 2, pdig := 5, nt := 1, gbase := 0x34000, glen := 0x2000, ranges := [(0x34000, 1)], area := 0x36000, frames := [(0x124, 0)] } }
        v.runsFull 0 (v.part 0).tsets[(0 : Fin 4)] l b = false)) := by decide +kernel

/-- Place, decided for the lowest context. -/
theorem place_of {s : State} {p x : Nat} {l : Launch} {g : Nat}
    (h : decide (8 * l.first ≤ g ∧ g < 8 * l.first + 8 * l.count ∧ s.eligible p x l g = true ∧ (s.ctxAt g 1).st = .free ∧ s.reserved15 g 1 = false ∧ s.hops = []) = true) :
    Place s p x l g 1 := by
  obtain ⟨a, b, c, d, e, n⟩ := of_decide_eq_true h
  exact ⟨⟨a, b⟩, c, ⟨by decide, d, e, by simp [n]⟩, fun z h1 h2 => absurd (Fin.ext (by simpa using h2)) h1⟩

/-- A launch that runs. -/
def running : Launch := { sampleLaunch with stage := .run, full := true }

/-- LaunchLives: a block's place on core 0, which is not prepared, swept, and then ready. -/
theorem test_hyp_LaunchLives_seed : Place (launching running) 0 1 running 0 1 ∧ (launching running).launchAt 0 1 = some running ∧
    (launching running).blocksOn 1 0 < running.quota ∧ (launching running).sweptFor 0 0 = true ∧ (launching running).copyJobs 0 = [] ∧
    (launching running).mxJobs 0 = [] ∧ running.next < running.blocks ∧ running.prepared = [] ∧ ((launching running).part 0).rst = false ∧
    ((launching running).readyCore 0 1 running 0).isSome = true := by
  and_intros <;> first | decide +kernel | exact place_of (by decide +kernel)

/-- LaunchLives: a core that is prepared; a launch whose quota every core meets. -/
theorem test_hyp_LaunchLives_prepared :
    (let l := { running with prepared := [0] }
     let s := (launching l).modCore 0 fun c => { c with launch := some 1, lwave := l.wave }
     0 ∈ l.prepared ∧ (s.coreAt 0).launch = some 1 ∧ (s.coreAt 0).lwave = l.wave ∧ (s.readyCore 0 1 l 0).isSome = true) ∧
    (∀ g y, Place (launching { running with quota := 0 }) 0 1 { running with quota := 0 } g y →
      ({ running with quota := 0 } : Launch).quota ≤ (launching { running with quota := 0 }).blocksOn 1 g) :=
  ⟨by decide +kernel, fun _ _ _ => Nat.zero_le _⟩

/-- LaunchLives: a gateway launch on the first gateway cluster of die 0, wherever that is. -/
theorem test_hyp_LaunchLives_gateway :
    let h := (Config.gatewayFirst 0).val
    let l := { running with gw := true, first := h }
    let s : State := State.reset.modPart 0 fun p => { p with en := true, len := 10240, launches := [(1, l)] }
    Place s 0 1 l (8 * h) 1 ∧ isGateway (8 * h / 8) = true := by
  intro h l s
  refine ⟨⟨⟨Nat.le_refl _, ?_⟩, ?_, ⟨by decide, rfl, rfl, ?_⟩, fun z h1 h2 => absurd (Fin.ext (by simpa using h2)) h1⟩, ?_⟩
  · show 8 * h < 8 * h + 8 * 1
    omega
  · have hc : ∀ k, s.coreAt k = {} := fun _ => rfl
    have hj : s.copyJobs (8 * h) = [] ∧ s.mxJobs (8 * h) = [] := ⟨rfl, rfl⟩
    have hb : s.heldByOther 0 1 (8 * h) = false := by
      unfold State.heldByOther; rw [hc]; decide +kernel
    have hm : (s.partOf (8 * h)).mig = false := by
      have : ∀ q : Fin 16, s.parts[q].mig = false := by decide +kernel
      unfold State.partOf
      split
      · exact this _
      · rfl
    have hs : s.sourceCore (8 * h) = none := by
      unfold State.sourceCore; simp [hm]
    unfold State.eligible; rw [hb, hc, hj.1, hj.2, hs]; simp; decide +kernel
  · exact fun e he => nomatch he
  · have hh : h < 10240 := (Config.gatewayFirst 0).isLt
    simp [isGateway, dieOfCluster, Nat.div_eq_of_lt hh, Nat.mod_eq_of_lt hh, h]

/-- LaunchLives: a launch that is not quiet, one that is; waves that end with nothing selected and with a block selected. -/
theorem test_hyp_LaunchLives_ends :
    (launching running).launchQuiet 0 1 running = false ∧ ((launching running).part 0).rst = false ∧
    (let l := { running with next := 2 }; (launching l).launchQuiet 0 1 l = true) ∧
    (let l := { running with next := 1, re := true, select := some [1] }
     let s := launching l fun r => { r with tsets := r.tsets.set 0 { valid := true, bound := true, area := 0x50000, nt := 1 } }
     s.launchAt 0 1 = some l ∧ s.launchQuiet 0 1 l = true ∧ l.final = false ∧
       (List.range l.blocks).filter (s.selectNext 0 (s.part 0).tsets[(Fin.ofNat 4 l.tset : Fin 4)] l.wset) = []) ∧
    (let l := { running with blocks := 1, next := 1, re := true, select := some [0], wset := [(0, 7)] }
     let t : TSet := { valid := true, bound := true, area := 0x34000, nt := 1 }
     let s := launching l fun r => { r with tsets := r.tsets.set 0 t }
     let s := { s with mem := Memory.store s.mem (t.recordAt 0 - 0x30000 + 0x120008) 16 (1 + 2 ^ 96) }
     (List.range l.blocks).filter (s.selectNext 0 (s.part 0).tsets[(Fin.ofNat 4 l.tset : Fin 4)] l.wset) = [0]) := by decide +kernel

/-! ### Partitions, pages, firmware, links and steps -/

/-- Partition 0 with the page table of `mapped` and queue 1 enabled, and an event. -/
def owned (ev : Ev) (f : Part → Part := id) : State := { queued 0 f with ev := ev }

/-- PartitionLives: a partition that is disabled, one that is enabled; a launch that makes no progress for 2^20 cycles, and one cycle less. -/
theorem test_hyp_PartitionLives_ends :
    ((owned {} fun r => { r with en := false }).part 0).en = false ∧ ((owned {}).part 0).en = true ∧
    (let s := { owned {} fun r => { r with wdog := 20, launches := [(0, { sampleLaunch with stage := .run })] } with cycle := 2 ^ 20 }
     (s.part 0).wdog ≠ 0 ∧ (s.part 0).launches.any (fun l => decide (l.2.stage = .run)) = true ∧
       (s.part 0).progress + 2 ^ (s.part 0).wdog ≤ s.cycle ∧ 2 ^ 20 - 1 < (s.part 0).progress + 2 ^ (s.part 0).wdog) ∧
    ((owned {} fun r => { r with wdog := 20, launches := [(0, { sampleLaunch with stage := .done, wave := 1 })] }).part 0).launches.any
      (fun l => decide (l.2.stage = .done ∧ l.2.wave ≠ 0)) = true := by decide +kernel

/-- PartitionLives: the four errors of an enable, in their order, and an enable without one. -/
theorem test_hyp_PartitionLives_enable :
    ((owned {} fun r => { r with en := false, len := 0 }).part 0).len = 0 ∧
    (let r := (owned {} fun r => { r with en := false, base := 81917 }).part 0; r.len ≠ 0 ∧ 81920 < r.base + r.len) ∧
    (let s := (owned { p := 1 }).modPart 1 fun r => { r with base := 3, len := 1 }
     (s.part 1).en = false ∧ (s.part 1).base + (s.part 1).len ≤ 81920 ∧ (s.part 0).en = true ∧
       (s.part 1).base < (s.part 0).base + (s.part 0).len ∧ (s.part 0).base < (s.part 1).base + (s.part 1).len) ∧
    (let s := (owned { p := 1 }).modPart 1 fun r => { r with base := 4, len := 1, troot := 1 }
     (s.part 1).troot % 65536 ≠ 0 ∧ ¬(s.part 1).base < (s.part 0).base + (s.part 0).len) ∧
    (let s := owned {} fun r => { r with en := false }
     (s.part 0).len ≠ 0 ∧ (s.part 0).base + (s.part 0).len ≤ 81920 ∧ (s.part 0).troot % 65536 = 0 ∧
       ∀ q : Fin 16, q.val ≠ 0 → s.parts[q].en = false) := by decide +kernel

/-- PartitionLives: registers at the ends of the window of partition 15, ESB of the last sector. -/
theorem test_hyp_PartitionLives_registers : (15 : Nat) < 16 ∧ (owned { x := 256 * 15 + 0xD8 }).ev.x = 256 * 15 + 0xD8 ∧
    ((owned {}).part 15).en = false ∧ ((owned {}).part 0).shoot.getLsbD 63 = false ∧ ((owned {}).part 0).drop.getLsbD 63 = false ∧
    319 < 320 ∧ (owned { x := 0x2000 + 8 * 319 }).ev.x = 0x2000 + 8 * 319 ∧ (owned { x := 0x3000, v := 2 ^ 32 + 9 }).ev.v.testBit 32 = true ∧
    (owned { x := 0x3000, v := 9 }).ev.v.testBit 32 = false ∧ 8191 < 8192 ∧ (owned { x := 0x10000 + 8 * 8191 }).ev.x = 0x1FFF8 ∧
    (owned { p := 0x11, x := 0x9FFF8 }).ev.p % 16 = 1 := by decide +kernel

/-- PartitionLives: an uncorrectable error met by a core whose leaf has earlier messages, and by one whose leaf has none. -/
theorem test_hyp_PartitionLives_error :
    (let s := (owned { g := 3, v := 0x30000 }).modCluster 0 fun c => { c with up := { permits := 3, sent := [.other 1] } }
     (s.part 0).en = true ∧ (s.clusterAt (s.ev.g / 8)).up.sent ≠ [] ∧ (s.clusterAt (s.ev.g / 8)).up.wait = []) ∧
    ((owned { g := 3 }).clusterAt 0).up.sent = [] ∧ ((owned { g := 3 }).clusterAt 0).up.wait = [] := by decide +kernel

/-- PageEvents: PSHOOT while none is pending, while one is; a pending one with an access in flight, and without. -/
theorem test_hyp_PageEvents_shoot :
    ((owned { v := 2 ^ 63 + 0x30000 }).part 0).shoot.getLsbD 63 = false ∧ ((owned {}).part 0).en = true ∧
    (let s := owned {} fun r => { r with shoot := 0x8000000000030000 }
     (s.part 0).shoot.getLsbD 63 = true ∧ s.shotInFlight 0 (s.part 0).shoot = false) ∧
    (let s := (owned {} fun r => { r with shoot := 0xC000000000000000 }).modCtx 3 2 fun c =>
        { c with st := .parked .agent, req := some (.gydon (some 0x30003)) }
     s.shotInFlight 0 (s.part 0).shoot = true) := by decide +kernel

/-- A frame whose clear is at a line. -/
def scrubAt (pos : Nat) : Scrub := { frame := 0x120000, size := 65536, cleared := [], pos := pos, leaf := 0x430018, part := 0, vpage := 3 }

/-- PageEvents: a leaf that is UNSCR and one that is not; a frame with no clear, a clear at its first line and one at its last. -/
theorem test_hyp_PageEvents_scrub :
    (match (owned { v := 0x30000 }).walk 0 0x30000 with | .leaf e => !e.unscr | _ => false) = true ∧
    (match ({ owned { v := 0x30000 } with mem := mapped (7 + 2 ^ 63) } : State).walk 0 0x30000 with | .leaf e => e.unscr | _ => false) = true ∧
    (owned { v := 0x120000 }).scrubOf 0x120000 = none ∧
    (let s := { owned { v := 0x120000 } with scrubs := [scrubAt 0] }
     s.scrubOf s.ev.v = some (scrubAt 0) ∧ (scrubAt 0).nextLine 1025 0 = some 0 ∧ (scrubAt 1).nextLine 1025 1 = some 1) ∧
    (let s := { owned { v := 0x120000 } with scrubs := [scrubAt 1023] }
     s.scrubOf s.ev.v = some (scrubAt 1023) ∧ (scrubAt 1023).nextLine 1025 1023 = some 1023 ∧ (scrubAt 1024).nextLine 1025 1024 = none ∧
       (scrubAt 0).shooting = false ∧ s.scrubRoom 0x120000 = true) ∧
    (let k : Scrub := { scrubAt 1024 with shooting := true }
     let s := { owned { v := 0x120000 } with scrubs := [k] }
     s.scrubOf s.ev.v = some k ∧ s.shotInFlight 0 k.shootWord = false ∧
       (s.modCtx 3 2 fun c => { c with st := .parked .agent, req := some (.gydon (some 0x30003)) }).shotInFlight 0 k.shootWord = true) := by
  decide +kernel

/-- What a pull of the source's page for partition 1 gives: refused for want of a frame (1), an error (2), the page in place (3). -/
def landing (s : State) : Nat :=
  match s.walk 0 0x30040 with
  | .leaf e => match s.landAll 1 (65536 * e.vpage) e.pa 6 1 with | .error none => 1 | .error (some _) => 2 | .ok _ => 3
  | _ => 0

/-- Partition 1 migrates from partition 0 of the same package. -/
def pulling (s : State) : State := s.modPart 1 fun r => { r with en := true, base := 4, len := 1, mig := true, troot := 0x600000 }

/-- Partition 0 migrates from a package, whose link stands as `l`. -/
def abroad (n : Nat) (pulls : List Nat) (l : Link) : State :=
  { owned { v := 0x50000, n := n } fun r => { r with mig := true, pmsrc := 0x0100, pulls := pulls } with links := (owned {}).links.set 2 l }

/-- A link to package 1 that carries traffic, with messages that wait. -/
def open1 (out : List LinkMsg) : Link := { st := .active 3, partner := some (3, 1), out := out }

/-- PageEvents: a page that is there; one that does not migrate, one that is pulled from another package, one from partition 0 without a free
frame, and one whose source has a line that fails. -/
theorem test_hyp_PageEvents_pull :
    (match (owned {}).walk 0 0x30000 with | .leaf _ => true | _ => false) = true ∧
    (match (owned {}).walk 0 0x50000 with | .absent => true | _ => false) = true ∧ (owned {}).migrates 0 0x50000 = false ∧
    (let s := owned {} fun r => { r with mig := true, pmsrc := 0x0100 }
     (match s.walk 0 0x50000 with | .absent => true | _ => false) = true ∧ (s.part 0).mig = true ∧ (s.part 0).pmsrc.toNat / 2 ^ 8 % 256 ≠ s.pkgnum) ∧
    (let s := pulling (owned { p := 1, v := 0x30040 })
     (match s.walk 1 0x30040 with | .absent => true | _ => false) = true ∧ (s.part 1).mig = true ∧
       (s.part 1).pmsrc.toNat / 2 ^ 8 % 256 = s.pkgnum ∧ (s.part 1).pmsrc.toNat % 16 = 0 ∧ s.migrates 1 0x30040 = true ∧
       (match s.walk 0 0x30040 with | .leaf e => !e.big && (s.readyScrub 0 e).isSome | _ => false) = true ∧ landing s = 1) ∧
    landing (retagged (pulling (owned { p := 1, v := 0x30040 })) 0x120000) = 2 ∧
    (match (retagged (owned {}) 0x430000).walk 0 0x30000 with | .bad _ => true | _ => false) = true := by
  decide +kernel

/-- PageEvents: pulls from another package: not asked, asked while the request waits at this end or its link is down, and with a link that is open;
the answers; a pull by another package over a link that carries traffic, and over one that does not. -/
theorem test_hyp_PageEvents_abroad :
    (let s := abroad 3 [] (open1 [])
     (match s.walk 0 0x50000 with | .absent => true | _ => false) = true ∧ s.migrates 0 0x50000 = true ∧ 5 ∉ (s.part 0).pulls) ∧
    (abroad 3 [5] (open1 [.pull 0 5])).linkOpen 1 (.pull 0 5) = false ∧ (abroad 3 [5] { open1 [] with st := .train 2 }).linkOpen 1 (.pull 0 5) = false ∧
    (let s := abroad 3 [5] (open1 [.pull 0 6])
     s.linkOpen 1 (.pull 0 5) = true ∧ 5 ∈ (s.part 0).pulls ∧ s.ev.n ≠ 8 ∧ s.ev.n ≠ 9 ∧
       (match (s.modPart 0 fun r => { r with pulls := [] }).landPage 0 0x50000 6 [] with | .error none => true | _ => false) = true) ∧
    (abroad 8 [5] (open1 [])).ev.n = 8 ∧
    (let s := { owned { v := 0x30000, n := 9, x := 2 } with links := (owned {}).links.set 2 (open1 []) }
     (s.link s.ev.x).active = true ∧ (s.part 0).en = true ∧ (match s.walk 0 0x30000 with | .leaf e => (s.readyScrub 0 e).isSome | _ => false) = true) ∧
    (let s := { retagged (owned { v := 0x30000, n := 9, x := 2 }) 0x120000 with links := (owned {}).links.set 2 (open1 []) }
     (match s.walk 0 0x30000 with
       | .leaf e => match s.sendPages 2 e.vpage e.pa 1 with | .error _ => true | .ok _ => false
       | _ => false) = true) ∧
    ((owned { n := 9, x := 3 }).link 3).active = false := by decide +kernel

/-- PageEvents: SZLOG at both ends and beyond them; CONS at PROD − SIZE and one below; a doorbell of an outstanding token, for both of its actions,
and of another. -/
theorem test_hyp_PageEvents_rings :
    (∀ v ∈ [2 ^ 63 + 6, 2 ^ 63 + 16], Nat.testBit v 63 = true ∧ 6 ≤ v % 2 ^ 5 ∧ v % 2 ^ 5 ≤ 16) ∧
    (∀ v ∈ [2 ^ 63 + 5, 2 ^ 63 + 17], Nat.testBit v 63 = true ∧ ¬(6 ≤ v % 2 ^ 5 ∧ v % 2 ^ 5 ≤ 16)) ∧
    ¬2 ^ 6 < (70 + 2 ^ 32 - 6) % 2 ^ 32 ∧ 2 ^ 6 < (70 + 2 ^ 32 - 5) % 2 ^ 32 ∧ (0 : Fin 64).val = 0 ∧ (63 : Fin 64).val = 63 ∧
    (let s := (owned { v := 9 }).modCluster 0 fun c => { c with pfaults := [{ token := 9, part := 0, vpage := 3 }] }
     s.clusters.any (fun h => h.2.pfaults.any fun f => f.token == 9) = true ∧ s.clusters.all (fun h => h.2.pfaults.all fun f => f.token != 7) = true ∧
       (∀ p : Fin 16, s.parts[p].cpToken = none) ∧ s.ev.v % 2 ^ 32 = 9 ∧ s.ev.v.testBit 32 = false ∧
       (owned { v := 2 ^ 32 + 9 }).ev.v % 2 ^ 32 = 9 ∧ (owned { v := 2 ^ 32 + 9 }).ev.v.testBit 32 = true) := by decide +kernel

/-- A marker of a SEQ and a SLOT with the check word 0. -/
def markerBase (seq slot : Nat) : Nat := 0x4B534C54 + seq * 2 ^ 32 + slot * 2 ^ 64

/-- A marker with the check word of its first 28 bytes (R447). -/
def marker (seq slot : Nat) : Nat := markerBase seq slot + (crc32 (toBytes 28 (markerBase seq slot))).toNat * 2 ^ 224

/-- FirmwareEvents: markers of which the second has the higher SEQ, and a copy that is no marker. -/
theorem test_hyp_FirmwareEvents_markers : Marker (marker 6 0) 6 0 ∧ Marker (marker 7 1) 7 1 ∧ Nat.max 6 7 + 1 < 2 ^ 32 ∧
    0 % 2 ^ 32 ≠ 0x4B534C54 := by unfold Marker; decide +kernel

/-- No marker stands in a copy of zeros. -/
theorem not_marker_zero (a i : Nat) : ¬Marker 0 a i := fun h => absurd h.1 (by decide)

/-- FirmwareEvents: no copy is valid: slot A is chosen. -/
theorem test_hyp_FirmwareEvents_none : Chosen 0 0 0 :=
  ⟨fun _ _ _ _ h => absurd h (not_marker_zero _ _), fun _ _ h => absurd h (not_marker_zero _ _), fun _ _ _ h => absurd h (not_marker_zero _ _),
    fun _ _ => rfl⟩

/-- FirmwareEvents: copy 0 alone is valid. -/
theorem test_hyp_FirmwareEvents_one : Chosen (marker 6 0) 0 0 := by
  have e0 : marker 6 0 / 2 ^ 64 % 2 ^ 8 = 0 := by decide +kernel
  have w0 : Marker (marker 6 0) 6 0 := test_hyp_FirmwareEvents_markers.1
  refine ⟨fun _ _ _ _ _ h => absurd h (not_marker_zero _ _), fun a i h _ => ?_, fun b j h _ => absurd w0 (h 6 0), fun h _ => absurd w0 (h 6 0)⟩
  rw [h.2.2.1, e0]

/-- FirmwareEvents: the slot chosen by two markers, of which the second is later. -/
theorem test_hyp_FirmwareEvents_chosen : Chosen (marker 6 0) (marker 7 1) 1 := by
  have e0 : marker 6 0 % 2 ^ 32 = 0x4B534C54 ∧ marker 6 0 / 2 ^ 32 % 2 ^ 32 = 6 ∧ marker 6 0 / 2 ^ 64 % 2 ^ 8 = 0 := by decide +kernel
  have e1 : marker 7 1 / 2 ^ 32 % 2 ^ 32 = 7 ∧ marker 7 1 / 2 ^ 64 % 2 ^ 8 = 1 := by decide +kernel
  have w0 : Marker (marker 6 0) 6 0 := test_hyp_FirmwareEvents_markers.1
  have w1 : Marker (marker 7 1) 7 1 := test_hyp_FirmwareEvents_markers.2.1
  refine ⟨?_, fun a i _ h => absurd w1 (h 7 1), fun b j h _ => absurd w0 (h 6 0), fun h _ => absurd w0 (h 6 0)⟩
  intro a b i j h0 h1
  have ha := h0.2.1; have hb := h1.2.1; have hj := h1.2.2.1
  rw [e0.2.1] at ha; rw [e1.1] at hb; rw [e1.2] at hj
  subst ha hb hj
  rfl

/-- FirmwareEvents: links with a permit and none, with a message out and none, with one that waits and none; good and bad slots. -/
theorem test_hyp_FirmwareEvents_links :
    ((owned { g := 1 }).clusterAt 1).up.sent = [] ∧
    (let l : CmdLink := { permits := 2, sent := [.record 0 [5], .other 2] }
     ((owned { g := 1 }).setCluster 1 { up := l }).clusterAt 1 = { up := l } ∧ l.sent = .record 0 [5] :: [.other 2] ∧ l.wait = []) ∧
    (let l : CmdLink := { permits := 0, sent := [.ended 0 1 2, .other 2], wait := [.other 3, .other 4] }
     l.sent = .ended 0 1 2 :: [.other 2] ∧ l.wait = .other 3 :: [.other 4]) ∧
    (let s := { owned { n := 1 } with slotA := { good := true }, slotB := { good := false } }; s.slotA.good = true ∧ s.slotB.good = false) ∧
    (let s := { owned { n := 2, v := 0x1234 } with updated := some 1, slotB := { good := true } }
     1 < s.ev.n ∧ s.updated = some 1 ∧ s.slotB.good = true ∧ s.ev.v % 2 ^ 32 ≠ 0x4B534C54) ∧
    (owned { n := 3, v := marker 8 1 }).ev.v = marker 8 1 ∧ (owned {}).updated = none := by
  decide +kernel

/-- LinkEvents: generation 6 and above, a width between two powers; each state of a link; the 128th good flit, the 16th and 17th replay. -/
theorem test_hyp_LinkEvents_links : (7 : Nat) < 8 ∧ 3 ≤ 7 ∧ 8 ∈ [16, 8, 4, 2, 1] ∧ 8 ≤ 12 ∧ 12 < 2 * 8 ∧ (15 : Nat) < 16 ∧
    (∀ st ∈ [LinkSt.detect, .probe, .train 2, .retrain 2, .lock 2, .active 2],
      let s : State := { owned { p := 15, n := 1 } with links := (owned {}).links.set 15 { st := st, good := 127 } }
      s.links[(Fin.ofNat 16 s.ev.p : Fin 16)] = { st := st, good := 127 }) ∧
    (let s : State := { owned { n := 1 } with links := (owned {}).links.set 0 { st := .train 2, since := 5 }, cycle := 1000006 }
     (s.links[(0 : Fin 16)]).since + 1000000 < s.cycle ∧ ({ s with cycle := 1000005 } : State).cycle ≤ (s.links[(0 : Fin 16)]).since + 1000000) ∧
    (let s := abroad 2 [] (open1 [.pull 0 5]); s.links[(2 : Fin 16)] = open1 [.pull 0 5] ∧ s.ev.n = 2 ∧ s.linkTo 1 = 2) ∧
    ((100 :: (List.replicate 15 90).filter fun c => decide (100 - c < 1000000)).length ≤ 16) ∧
    (16 < (100 :: (List.replicate 16 90).filter fun c => decide (100 - c < 1000000)).length) := by decide +kernel

/-- LinkEvents: a cold package, one sector past the package limit, a gated package whose sectors are below the threshold, and a sector at the
threshold, which is hot and which is not. -/
theorem test_hyp_LinkEvents_heat :
    (let s := owned {}; (∀ k, k < 320 → ¬s.therm + 15 < (s.ev.bytes[k]?.getD 0).toNat) ∧ s.gated = false) ∧
    (let s := owned { bytes := [111] }; 0 < 320 ∧ s.therm + 15 < (s.ev.bytes[0]?.getD 0).toNat) ∧
    (let s := { owned {} with gated := true }; s.gated = true ∧ ∀ k, k < 320 → (s.ev.bytes[k]?.getD 0).toNat < s.therm) ∧
    (let s := { owned { bytes := [95, 95] } with hot := [1] }
     (s.ev.bytes[0]?.getD 0).toNat = s.therm ∧ 0 ∉ s.hot ∧ (s.ev.bytes[1]?.getD 0).toNat = s.therm ∧ 1 ∈ s.hot) := by
  refine ⟨⟨fun k _ => ?_, by decide +kernel⟩, by decide +kernel, ⟨by decide +kernel, fun k _ => ?_⟩, by decide +kernel⟩
  · show ¬(95 + 15 < (([] : List Byte)[k]?.getD 0).toNat)
    simp
  · show (([] : List Byte)[k]?.getD 0).toNat < 95
    simp

/-- Issues, decided. -/
theorem issues_of {s : State} {x : Fin 16}
    (h : (s.agenda.isEmpty && s.booted.isSome && (s.enterHandler s.core).pick s.core == some x
      && ((s.enterHandler s.core).startIssue s.core x).cur.token.isNone) = true) :
    Issues s x ((s.enterHandler s.core).startIssue s.core x) := by
  simp only [Bool.and_eq_true, beq_iff_eq, List.isEmpty_iff, Option.isNone_iff_eq_none] at h
  obtain ⟨⟨⟨a, b⟩, c⟩, d⟩ := h
  exact ⟨a, fun h => by simp [h] at b, c, rfl, d⟩

/-- What context 0 of core 0 fetches. -/
def fetched (s : State) : Option (Nat × Nat) :=
  match ((s.enterHandler s.core).startIssue s.core 0).fetch with | .ok (w, n, _) => some (w, n) | .error _ => none

/-- StepRunsDecoded: a word, a halfword, a word and a halfword that do not decode, and a pc beyond its segment. -/
theorem test_hyp_StepRunsDecoded_native :
    Issues (machine.withFetchWord 32 0x00020983) 0 (((machine.withFetchWord 32 0x00020983).enterHandler 0).startIssue 0 0) ∧
    fetched (machine.withFetchWord 32 0x00020983) = some (0x00020983, 4) ∧
    ((decode (.word 0x00020983)).all fun i => i.wf) = true ∧
    fetched (machine.withFetchWord 16 0) = some (0, 2) ∧ ((decode (.half 0)).all fun i => i.wf) = true ∧
    fetched (machine.withFetchWord 32 0xFFFFFFFF) = some (0xFFFFFFFF, 4) ∧ ((decode (.word 0xFFFFFFFF)).all fun i => !i.wf) = true ∧
    fetched (machine.withFetchWord 16 32) = some (32, 2) ∧ ((decode (.half 32)).all fun i => !i.wf) = true ∧
    fetched (machine fun c => { c with sgl := .replicate 8 0 }) = none := by
  and_intros <;> first | decide +kernel | exact issues_of (by decide +kernel)

/-- StepRunsDecoded: a fetch from the scratchpad; a member that takes its leader's word. -/
theorem test_hyp_StepRunsDecoded_pad :
    let v := ((machine.withFetchWord 32 0x00020983).enterHandler 0).startIssue 0 0
    let at' := fun (n : W) => match segCheck v.cur.sgb[(0 : Fin 8)] v.cur.sgl[(0 : Fin 8)] (v.cur.pc + n) 2 2 [.x] with
      | .ok (l, a) => l && a == (v.cur.sgb[(0 : Fin 8)] + (v.cur.pc + n)).toNat && (match v.tileGate a with | .ok _ => true | .error _ => false)
      | .error _ => false
    v.cur.gydonMode = false ∧ v.cur.gang = none ∧ v.cur.gword = none ∧ at' 0 = true ∧ at' 2 = true ∧
      (v.modCur fun c => { c with gword := some (0x00020983, 4) }).cur.gword = some (0x00020983, 4) := by decide +kernel

/-- StepRunsDecoded: a Gydon context that fetches from a page that is present, one beyond its image, and an event on the agenda. -/
theorem test_hyp_StepRunsDecoded_gydon :
    (let s := State.reset.withFetchWord 16 0x0905
     let v := (s.enterHandler s.core).startIssue s.core 15
     s.agenda = [] ∧ s.booted ≠ none ∧ (s.enterHandler s.core).pick s.core = some 15 ∧ v.cur.token = none ∧ v.cur.gydonMode = true ∧
       (match v.curPart.xlat with
        | some t => decide (2 * v.cur.gyd.pc + 2 ≤ t.xlen) && (match v.translate v.core v.cur.comp (t.vImage + 2 * v.cur.gyd.pc) { x := true } with
          | (.ok pa e, u) => (match u.lineFor v.core pa e with | .words .. => true | _ => false)
          | _ => false)
        | none => false) = true) ∧
    (let s := (State.reset.withFetchWord 16 0x0905).modCtx 0 15 fun c => { c with gyd := { c.gyd with pc := 2 ^ 20 } }
     let v := (s.enterHandler s.core).startIssue s.core 15
     v.curPart.xlat.all (fun t => decide (t.xlen < 2 * v.cur.gyd.pc + 2)) = true ∧ v.curPart.xlat.isSome = true) ∧
    (let s : State := { State.reset with agenda := [.event .thermalReading {}] }
     s.agenda = .event .thermalReading {} :: [] ∧ s.booted ≠ none ∧ isAgentStep .thermalReading = true) := by
  refine ⟨?_, ?_, ?_⟩ <;> decide +kernel

/-- DecodeEncode and EncodingUnique: an instruction with its word. -/
theorem test_hyp_DecodeEncode : Instr.wf (.ldi 5 0x1FFED4) = true ∧ encode (.ldi 5 0x1FFED4) = some (.word 0xFFF6A289) ∧
    decode (.word 0xFFF6A289) = some (.ldi 5 0x1FFED4) := by decide

/-- MemoryCanonical: memory with several bytes listed, and a step from it. -/
theorem test_hyp_MemoryCanonical : ({ machine.withFetchWord 32 0x00020983 with mem := mapped 7 } : State).memWf = true ∧
    (match step ({ machine.withFetchWord 32 0x00020983 with mem := mapped 7 } : State) with | .next _ => true | _ => false) = true := by
  decide +kernel

/-! ### Records and copies written by the device -/

/-- Nothing of a package is cached, owned, tagged or being cleared, partition p allocates nothing in the slices, and no trace set is valid. -/
structure Bare (s : State) (p : Nat) : Prop where
  lines : s.lines = []
  owners : s.owners = []
  scrubs : s.scrubs = []
  tags : s.tags = []
  mask : ∀ d, s.fillMask p d = 0
  sets : s.tracking = false

/-- A state in which only memory from b on and the counts of the slices differ. -/
def Upto (b : Nat) (s t : State) : Prop :=
  ∃ m x y, t = { s with mem := m, l2Acc := x, l2Miss := y } ∧ ∀ j, j < b → Memory.byte m j = Memory.byte s.mem j

theorem Upto.refl (b : Nat) (s : State) : Upto b s s := ⟨s.mem, s.l2Acc, s.l2Miss, rfl, fun _ _ => rfl⟩

theorem Upto.trans {b : Nat} {s t u : State} (h : Upto b s t) (k : Upto b t u) : Upto b s u := by
  obtain ⟨m, x, y, rfl, hm⟩ := h
  obtain ⟨m', x', y', rfl, hm'⟩ := k
  exact ⟨m', x', y', rfl, fun j hj => (hm' j hj).trans (hm j hj)⟩

theorem Bare.upto {b p : Nat} {s t : State} (hs : Bare s p) (h : Upto b s t) : Bare t p := by
  obtain ⟨m, x, y, rfl, -⟩ := h
  exact ⟨hs.lines, hs.owners, hs.scrubs, hs.tags, hs.mask, hs.sets⟩

theorem Bare.findLine {p : Nat} {s : State} (hs : Bare s p) (d l : Nat) : s.findLine d l = none := by
  simp [State.findLine, hs.lines]

/-- A line written to memory by a bare state. -/
theorem Bare.writeMemLine {p : Nat} {s : State} (hs : Bare s p) (line : Nat) (w : Vector W 8) : Upto (64 * line) s (s.writeMemLine line w) := by
  have hm : ∀ (l : List (Fin 8)) (m : Memory) j, j < 64 * line →
      Memory.byte (l.foldl (fun m i => Memory.store m (64 * line + 8 * i.val) 8 (w[i]).toNat) m) j = Memory.byte m j := by
    intro l
    induction l with
    | nil => exact fun _ _ _ => rfl
    | cons i l ih => exact fun m j hj => (ih _ j hj).trans (Memory.byte_store_out _ _ _ _ _ (.inl (by omega)))
  refine ⟨_, s.l2Acc, s.l2Miss, ?_, hm (List.finRange 8) s.mem⟩
  unfold State.writeMemLine
  simp only [State.tagOf, hs.tags, hs.scrubs]
  obtain ⟨⟩ := s
  obtain ⟨hl, ho, hsc, ht, -, -⟩ := hs
  simp only at hsc ht
  subst hsc ht
  rfl

/-- A word written at its home by a bare state. -/
theorem Bare.writeHome {p : Nat} {s : State} (hs : Bare s p) (word mask : Nat) (d : W) :
    Upto (64 * (word / 8)) s (s.writeHome p word mask d none none none true) := by
  have ho : s.setOwner word none = s := by
    obtain ⟨⟩ := s
    obtain ⟨-, ho, -⟩ := hs
    simp only at ho
    subst ho
    rfl
  unfold State.writeHome
  simp only [Bool.true_or, Bool.not_true, Bool.false_eq_true, if_false, ho]
  have hv : ∀ dd l, s.victimWay p dd l = none := by
    intro dd l
    have hf : (List.range 16).filter (fun _ => false) = [] := rfl
    simp [State.victimWay, hs.mask, hf]
  have hp : ∀ l w, s.putHome p l w = s.writeMemLine l w := by
    intro l w
    unfold State.putHome State.fillLine
    simp [hs.findLine, hv]
  rw [hp]
  have hw := hs.writeMemLine (word / 8)
  have hb := fun w => hs.upto (hw w)
  have hi : ∀ {t : State}, Bare t p → ∀ l, t.sendInvals l none none = t := by
    intro t ht l
    unfold State.sendInvals
    have : ∀ (r : List Nat) (u : State), Bare u p → (r.foldl (fun s d => if d ≠ homeDie (64 * l) ∧ some d ≠ none ∧ (s.findLine d l).isSome then
      { s with invals := s.invals ++ [{ home := homeDie (64 * l), die := d, line := l, seq := s.invSeq, src := none }], invSeq := s.invSeq + 1 }
      else s) u) = u := by
      intro r
      induction r with
      | nil => exact fun _ _ => rfl
      | cons d r ih => intro u hu; simp only [List.foldl_cons, hu.findLine]; simpa using ih u hu
    exact this _ t ht
  rw [hi (hb _)]
  exact hw _

theorem Upto.mono {a b : Nat} {s t : State} (h : Upto a s t) (hb : b ≤ a) : Upto b s t := by
  obtain ⟨m, x, y, rfl, hm⟩ := h
  exact ⟨m, x, y, rfl, fun j hj => hm j (by omega)⟩

/-- A line written at its home by a bare state. -/
theorem Bare.homeStore {p : Nat} (l v : Nat) : ∀ {s : State}, Bare s p → Upto (64 * l) s (s.homeStore p (64 * l) none none none 64 v) := by
  have hw : ∀ (n word mask data : Nat) (s : State), Bare s p → 8 * l ≤ word → word + n ≤ 8 * l + 8 →
      Upto (64 * l) s (s.homeWords p word none none none l (l + 1) mask data n) := by
    intro n
    induction n with
    | zero => exact fun _ _ _ s _ _ _ => .refl _ s
    | succ n ih =>
      intro word mask data s hs h1 h2
      have hl : word / 8 = l := by omega
      unfold State.homeWords
      have h := hs.writeHome word (mask % 256) (.ofNat 64 data)
      have hd : decide (l ≤ word / 8 ∧ word / 8 < l + 1) = true := by simp [hl]
      rw [hd]
      rw [hl] at h
      exact h.trans (ih _ _ _ _ (hs.upto h) (by omega) (by omega))
  intro s hs
  unfold State.homeStore
  have e1 : (64 * l + 63) / 64 = l := by omega
  have e2 : (64 * l + 64) / 64 = l + 1 := by omega
  have e3 : 64 * l / 8 = 8 * l := by omega
  have e4 : (64 * l % 8 + 64 + 7) / 8 = 8 := by omega
  rw [e1, e2, e3, e4]
  exact hw 8 _ _ _ s hs (Nat.le_refl _) (Nat.le_refl _)

/-- The same with its counts. -/
theorem Bare.perform {p : Nat} (l v : Nat) {s : State} (hs : Bare s p) : Upto (64 * l) s (s.perform p (64 * l) 64 v none none none none) := by
  have hc : ∀ d m, Upto (64 * l) s (s.countL2 p d m) := by
    intro d m
    unfold State.countL2
    split
    · exact .refl _ s
    · split <;> exact ⟨s.mem, _, _, rfl, fun _ _ => rfl⟩
  unfold State.perform State.land
  have hb := hs.upto (hc (homeDie (64 * l)) (s.findLine (homeDie (64 * l)) (64 * l / 64)).isNone)
  have h := hb.homeStore l v
  have ht := (hb.upto h).sets
  unfold State.trackWrite
  simp only [ht, Bool.not_false, if_true]
  exact (hc _ _).trans h

theorem Upto.mem {b : Nat} {s t : State} (h : Upto b s t) : ∀ j, j < b → Memory.byte t.mem j = Memory.byte s.mem j := by
  obtain ⟨m, x, y, rfl, hm⟩ := h
  exact hm

/-- A line below the bound is what it was. -/
theorem Bare.homeLine {b p line : Nat} {s t : State} (hs : Bare s p) (h : Upto b s t) (hl : 64 * line + 64 ≤ b) : t.homeLine line = s.homeLine line := by
  have ht := hs.upto h
  have e1 : s.homeLine line = s.memLine line := by unfold State.homeLine; rw [hs.findLine]
  have e2 : t.homeLine line = t.memLine line := by unfold State.homeLine; rw [ht.findLine]
  have hm := h.mem
  rw [e1, e2]
  unfold State.memLine State.scrubOf
  rw [hs.scrubs, ht.scrubs]
  simp only [List.find?_nil, Bool.false_eq_true, if_false]
  refine congrArg Vector.ofFn (funext fun i => congrArg (BitVec.ofNat 64) ?_)
  exact Memory.load_congr _ _ _ _ fun j _ _ => hm j (by have := i.isLt; omega)

/-- A walk sees only the table entries that it reads. -/
theorem Bare.walkFrom {b p q va : Nat} {s t : State} (hs : Bare s q) (h : Upto b s t) : ∀ (ls : List Nat) (tb : Nat),
    (∀ a ∈ s.walkEntries va ls tb, a / 64 * 64 + 64 ≤ b) → t.walkFrom p va ls tb = s.walkFrom p va ls tb := by
  have hw : ∀ a, a / 64 * 64 + 64 ≤ b → t.homeWord a = s.homeWord a := by
    intro a ha
    unfold State.homeWord
    rw [hs.homeLine h (by omega)]
  have hv : ∀ l, t.lineLive l = s.lineLive l := by
    intro l
    have ht := hs.upto h
    unfold State.lineLive State.lineReadable
    rw [hs.findLine, ht.findLine]
    simp [State.tagOf, State.scrubOf, hs.tags, ht.tags, hs.scrubs, ht.scrubs]
  intro ls
  induction ls with
  | nil => exact fun _ _ => rfl
  | cons l ls ih =>
    intro tb ha
    have h0 : tb + 8 * levelIndex l va ∈ s.walkEntries va (l :: ls) tb := by
      unfold State.walkEntries; simp only; split <;> simp
    unfold State.walkFrom
    simp only [hv, hw _ (ha _ h0)]
    split
    · rfl
    · split
      · rfl
      · split
        · rfl
        · rename_i h1 h2 h3
          refine ih _ fun a hm => ha a ?_
          unfold State.walkEntries
          simp only
          rw [if_neg (by simp_all)]
          exact List.mem_cons_of_mem _ hm

theorem levelIndex_page {va vb : Nat} (h : va / 65536 = vb / 65536) (l : Nat) : levelIndex l va = levelIndex l vb := by
  have hn : ∀ n k, 16 ≤ n → natBits va n k = natBits vb n k := by
    intro n k hn
    obtain ⟨m, rfl⟩ := Nat.exists_eq_add_of_le hn
    unfold natBits
    rw [Nat.pow_add, ← Nat.div_div_eq_div_mul, ← Nat.div_div_eq_div_mul]
    exact congrArg (· / 2 ^ m % 2 ^ k) h
  unfold levelIndex
  split <;> exact hn _ _ (by decide)

/-- A walk depends on the page alone. -/
theorem walk_page {s : State} {p va vb : Nat} (h : va / 65536 = vb / 65536) : s.walk p va = s.walk p vb := by
  have hf : ∀ ls tb, s.walkFrom p va ls tb = s.walkFrom p vb ls tb := by
    intro ls
    induction ls with
    | nil => exact fun _ => rfl
    | cons l ls ih =>
      intro tb
      unfold State.walkFrom
      have h2 : va / 2 ^ 21 = vb / 2 ^ 21 := by omega
      simp only [levelIndex_page h, ih, h, h2]
  unfold State.walk
  rw [hf]
  have : va ≥ 2 ^ 48 ↔ vb ≥ 2 ^ 48 := by omega
  simp only [this]

/-- Page v of partition p, whose leaf e a compartment may write: its table lies below b, its frame from there on. -/
structure Paged (s : State) (p comp v b : Nat) (e : TlbEnt) : Prop where
  bare : Bare s p
  small : 65536 * v < 2 ^ 48
  leaf : s.walkFrom p (65536 * v) [1, 2, 3, 4] (s.part p).troot = .leaf e
  right : e.w = true ∧ e.unscr = false ∧ e.big = false
  frame : b ≤ e.pa ∧ e.pa % 64 = 0
  table : ∀ a ∈ s.walkEntries (65536 * v) [1, 2, 3, 4] (s.part p).troot, a / 64 * 64 + 64 ≤ b
  admits : ∀ pa, s.tagAdmits (s.part p).world comp pa true = true

/-- A line of the page is written. -/
theorem Paged.cpStore {s t : State} {p comp v b va x : Nat} {e : TlbEnt} (h : Paged s p comp v b e) (ht : Upto b s t) (hv : va / 65536 = v)
    (ha : va % 64 = 0) : ∃ u, t.cpStore p va 64 x none comp = .ok u ∧ Upto b s u := by
  have hp : t.part p = s.part p := by obtain ⟨m, x, y, rfl, -⟩ := ht; rfl
  have hg : ∀ pa, t.tagAdmits (s.part p).world comp pa true = true := by
    have : t.tags = s.tags := by obtain ⟨m, x, y, rfl, -⟩ := ht; rfl
    intro pa
    have := h.admits pa
    unfold State.tagAdmits State.tagOf at *
    rwa [‹t.tags = s.tags›]
  have hw : t.walk p va = .leaf e := by
    rw [walk_page (vb := 65536 * v) (by omega)]
    unfold State.walk
    rw [if_neg (by have := h.small; omega), hp, h.bare.walkFrom ht _ _ h.table]
    exact h.leaf
  have hl : t.cpLeaf p va true comp = .ok e := by
    unfold State.cpLeaf
    rw [hw, hp]
    simp [h.right.1, hg]
  obtain ⟨l, hl2⟩ : ∃ l, e.phys va = 64 * l := by
    have := h.frame.2
    exact ⟨e.phys va / 64, by unfold TlbEnt.phys; simp only [h.right.2.2, Bool.false_eq_true, if_false]; omega⟩
  have hb : b ≤ 64 * l := by
    rw [← hl2]
    unfold TlbEnt.phys
    simp only [h.right.2.2, Bool.false_eq_true, if_false]
    have := h.frame.1
    omega
  refine ⟨t.perform p (64 * l) 64 x none none none none, ?_, ht.trans (((h.bare.upto ht).perform l x).mono hb)⟩
  have hr : t.readyScrub p e = some t := by unfold State.readyScrub; simp [h.right.2.1]
  simp only [State.cpStore, hl, hr, hl2, bind, Except.bind, pure, Except.pure, ha]
  simp

/-- A list of whole lines of the page is written. -/
theorem Paged.cpPieces {s : State} {p comp v b : Nat} {e : TlbEnt} (h : Paged s p comp v b e) : ∀ (k va : Nat) (l : List Byte) (t : State),
    Upto b s t → va % 64 = 0 → l.length % 64 = 0 → 65536 * v ≤ va → va + l.length ≤ 65536 * v + 65536 →
    ∃ u, t.cpPieces p none comp k va l = .ok u ∧ Upto b s u := by
  intro k
  induction k with
  | zero => exact fun va l t ht _ _ _ _ => ⟨t, by unfold State.cpPieces; rfl, ht⟩
  | succ k ih =>
    intro va l t ht ha hl h1 h2
    match l with
    | [] => exact ⟨t, by unfold State.cpPieces; rfl, ht⟩
    | y :: r =>
      have hn : 64 ≤ (y :: r).length := by
        have : 0 < (y :: r).length := by simp
        omega
      have e0 : 64 - va % 64 = 64 := by omega
      have e1 : Nat.min (64 - va % 64) (y :: r).length = 64 := by rw [e0]; exact Nat.min_eq_left hn
      obtain ⟨u, hu, hs⟩ := h.cpStore (x := ofBytes ((y :: r).take (64 - va % 64))) ht (va := va) (by omega) ha
      obtain ⟨w, hw, hz⟩ := ih (va + 64) ((y :: r).drop 64) u hs (by omega) (by simp only [List.length_drop]; omega) (by omega)
        (by simp only [List.length_drop]; omega)
      refine ⟨w, ?_, hz⟩
      unfold State.cpPieces
      simp only [e1, hu, bind, Except.bind]
      rw [e0]
      exact hw

theorem Paged.cpStores {s t : State} {p comp v b va : Nat} {e : TlbEnt} {l : List Byte} (h : Paged s p comp v b e) (ht : Upto b s t)
    (ha : va % 64 = 0) (hl : l.length % 64 = 0) (h1 : 65536 * v ≤ va) (h2 : va + l.length ≤ 65536 * v + 65536) :
    ∃ u, t.cpStores p va none l comp = .ok u ∧ Upto b s u := h.cpPieces _ va l t ht ha hl h1 h2

/-- A page table of four low pages that maps page 3 at 0x120000 with every right. -/
def lowMapped : Memory :=
  Memory.store (Memory.store (Memory.store (Memory.store [] 0x10000 8 0x20001) 0x20000 8 0x30001) 0x30000 8 0x40001) 0x40018 8 0x120007

/-- Partition 0 uses that table, and allocates nothing in the slices. -/
def low (s : State) : State := { s.modPart 0 fun p => { p with troot := 0x10000, wmask := .replicate 8 0 } with mem := lowMapped }

/-- The leaf of page 3. -/
def lowLeaf : TlbEnt := { part := 0, vpage := 3, big := false, pa := 0x120000, r := true, w := true, x := false, unscr := false, leaf := 0x40018 }

/-- A bare state that uses that table, decided. -/
theorem paged_of {s : State} {comp : Nat} (h : (s.lines.isEmpty && s.owners.isEmpty && s.scrubs.isEmpty && s.tags.isEmpty && !s.tracking
    && decide (s.walkFrom 0 0x30000 [1, 2, 3, 4] 0x10000 = .leaf lowLeaf) && decide (s.walkEntries 0x30000 [1, 2, 3, 4] 0x10000 = [0x10000, 0x20000, 0x30000, 0x40018])
    && (s.part 0).world == 0 && (s.part 0).troot == 0x10000 && decide ((s.part 0).wmask = .replicate 8 0)) = true) :
    Paged s 0 comp 3 0x50000 lowLeaf := by
  simp only [Bool.and_eq_true, List.isEmpty_iff, Bool.not_eq_true', decide_eq_true_eq, beq_iff_eq] at h
  obtain ⟨⟨⟨⟨⟨⟨⟨⟨⟨a, b⟩, c⟩, d⟩, e⟩, f⟩, g⟩, hw⟩, hr⟩, hm⟩ := h
  refine ⟨⟨a, b, c, d, fun k => by simp [State.fillMask, hm], e⟩, by decide, by rw [hr]; exact f, ⟨rfl, rfl, rfl⟩, by decide, ?_, ?_⟩
  · rw [hr]
    show ∀ x ∈ s.walkEntries 0x30000 _ _, _
    rw [g]
    decide
  · intro pa
    simp [State.tagAdmits, State.tagOf, d, hw]
    rfl

/-- Trust: the whole record of evidence is written, and its answer is delivered. -/
theorem test_hyp_Trust_written :
    let s := low (evidenceState 7)
    ∃ t, s.cpStores 0 0x30000 none (s.evidence 3 2 []) (s.ctxAt 3 2).comp = .ok t ∧
      Deliverable ((({ t with draws := t.draws + 1, freeCnt := t.freeCnt + 1 } : State).acquire 3 2 .quad).modPart 0 fun r =>
        { r with evQ := r.evQ.drop 1 }) 3 2 6 := by
  intro s
  have hp : Paged s 0 (s.ctxAt 3 2).comp 3 0x50000 lowLeaf := paged_of (by decide +kernel)
  have hn : (s.evidence 3 2 []).length = 4864 := by decide +kernel
  obtain ⟨t, ht, hu⟩ := hp.cpStores (l := s.evidence 3 2 []) (.refl _ s) (va := 0x30000) (by decide) (by rw [hn]) (by decide) (by rw [hn]; decide)
  refine ⟨t, ht, deliverable_of ?_⟩
  obtain ⟨m, x, y, rfl, -⟩ := hu
  exact (by decide +kernel : delivers ((({ s with draws := s.draws + 1, freeCnt := s.freeCnt + 1 } : State).acquire 3 2 .quad).modPart 0 fun r =>
        { r with evQ := r.evQ.drop 1 }) 3 2 6 = true)

/-- A partition whose next translation has its area in that page. -/
def atArea : State := (low (launching (atStep4 16))).modPart 0 fun r => { r with xarea := 0x30000 }

/-- LaunchLives: the working copies of a translation are written, and its context 15 is FREE. -/
theorem test_hyp_LaunchLives_copies :
    atArea.cpFree 0 = true ∧ (atArea.part 0).xlat = none ∧ (atArea.part 0).nextStep4 = some (1, atStep4 16) ∧
    ∃ r spans u, (atArea.part 0).makeRoom (atStep4 16).workSizes ((atArea.part 0).xcache.length + 1) = some (r, spans) ∧
      (atArea.setPart 0 r).putCopies 0 (atStep4 16) ((atStep4 16).xlatAt 1 spans) = .ok u ∧ (u.part 0).base = 0 ∧ (u.ctxAt 0 15).st = .free ∧
      u.invals = [] ∧ (u.coreAt 0).frozen = false ∧ (u.coreAt 0).halted = false := by
  have hr : (match (atArea.part 0).makeRoom (atStep4 16).workSizes ((atArea.part 0).xcache.length + 1) with
    | some (r, l) => decide (r = atArea.part 0) && ((atStep4 16).xlatAt 1 l).vScr == 0x30040 | none => false) = true := by decide +kernel
  split at hr
  case h_2 => cases hr
  rename_i r l hm
  simp only [Bool.and_eq_true, decide_eq_true_eq, beq_iff_eq] at hr
  obtain ⟨rfl, hv⟩ := hr
  have hp : Paged (atArea.setPart 0 (atArea.part 0)) 0 0 3 0x50000 lowLeaf := paged_of (by decide +kernel)
  obtain ⟨z, hz, hn⟩ : ∃ z : List Byte, List.replicate 8192 0 = z ∧ z.length = 8192 := ⟨_, rfl, List.length_replicate⟩
  obtain ⟨u, hu, hs⟩ := hp.cpStores (l := z) (.refl _ _) (va := 0x30040) (by decide) (by rw [hn]) (by decide) (by rw [hn]; decide)
  refine ⟨by decide +kernel, by decide +kernel, by decide +kernel, _, l, u, hm, ?_, ?_⟩
  · have h0 : ∀ (s : State) va, s.cpStores 0 va none [] = .ok s := fun _ _ => rfl
    have e : (atStep4 16).image = [] ∧ (atStep4 16).priv = [] ∧ (atStep4 16).arg = [] := ⟨rfl, rfl, rfl⟩
    unfold State.putCopies
    simp only [e, h0, hv, hz, bind, Except.bind]
    exact hu
  · have hb : ((atArea.setPart 0 (atArea.part 0)).part 0).base = 0 ∧ ((atArea.setPart 0 (atArea.part 0)).ctxAt 0 15).st = .free ∧
      (atArea.setPart 0 (atArea.part 0)).invals = [] ∧ ((atArea.setPart 0 (atArea.part 0)).coreAt 0).frozen = false ∧
      ((atArea.setPart 0 (atArea.part 0)).coreAt 0).halted = false := by decide +kernel
    generalize atArea.setPart 0 (atArea.part 0) = s at *
    obtain ⟨m, x, y, rfl, -⟩ := hs
    exact hb

/-- LaunchLives: a translation whose area has no older copy left on the die of its context 15, and one whose area has. -/
theorem test_hyp_LaunchLives_swept :
    (let t := { (atStep4 16).xlatAt 1 [] with inval := 5 }
     let s := launching (atStep4 16) fun r => { r with xlat := some t }
     (s.part 0).xlat = some t ∧ t.started = false ∧ s.invals = [] ∧
       (let u := { s with invals := [{ home := 1, die := dieOf 0, line := 0x1800, seq := 4, src := none }] }
        u.invals.any (fun v => v.die == dieOf 0 && decide (v.seq < t.inval)) = true)) ∧
    (let t := { (atStep4 16).xlatAt 1 [] with started := true }
     ((launching (atStep4 16) fun r => { r with xlat := some t }).part 0).xlat = some t) := by decide +kernel

/-- LaunchLives: a package that is gated, an earlier launch that waits for the same sector, and a cluster whose leaf has a message on its way. -/
theorem test_hyp_LaunchLives_holds :
    ({ launching sampleLaunch with gated := true } : State).gated = true ∧
    (let l := { sampleLaunch with arrival := 3 }
     let s := launching l fun r => { r with launches := (2, { sampleLaunch with arrival := 1 }) :: r.launches }
     s.launchAt 0 1 = some l ∧ l.stage = .admission ∧ s.cpFree 0 = true ∧ s.overtakes l = true) ∧
    ((launching running).modCluster 0 fun c => { c with up := { permits := 3, sent := [.other 1] } }).linksFree 0 = false ∧
    (launching running).linksFree 0 = true := by decide +kernel

end Sys2Proof.Tests
end

section
/-! SUPPORT. The operations of the integer instructions in the manual's terms (05 R113 to R120), and with them the statements about those
instructions. -/

namespace Sys2Proof.Proofs.Integer

open Sys2Proof.Machine Sys2Proof.Spec

/-! ### Instructions that compute one register from registers -/

section
variable {s : State} {srcs : List Src} {d : Reg} {len : Nat} {f : State → W} {v : W} {i : Instr}

/-- An instruction whose meaning is to compute a register from operands that are ready writes that register and completes. -/
theorem exec_of_compute (h : Ready s srcs [d]) (hi : exec i s = finish s (s.compute srcs d len f))
    (hv : f (s.modCur fun c => synced c srcs) = v) : exec i s = .next (wrote s srcs d v len) :=
  hi.trans (compute_ready h hv)

/-- A destination that is read as well is ready where it is ready to be written: it is read plainly. -/
theorem ready_alsoReads (h : Ready s srcs [d]) : Ready s (alsoReads d srcs) [d] where
  src a ha := by
    rcases List.mem_append.mp ha with ha | ha
    · exact h.src a ha
    · cases List.mem_singleton.mp ha
      exact h.dst d (List.mem_singleton_self d)
  dst := h.dst
  full a ha hf := by
    rcases List.mem_append.mp ha with ha | ha
    · exact h.full a ha hf
    · cases List.mem_singleton.mp ha
      cases hf

/-- A plain read of the destination clears no full bit. -/
theorem syncMask_alsoReads : syncMask (alsoReads d srcs) = syncMask srcs := by
  simp [syncMask, alsoReads, plain]

/-- The same for an instruction that reads its destination too (R71). -/
theorem exec_of_compute_alsoReads (h : Ready s srcs [d]) (hi : exec i s = finish s (s.compute (alsoReads d srcs) d len f))
    (hv : f (s.modCur fun c => synced c (alsoReads d srcs)) = v) : exec i s = .next (wrote s srcs d v len) := by
  rw [exec_of_compute (ready_alsoReads h) hi hv]
  simp only [wrote, completed, syncMask_alsoReads]

/-- Where two sources are ready, the first is. -/
theorem ready_left {a b : Src} (h : Ready s [a, b] [d]) : Ready s [a] [d] where
  src e he := h.src e (List.cons_subset_cons a (List.nil_subset _) he)
  dst := h.dst
  full e he := h.full e (List.cons_subset_cons a (List.nil_subset _) he)

end

/-! ### Values -/

theorem bits_lt (t : Ty) (x : W) : bits t x < 2 ^ tyWidth t := (x.setWidth (tyWidth t)).isLt

theorem val_of_unsigned {t : Ty} (h : tySigned t = false) (x : W) : val t x = bits t x := by
  simp [val, bits, h]

/-- A natural number that fits an N type is written as it stands. -/
theorem put_natCast_of_unsigned {t : Ty} (h : tySigned t = false) {n : Nat} (hn : n < 2 ^ tyWidth t) : put t n = .ofNat 64 n := by
  apply BitVec.eq_of_toNat_eq
  simp [put, h, Nat.mod_eq_of_lt hn]

theorem mulHigh_eq (t : Ty) (x y : W) : mulHigh t x y = put t (val t x * val t y / 2 ^ tyWidth t) := by
  simp only [mulHigh, tyVal_eq, tyPut_eq]

theorem shiftLeft_eq (t : Ty) (x y : W) : shiftLeft t x y = put t (val t x * 2 ^ (y.toNat % tyWidth t)) := by
  simp only [shiftLeft, shiftCount, tyVal_eq, tyPut_eq]

theorem shiftRight_eq (t : Ty) (x y : W) : shiftRight t x y = put t (val t x / 2 ^ (y.toNat % tyWidth t)) := by
  simp only [shiftRight, shiftCount, tyVal_eq, tyPut_eq]

/-- With an N type the shift to the right is that of the bits (R114). -/
theorem shiftRight_of_unsigned {t : Ty} (h : tySigned t = false) (x y : W) :
    shiftRight t x y = .ofNat 64 (bits t x / 2 ^ (y.toNat % tyWidth t)) := by
  have hn : bits t x / 2 ^ (y.toNat % tyWidth t) < 2 ^ tyWidth t := Nat.lt_of_le_of_lt (Nat.div_le_self _ _) (bits_lt t x)
  rw [shiftRight_eq, val_of_unsigned h, ← put_natCast_of_unsigned h hn]
  push_cast
  rfl

theorem rotLeft_eq (t : Ty) (x y : W) :
    rotLeft t x y = put t (((bits t x * 2 ^ (y.toNat % tyWidth t) + bits t x / 2 ^ (tyWidth t - y.toNat % tyWidth t))
      % 2 ^ tyWidth t : Nat)) := by
  simp only [rotLeft, shiftCount, lowBits_eq, tyPut_eq]

theorem setIf_ge (v u : Int) : setIf (decide (v ≥ u)) = if v < u then 0 else 1 := by
  by_cases h : v < u
  · simp [setIf, h]
  · simp [setIf, h, Int.not_lt.mp h]

/-! ### Bit counts (R115) -/

theorem natBit_eq (x i : Nat) : natBit x i = x.testBit i := by
  rw [Nat.testBit_eq_decide_div_mod_eq, natBit, Bool.beq_eq_decide_eq]

theorem leadingZeros_eq {w x : Nat} (hx : x < 2 ^ w) : leadingZeros x w = zerosAbove w x := by
  induction w with
  | zero => simp [leadingZeros, zerosAbove, Nat.lt_one_iff.mp hx]
  | succ w ih =>
    rw [leadingZeros, natBit_eq]
    cases hb : x.testBit w with
    | true =>
      have hw : 2 ^ w ≤ x := Nat.ge_two_pow_of_testBit hb
      have h0 : x ≠ 0 := by have := Nat.two_pow_pos w; omega
      have hl : x.log2 = w := (Nat.log2_eq_iff h0).mpr ⟨hw, hx⟩
      simp [zerosAbove, h0, hl]
    | false =>
      have hw : x < 2 ^ w := by
        refine Nat.lt_pow_two_of_testBit x fun i hi => ?_
        rcases Nat.eq_or_lt_of_le hi with rfl | hi
        · exact hb
        · exact Nat.testBit_lt_two_pow (Nat.lt_of_lt_of_le hx (Nat.pow_le_pow_right Nat.two_pos hi))
      rw [if_neg Bool.false_ne_true, ih hw]
      unfold zerosAbove
      split
      · rfl
      · next h0 =>
        have := (Nat.log2_lt h0).mpr hw
        omega

theorem trailingZeros_eq (w x : Nat) : trailingZeros x w = zerosBelow w x := by
  induction w generalizing x with
  | zero => rfl
  | succ w ih =>
    rw [trailingZeros, natBit_eq, ih, zerosBelow, zerosBelow, List.range_succ_eq_map, List.find?_cons]
    cases x.testBit 0 with
    | true => rfl
    | false =>
      simp only [List.find?_map, Function.comp_def, Nat.succ_eq_add_one, Nat.testBit_succ]
      cases (List.range w).find? fun i => (x / 2).testBit i <;> rfl

theorem onesIn_eq (w x : Nat) : onesIn x w = oneBits w x := by
  induction w with
  | zero => rfl
  | succ w ih =>
    rw [onesIn, natBit_eq, ih, oneBits, oneBits, List.range_succ, List.countP_append, List.countP_singleton, Nat.add_comm]

theorem reverseBits_eq (w x : Nat) : reverseBits x w = reversed w x := by
  induction w generalizing x with
  | zero => rfl
  | succ w ih =>
    have h0 : 2 ^ w * (x % 2) = if x.testBit 0 then 2 ^ w else 0 := by
      rcases Nat.mod_two_eq_zero_or_one x with h | h <;> simp [h]
    simp only [reverseBits, ih, h0, reversed, List.range_succ_eq_map, List.map_cons, List.map_map, List.sum_cons, Function.comp_def,
      Nat.succ_eq_add_one, Nat.testBit_succ, Nat.add_sub_cancel, Nat.sub_zero,
      Nat.sub_sub, Nat.add_comm 1]

/-! ### Bit fields (R115) -/

/-- The field that a descriptor names, cut off at bit 63. -/
theorem fieldOf_eq (y : W) :
    fieldOf y = (y.toNat % 64, min (min (y.toNat / 256 % 128) 64) (64 - y.toNat % 64)) := by
  simp [fieldOf, bitsOf]

theorem extractLsb'_eq (x : W) (lo n : Nat) : x.extractLsb' lo n = .ofNat n (bitsOf x lo n) := by
  apply BitVec.eq_of_toNat_eq
  simp [bitsOf, Nat.shiftRight_eq_div_pow]

theorem bitsOf_lt (x : W) (lo n : Nat) : bitsOf x lo n < 2 ^ n := Nat.mod_lt _ (Nat.two_pow_pos n)

/-- EXT without sign (R115). -/
theorem extractField_unsigned (x : W) {y : W} {lo n : Nat} (hf : fieldOf y = (lo, n)) :
    extractField false x y = (x.extractLsb' lo n).setWidth 64 := by
  apply BitVec.eq_of_toNat_eq
  simp [extractField, hf, bitsOf, Nat.shiftRight_eq_div_pow]

/-- EXT.sx: an empty field has no sign, and is 0 (R115). -/
theorem extractField_signed (x : W) {y : W} {lo n : Nat} (hf : fieldOf y = (lo, n)) :
    extractField true x y = (x.extractLsb' lo n).signExtend 64 := by
  simp only [extractField, hf, extractLsb'_eq]
  cases n with
  | zero => simp [bitsOf, BitVec.signExtend, Nat.mod_one]
  | succ n => simp [signedOf_eq (Nat.succ_pos n) (bitsOf_lt x lo (n + 1)), BitVec.signExtend]

/-- A number whose n bits from lo are replaced. -/
theorem replaced_bits (v u lo n : Nat) :
    v - v / 2 ^ lo % 2 ^ n * 2 ^ lo + u * 2 ^ lo = 2 ^ lo * (2 ^ n * (v / 2 ^ (lo + n)) + u) + v % 2 ^ lo := by
  have h1 := Nat.div_add_mod v (2 ^ lo)
  have h2 := Nat.div_add_mod (v / 2 ^ lo) (2 ^ n)
  rw [Nat.div_div_eq_div_mul, ← Nat.pow_add] at h2
  have h3 : v = 2 ^ lo * (2 ^ n * (v / 2 ^ (lo + n))) + v / 2 ^ lo % 2 ^ n * 2 ^ lo + v % 2 ^ lo := by
    calc v = 2 ^ lo * (2 ^ n * (v / 2 ^ (lo + n)) + v / 2 ^ lo % 2 ^ n) + v % 2 ^ lo := by rw [h2, h1]
      _ = _ := by rw [Nat.mul_add, Nat.mul_comm (2 ^ lo) (v / 2 ^ lo % 2 ^ n)]
  have h4 : 2 ^ lo * (2 ^ n * (v / 2 ^ (lo + n)) + u) = 2 ^ lo * (2 ^ n * (v / 2 ^ (lo + n))) + u * 2 ^ lo := by
    rw [Nat.mul_add, Nat.mul_comm (2 ^ lo) u]
  omega

theorem testBit_replaced {v u lo n : Nat} (hu : u < 2 ^ n) (i : Nat) :
    (v - v / 2 ^ lo % 2 ^ n * 2 ^ lo + u * 2 ^ lo).testBit i
      = if lo ≤ i ∧ i < lo + n then u.testBit (i - lo) else v.testBit i := by
  have hv : v % 2 ^ lo < 2 ^ lo := Nat.mod_lt _ (Nat.two_pow_pos lo)
  rw [replaced_bits, Nat.testBit_two_pow_mul_add _ hv, Nat.testBit_two_pow_mul_add _ hu, Nat.testBit_mod_two_pow,
    Nat.testBit_div_two_pow]
  by_cases h1 : i < lo
  · simp [h1, Nat.not_le.mpr h1]
  · by_cases h2 : i < lo + n
    · have h3 : i - lo < n := by omega
      simp [h1, h2, h3, Nat.not_lt.mp h1]
    · have h3 : ¬ i - lo < n := by omega
      have h4 : i - lo - n + (lo + n) = i := by omega
      simp [h1, h2, h3, h4]

/-- INS: the bits of the field come from gA, the others from gD (R115). -/
theorem insertField_getLsbD (v x y : W) {lo n i : Nat} (hf : fieldOf y = (lo, n)) (hi : i < 64) :
    (insertField v x y).getLsbD i = if lo ≤ i ∧ i < lo + n then x.getLsbD (i - lo) else v.getLsbD i := by
  have hr : (insertField v x y).getLsbD i
      = (v.toNat - bitsOf v lo n * 2 ^ lo + bitsOf x 0 n * 2 ^ lo).testBit i := by
    rw [insertField, hf, BitVec.getLsbD_ofNat, decide_eq_true hi, Bool.true_and]
  rw [hr, bitsOf, testBit_replaced (bitsOf_lt x 0 n)]
  split
  · next h =>
    have hn : i - lo < n := by omega
    simp [bitsOf, Nat.testBit_mod_two_pow, hn, BitVec.getLsbD]
  · rfl

/-! ### Constants and addresses (R118 to R120) -/

theorem appendImm_eq (v : W) (i : BitVec 21) : appendImm v i = v <<< 21 + i.setWidth 64 := by
  apply BitVec.eq_of_toNat_eq
  simp [appendImm, Nat.shiftLeft_eq]

/-- The offset of a memory operand after its index register was read. -/
theorem moffOffset_synced (s : State) (o : MOff) (srcs : List Src) (n : Nat) :
    moffOffset o (s.modCur fun c => synced c srcs) n = offsetOf s o n := by
  have hd : BitVec.ofInt 64 (o.disp.toInt * n) = o.disp.signExtend 64 * .ofNat 64 n := by
    rw [BitVec.ofInt_mul, BitVec.ofInt_natCast]
    rfl
  unfold moffOffset offsetOf
  rw [hd]
  cases o.idx with
  | none => rfl
  | some a => simp only [State.g_synced]

/-! ### The statements -/

/-- Settles O1: each result is the machine's Put of the machine's Val, which are the manual's. -/
theorem integerArithmetic : Obligations.IntegerArithmetic := by
  intro s t d a b h
  refine ⟨?add, ?sub, ?rsub, ?mul, ?mulh, ?mulhn⟩
  case add => exact exec_of_compute h rfl (by simp only [State.g_synced, tyVal_eq, tyPut_eq])
  case sub => exact exec_of_compute h rfl (by simp only [State.g_synced, tyVal_eq, tyPut_eq])
  case rsub => exact exec_of_compute h rfl (by simp only [State.g_synced, tyVal_eq, tyPut_eq])
  case mul => exact exec_of_compute h rfl (by simp only [State.g_synced, tyVal_eq, tyPut_eq])
  case mulh => exact exec_of_compute h rfl (by simp only [State.g_synced, mulHigh_eq])
  case mulhn => exact exec_of_compute h rfl (by simp only [State.g_synced, mulHigh_eq])

/-- Settles O2: each result is a value above, by the recursion of the machine's bit counts and by the bits that INS replaces. -/
theorem logicAndShifts : Obligations.LogicAndShifts := by
  constructor
  · intro s t d a b h
    have ha : Ready s [a] [d] := ready_left h
    refine ⟨?and, ?or, ?xor, ?andn, ?mov, ?shl, ?shr, ?sar, ?rol⟩
    case and => exact exec_of_compute h rfl (by simp only [State.g_synced])
    case or => exact exec_of_compute h rfl (by simp only [State.g_synced])
    case xor => exact exec_of_compute h rfl (by simp only [State.g_synced])
    case andn => exact exec_of_compute h rfl (by simp only [State.g_synced])
    case mov => exact exec_of_compute ha rfl (by simp only [State.g_synced])
    case shl => exact exec_of_compute h rfl (by simp only [State.g_synced, shiftLeft_eq])
    case shr => exact fun ht => exec_of_compute h rfl (by simp only [State.g_synced, shiftRight_of_unsigned ht])
    case sar => exact fun _ => exec_of_compute h rfl (by simp only [State.g_synced, shiftRight_eq])
    case rol => exact exec_of_compute h rfl (by simp only [State.g_synced, rotLeft_eq])
  · intro s t d a b h
    have ha : Ready s [a] [d] := ready_left h
    have hf := fieldOf_eq (s.g b.r)
    refine ⟨?clz, ?ctz, ?popc, ?brev, ?ext, ?extSx, insertField (s.g d) (s.g a.r) (s.g b.r), ?ins, ?insBits⟩
    case clz => exact exec_of_compute ha rfl (by simp only [State.g_synced, lowBits_eq, leadingZeros_eq (bits_lt t _)])
    case ctz => exact exec_of_compute ha rfl (by simp only [State.g_synced, lowBits_eq, trailingZeros_eq])
    case popc => exact exec_of_compute ha rfl (by simp only [State.g_synced, lowBits_eq, onesIn_eq])
    case brev => exact exec_of_compute ha rfl (by simp only [State.g_synced, lowBits_eq, reverseBits_eq, tyPut_eq])
    case ext => exact exec_of_compute h rfl (by simp only [State.g_synced, extractField_unsigned _ hf])
    case extSx => exact exec_of_compute h rfl (by simp only [State.g_synced, extractField_signed _ hf])
    case ins => exact exec_of_compute_alsoReads h rfl (by simp only [State.g_synced])
    case insBits => exact fun i hi => insertField_getLsbD _ _ _ hf hi

/-- Settles O3: SEL reads gD as a plain further source, which clears no full bit. -/
theorem compareAndSelect : Obligations.CompareAndSelect := by
  intro s t d a b h
  refine ⟨?min, ?minn, ?max, ?maxn, ?seteq, ?setne, ?setlt, ?setltn, ?setge, ?setgen, ?sel⟩
  case min => exact exec_of_compute h rfl (by simp only [State.g_synced, tyVal_eq, tyPut_eq, Int.min_def])
  case minn => exact exec_of_compute h rfl (by simp only [State.g_synced, tyVal_eq, tyPut_eq, Int.min_def])
  case max => exact exec_of_compute h rfl (by simp only [State.g_synced, tyVal_eq, tyPut_eq, Int.max_def])
  case maxn => exact exec_of_compute h rfl (by simp only [State.g_synced, tyVal_eq, tyPut_eq, Int.max_def])
  case seteq => exact exec_of_compute h rfl (by simp [State.g_synced, lowBits_eq, setIf])
  case setne => exact exec_of_compute h rfl (by simp [State.g_synced, lowBits_eq, setIf])
  case setlt => exact exec_of_compute h rfl (by simp [State.g_synced, tyVal_eq, setIf])
  case setltn => exact exec_of_compute h rfl (by simp [State.g_synced, tyVal_eq, setIf])
  case setge => exact exec_of_compute h rfl (by simp only [State.g_synced, tyVal_eq, setIf_ge])
  case setgen => exact exec_of_compute h rfl (by simp only [State.g_synced, tyVal_eq, setIf_ge])
  case sel => exact exec_of_compute_alsoReads h rfl (by simp only [State.g_synced, ne_eq, ite_not])

/-- Settles O4: reading the operands leaves the scratchpad, and so the constant window, alone. -/
theorem constantsAndAddresses : Obligations.ConstantsAndAddresses := by
  constructor
  · intro s t d a c h
    refine ⟨?add, ?rsub, ?mul, ?and, ?or, ?xor, ?shl, ?shr⟩
    case add => exact exec_of_compute h rfl (by simp only [State.g_synced, State.constant, State.pad_modCur, tyVal_eq, tyPut_eq])
    case rsub => exact exec_of_compute h rfl (by simp only [State.g_synced, State.constant, State.pad_modCur, tyVal_eq, tyPut_eq])
    case mul => exact exec_of_compute h rfl (by simp only [State.g_synced, State.constant, State.pad_modCur, tyVal_eq, tyPut_eq])
    case and => exact exec_of_compute h rfl (by simp only [State.g_synced, State.constant, State.pad_modCur])
    case or => exact exec_of_compute h rfl (by simp only [State.g_synced, State.constant, State.pad_modCur])
    case xor => exact exec_of_compute h rfl (by simp only [State.g_synced, State.constant, State.pad_modCur])
    case shl => exact exec_of_compute h rfl (by simp only [State.g_synced, State.constant, State.pad_modCur, shiftLeft_eq])
    case shr => exact fun ht => exec_of_compute h rfl (by simp only [State.g_synced, State.constant, State.pad_modCur, shiftRight_of_unsigned ht])
  · intro s d
    refine ⟨?ldi, ?ldhi, ?lea⟩
    case ldi => exact fun i h => exec_of_compute h rfl rfl
    case ldhi => exact fun i h => exec_of_compute_alsoReads h rfl (by simp only [State.g_synced, appendImm_eq])
    case lea => exact fun z o h => exec_of_compute (srcs := indexOf o) h rfl (by simp only [State.sgb_synced, moffOffset_synced])

end Sys2Proof.Proofs.Integer
end

section
/-! SUPPORT. The special-function unit: how a request leaves an issuing context, starts and returns, and the statement about it
(05 R121, R122; 09 R188 to R195). -/

namespace Sys2Proof.Proofs.Sfu

open Sys2Proof.Machine Sys2Proof.Spec

/-! ### Requests -/

/-- A change of the executing context and one of a quad do not meet. -/
theorem modCur_modQuad (s : State) (f : Ctx → Ctx) (q : Nat) (k : Quad → Quad) : (s.modQuad q k).modCur f = (s.modCur f).modQuad q k := rfl

/-- Once the operands are read, the request in the quad's queue and its context parked make up the state of the manual (R189, R192). -/
theorem hold_enqueue (s : State) (srcs : List Src) (d : Reg) (op : SfuOp) (t : Ty) (x y : W) :
    let r := s.modCur fun c => synced c srcs
    (r.modQuad (quadOf r.core) fun q => q.enqueue { core := r.core, ctx := r.ctx.val, issued := r.cycle, lat := sfuLatency op t }).hold
      .sfu (.sfu d op t x y (bitsOf r.cur.fpc 0 2) false) 4 = sfuAsked s srcs d op t x y := by
  have hm : bitsOf s.cur.fpc 0 2 = s.cur.fpc.toNat % 4 := by simp [bitsOf]
  simp only [State.hold, modCur_modQuad, State.modCur_modCur, State.fpc_synced, hm]
  rfl

section
variable {s : State} {a b : Src} {d : Reg} {i : Instr} {op : SfuOp} {t : Ty}

/-- An operation of two operands that are ready (R121, R189). -/
theorem exec_of_askSfu_two (h : Ready s [a, b] [d]) (hi : exec i s = finish s (s.askSfu op t d a (some b))) :
    exec i s = .next (sfuAsked s [a, b] d op t (s.g a.r) (s.g b.r)) := by
  rw [hi, ← State.g_synced s [a, b] a.r, ← State.g_synced s [a, b] b.r, ← hold_enqueue]
  simp only [State.askSfu, State.readRegs_of_ready h (some d) false (by simp), Act.ok_bind]
  rfl

/-- An operation of one operand that is ready (R189). -/
theorem exec_of_askSfu_one (h : Ready s [a] [d]) (hi : exec i s = finish s (s.askSfu op t d a none)) :
    exec i s = .next (sfuAsked s [a] d op t (s.g a.r) 0) := by
  rw [hi, ← State.g_synced s [a] a.r, ← hold_enqueue]
  simp only [State.askSfu, State.readRegs_of_ready h (some d) false (by simp), Act.ok_bind]
  rfl

end

/-! ### Serving a request that is not set aside -/

/-- With nothing set aside, a step on the request of a context is a step on the one at which it waits (R283). -/
theorem serve_of_aside_none {s : State} {g : Nat} {x : Fin 16} (h : (s.ctxAt g x).aside = none) (mine : Req → Bool)
    (f : State → Option State) : s.serve g x mine f = f s := by
  simp only [State.serve, h]

theorem served_of_aside_none {c : Ctx} (h : c.aside = none) (mine : Req → Bool) : c.served mine = c.req := by
  simp [Ctx.served, h]

/-- A change of a context depends only on what the context is. -/
theorem modCtx_congr {s : State} {g : Nat} {x : Fin 16} {f k : Ctx → Ctx} (h : f (s.ctxAt g x) = k (s.ctxAt g x)) :
    s.modCtx g x f = s.modCtx g x k := by
  simp only [State.modCtx, h]

/-! ### The start of a request (R192, R193) -/

section
variable {s : State} {q : Quad} {e : SfuReq} {r : List SfuReq}

/-- The oldest request of a quad starts when no older one can come, its own cycle has come and none has started in this one. -/
theorem exec_sfuRequestStart_ready {d : Reg} {op : SfuOp} {t : Ty} {a b : W} {rm : Nat} {st : Bool}
    (hq : s.quadAt s.ev.g = q) (hl : q.queue = e :: r) (hn : Nat.max e.issued q.started ≤ s.cycle) (ho : s.oldestOf e = true)
    (hx : e.ctx < 16) (hr : (s.ctxAt e.core (ctxNo e.ctx)).req = some (.sfu d op t a b rm st))
    (ha : (s.ctxAt e.core (ctxNo e.ctx)).aside = none) :
    exec .sfuRequestStart s = .next ((s.setQuad s.ev.g
        { q with queue := r, busy := q.busy ++ [{ e with due := Nat.max e.issued q.started + e.lat }],
                 started := Nat.max e.issued q.started + 1 }).modCtx e.core (ctxNo e.ctx)
      fun c => { c with req := some (.sfu d op t a b rm true) }) := by
  change execSfuRequestStart s = _
  have hu : ∀ v, ((s.setQuad s.ev.g v).ctxAt e.core (ctxNo e.ctx)).aside = none := fun _ => ha
  simp only [execSfuRequestStart, hq, hl, Nat.not_lt.mpr hn, decide_false, ho, Bool.not_true, Bool.or_false, Bool.false_eq_true,
    if_false, hx, if_true, serve_of_aside_none (hu _), event, Option.getD_some]
  congr 1
  apply modCtx_congr
  rw [State.ctxAt_setQuad, hr]
  rfl

/-- Before that cycle nothing starts. -/
theorem exec_sfuRequestStart_early (hq : s.quadAt s.ev.g = q) (hl : q.queue = e :: r) (hn : s.cycle < Nat.max e.issued q.started) :
    exec .sfuRequestStart s = .next s := by
  change execSfuRequestStart s = _
  simp only [execSfuRequestStart, hq, hl, hn, decide_true, Bool.true_or, if_true]
  rfl

end

/-! ### The return of a token (R121, R192, R194) -/

/-- A context of which a result can be written is so as well when a token has left its unit and a choice was counted. -/
theorem deliverable_sfuLeft {s : State} {g : Nat} {x : Fin 16} {d : Reg} (h : Deliverable s g x d) (e : SfuReq) (n : Nat) :
    Deliverable { sfuLeft s g e with freeCnt := n } g x d := ⟨h.home, h.going, h.alive, h.now, h.reg⟩

/-- The token that is due writes the result of its request, with its flags, and the context goes on; a free choice is counted. -/
theorem exec_returnToken_ready {s : State} {e : SfuReq} {d : Reg} {op : SfuOp} {t : Ty} {a b : W} {rm : Nat}
    (he : (s.quadAt (quadOf s.ev.g)).tokenOf s.cycle s.ev.g s.ev.x s.tokenWaits = some e) (hx : s.ev.x < 16)
    (hr : (s.ctxAt s.ev.g (ctxNo s.ev.x)).req = some (.sfu d op t a b rm true)) (ha : (s.ctxAt s.ev.g (ctxNo s.ev.x)).aside = none)
    (hd : Deliverable s s.ev.g (ctxNo s.ev.x) d) :
    let r := sfuResult op t rm a b (Config.sfuPick s.freeCnt)
    exec .returnToken s = .next (delivered { sfuLeft s s.ev.g e with freeCnt := if r.2.2 then s.freeCnt + 1 else s.freeCnt }
      s.ev.g (ctxNo s.ev.x) d r.1 r.2.1.bits true) := by
  intro r
  change execReturnToken s = _
  have hs : ∀ v, ((s.setQuad (quadOf s.ev.g) v).ctxAt s.ev.g (ctxNo s.ev.x)).served Req.isSfu = some (.sfu d op t a b rm true) :=
    fun _ => (served_of_aside_none ha _).trans hr
  have hu : ∀ n, (({ sfuLeft s s.ev.g e with freeCnt := n } : State).ctxAt s.ev.g (ctxNo s.ev.x)).aside = none := fun _ => ha
  simp only [execReturnToken, he, Nat.not_le.mpr hx, if_false, hs]
  change event s (State.serve { sfuLeft s s.ev.g e with freeCnt := if r.2.2 then s.freeCnt + 1 else s.freeCnt } s.ev.g (ctxNo s.ev.x)
    Req.isSfu _) = _
  rw [serve_of_aside_none (hu _), State.reply_ready (deliverable_sfuLeft hd e _)]
  rfl

/-! ### Quotients and remainders (R121) -/

/-- Put keeps the low bits only. -/
theorem put_add_modulus (t : Ty) (v : Int) : put t (v + 2 ^ tyWidth t) = put t v := by
  have h : BitVec.ofInt (tyWidth t) (v + 2 ^ tyWidth t) = BitVec.ofInt (tyWidth t) v := by
    apply BitVec.eq_of_toNat_eq
    simp [BitVec.toNat_ofInt]
  simp only [put, h]

/-- The negative of the most negative value wraps to itself. -/
theorem put_neg_most_negative (t : Ty) : put t (2 ^ (tyWidth t - 1)) = put t (-2 ^ (tyWidth t - 1)) := by
  have hp : (2 : Int) ^ tyWidth t = 2 ^ (tyWidth t - 1) * 2 := by
    rw [← Int.pow_succ, Nat.succ_eq_add_one, Nat.sub_add_cancel (tyWidth_pos t)]
  have hs : -(2 : Int) ^ (tyWidth t - 1) + 2 ^ tyWidth t = 2 ^ (tyWidth t - 1) := by omega
  rw [← put_add_modulus t (-2 ^ (tyWidth t - 1)), hs]

section
variable (t : Ty) (rm : Nat) (a b : W) (up : Bool)

/-- DIV and DIVN give the quotient of R121, with no flag and no free choice. -/
theorem sfuResult_div : sfuResult .div t rm a b up = (quotient t a b, {}, false) := by
  simp only [sfuResult, tyVal_eq, tyPut_eq, quotient]
  by_cases hb : val t b = 0
  · simp [hb]
  · by_cases hw : tySigned t ∧ val t a = -(2 : Int) ^ (tyWidth t - 1) ∧ val t b = -1
    · obtain ⟨hs, hx, hy⟩ := hw
      simp [hs, hx, hy, put_neg_most_negative]
    · simp [hb, hw]

/-- REM and REMN give the remainder of R121, with no flag and no free choice. -/
theorem sfuResult_rem : sfuResult .rem t rm a b up = (remainder t a b, {}, false) := by
  simp only [sfuResult, tyVal_eq, tyPut_eq, remainder]
  by_cases hb : val t b = 0
  · simp [hb]
  · by_cases hw : tySigned t ∧ val t a = -(2 : Int) ^ (tyWidth t - 1) ∧ val t b = -1
    · obtain ⟨hs, hx, hy⟩ := hw
      simp [hs, hx, hy]
    · simp [hb, hw]

end

/-! ### The statement -/

/-- Settles O10: the issue, the start and the return of a request, with the quotient and the remainder that a division returns. -/
theorem sfuRequests : Obligations.SfuRequests := by
  refine ⟨⟨?two, ?one⟩, ?start, ?early, ?token⟩
  case two =>
    intro s t d a b h
    exact ⟨exec_of_askSfu_two h rfl, exec_of_askSfu_two h rfl, exec_of_askSfu_two h rfl, exec_of_askSfu_two h rfl,
      exec_of_askSfu_two h rfl⟩
  case one =>
    intro s t d a h
    exact ⟨exec_of_askSfu_one h rfl, exec_of_askSfu_one h rfl, exec_of_askSfu_one h rfl, exec_of_askSfu_one h rfl,
      exec_of_askSfu_one h rfl, exec_of_askSfu_one h rfl, exec_of_askSfu_one h rfl, exec_of_askSfu_one h rfl⟩
  case start => exact fun s q e r d op t a b rm st => exec_sfuRequestStart_ready
  case early => exact fun s q e r => exec_sfuRequestStart_early
  case token =>
    intro s e d op t a b rm g x he hx hr ha hd
    have ht := exec_returnToken_ready he hx hr ha hd
    refine ⟨?div, ?rem, fun _ _ => ht⟩
    case div => rintro rfl; simp only [sfuResult_div] at ht; exact ht
    case rem => rintro rfl; simp only [sfuResult_rem] at ht; exact ht

end Sys2Proof.Proofs.Sfu
end

section
/-! SUPPORT. Packed lanes in the manual's terms, and the statement about the packed instructions (07 R144 to R148). -/

namespace Sys2Proof.Proofs.Packed

open Sys2Proof.Machine Sys2Proof.Spec Sys2Proof.Proofs.Integer

/-! ### Lanes of a double -/

/-- Digit i of a number that is put together from lanes, lane 0 first. -/
theorem foldr_lanes_digit {w : Nat} {l : List Nat} {i : Nat} (h : i < l.length) :
    l.foldr (fun v acc => v % 2 ^ w + 2 ^ w * acc) 0 / 2 ^ (w * i) % 2 ^ w = l[i] % 2 ^ w := by
  induction l generalizing i with
  | nil => cases h
  | cons v l ih =>
    cases i with
    | zero => simp
    | succ i =>
      have hv : v % 2 ^ w / 2 ^ w = 0 := Nat.div_eq_of_lt (Nat.mod_lt _ (Nat.two_pow_pos w))
      rw [Nat.mul_succ, Nat.add_comm, Nat.pow_add, ← Nat.div_div_eq_div_mul, List.foldr_cons,
        Nat.add_mul_div_left _ _ (Nat.two_pow_pos w), hv, Nat.zero_add, List.getElem_cons_succ, ih]

/-- Lane i of a double that is made from lanes which fit into it (R144). -/
theorem extractLsb'_ofLanes {w : Nat} {l : List Nat} {i : Nat} (h : i < l.length) (hw : w * l.length ≤ 64) :
    (ofLanes w l).extractLsb' (w * i) w = .ofNat w l[i] := by
  have hi : w * i + w ≤ 64 := Nat.le_trans (Nat.le_of_eq (Nat.mul_succ w i).symm) (Nat.le_trans (Nat.mul_le_mul_left w h) hw)
  have hp : 2 ^ 64 = 2 ^ (w * i) * 2 ^ (64 - w * i) := by rw [← Nat.pow_add, Nat.add_sub_cancel' (by omega)]
  apply BitVec.eq_of_toNat_eq
  rw [BitVec.extractLsb'_toNat, ofLanes, BitVec.toNat_ofNat, BitVec.toNat_ofNat, Nat.shiftRight_eq_div_pow, hp,
    Nat.mod_mul_right_div_self, Nat.mod_mod_of_dvd _ (Nat.pow_dvd_pow 2 (by omega)), foldr_lanes_digit h]

/-- The same where lane i is the value of a function. -/
theorem extractLsb'_ofLanes_map {w n i : Nat} (f : Nat → Nat) (hi : i < n) (hw : w * n ≤ 64) :
    (ofLanes w ((List.range n).map f)).extractLsb' (w * i) w = .ofNat w (f i) := by
  rw [extractLsb'_ofLanes (by simpa using hi) (by simpa using hw), List.getElem_map, List.getElem_range]

theorem lane_eq (w : Nat) (x : W) (i : Nat) : lane w x i = (x.extractLsb' (w * i) w).toNat := by
  rw [lane, BitVec.extractLsb'_toNat, Nat.shiftRight_eq_div_pow]

/-- A lane that is put back is the lane it was. -/
theorem ofNat_lane (w : Nat) (x : W) (i : Nat) : BitVec.ofNat w (lane w x i) = x.extractLsb' (w * i) w := by
  rw [lane_eq, BitVec.ofNat_toNat, BitVec.setWidth_eq]

/-- An integer put into a lane is taken modulo the lane's size (R144). -/
theorem ofNat_emod_pow (w : Nat) (v : Int) : BitVec.ofNat w (v % 2 ^ w).toNat = .ofInt w v := by
  rw [toNat_emod_pow, BitVec.ofNat_toNat, BitVec.setWidth_eq]

/-- The machine's Val of a lane is the manual's (R144). -/
theorem laneVal_eq (t : Ty) (x : W) (i : Nat) : laneVal t x i = laneInt t x i := by
  simp only [laneVal, laneInt, laneBits, lane_eq]
  split
  · rw [signedOf_eq (tyWidth_pos t) (BitVec.isLt _), BitVec.ofNat_toNat, BitVec.setWidth_eq]
  · rfl

/-- The machine's Sat is the manual's (R144). -/
theorem satTo_eq (t : Ty) (n : Nat) (v : Int) : satTo n (tySigned t) v = clampTo t n v := by
  unfold satTo clampTo
  split <;> rfl

theorem laneSat_eq (t : Ty) (v : Int) : laneSat t v = clampTo t (tyWidth t) v := satTo_eq t _ v

/-- All lanes of a type together fit into a double. -/
theorem tyWidth_mul_laneCount_le (t : Ty) : tyWidth t * laneCount t ≤ 64 := Nat.mul_div_le 64 _

/-- A double made lane by lane: PutLane, and the old contents in the lanes that k0 leaves out of a masked form (R144, R145). -/
theorem laneBits_byLanes (t : Ty) (m : Bool) (k : BitVec 8) (old : W) (f : Nat → Int) {j : Nat} (hj : j < laneCount t) :
    laneBits t (byLanes t m k old f) j
      = if m = true ∧ k.getLsbD j = false then laneBits t old j else .ofInt (tyWidth t) (f j) := by
  rw [laneBits, byLanes, extractLsb'_ofLanes_map _ hj (tyWidth_mul_laneCount_le t), apply_ite (BitVec.ofNat (tyWidth t)), ofNat_lane,
    lanePut, ofNat_emod_pow]
  simp only [Bool.and_eq_true, Bool.not_eq_true', laneBits]

/-! ### Instructions that work in each lane (R145, R146) -/

section
variable {s : State} {srcs : List Src} {d : Reg} {m : Bool} {len : Nat} {f : State → W} {v : W} {i : Instr}

/-- A masked form, which reads gD too, writes what the instruction computes, as the plain form does (R145). -/
theorem exec_of_compute_masked (h : Ready s srcs [d]) (hi : exec i s = finish s (s.compute (maskedSrcs m d srcs) d len f))
    (hv : f (s.modCur fun c => synced c (maskedSrcs m d srcs)) = v) : exec i s = .next (wrote s srcs d v len) := by
  cases m with
  | false => exact exec_of_compute h hi hv
  | true => exact exec_of_compute_alsoReads h hi hv

/-- An instruction whose meaning is lane by lane writes its lanes so. -/
theorem writesLanes_of_lanewise {t : Ty} {f : State → Nat → Int} {v : Nat → Int} (h : Ready s srcs [d])
    (hi : exec i s = finish s (s.lanewise m t d srcs f)) (hv : ∀ j, f (s.modCur fun c => synced c (maskedSrcs m d srcs)) j = v j) :
    WritesLanes s i srcs m t d v := by
  refine ⟨byLanes t m (s.cur.k[(0 : Fin 4)]) (s.g d) v, exec_of_compute_masked h hi ?value, fun j hj => laneBits_byLanes t m _ _ v hj⟩
  simp only [State.k_synced, State.g_synced, funext hv]
  rfl

end

/-- PSHL in a lane (R146). -/
theorem laneShl_eq (t : Ty) (x y : W) (i : Nat) : laneShl t (laneVal t x i) (lane (tyWidth t) y i)
    = if (laneBits t y i).toNat < tyWidth t then laneInt t x i * 2 ^ (laneBits t y i).toNat else 0 := by
  rw [laneVal_eq, lane_eq]
  rfl

/-- PSHR in a lane: a lane of an N type has no sign (R146). -/
theorem laneShr_eq (t : Ty) (x y : W) (i : Nat) : laneShr t (laneVal t x i) (lane (tyWidth t) y i)
    = if (laneBits t y i).toNat < tyWidth t then laneInt t x i / 2 ^ (laneBits t y i).toNat
      else if tySigned t ∧ laneInt t x i < 0 then -1 else 0 := by
  have hs : laneInt t x i < 0 ↔ tySigned t ∧ laneInt t x i < 0 := by
    refine ⟨fun hx => ⟨?signed, hx⟩, And.right⟩
    cases ht : tySigned t with
    | true => rfl
    | false =>
      rw [laneInt, ht, if_neg Bool.false_ne_true] at hx
      omega
  simp only [laneShr, laneVal_eq, lane_eq, laneBits, ← hs]

/-- PABS: the size of a lane's value, clamped (R146). -/
theorem natAbs_eq_ite (v : Int) : (v.natAbs : Int) = if v < 0 then -v else v := by
  split <;> omega

/-! ### Compares into a mask (R147) -/

/-- A number put together from the bits i < n for which a condition holds. -/
theorem foldl_bits (p : Nat → Bool) (n : Nat) :
    let v := (List.range n).foldl (fun v i => if p i then v + 2 ^ i else v) 0
    v < 2 ^ n ∧ ∀ j, v.testBit j = (decide (j < n) && p j) := by
  induction n with
  | zero => simp
  | succ n ih =>
    simp only [List.range_succ, List.foldl_append, List.foldl_cons, List.foldl_nil]
    generalize (List.range n).foldl (fun v i => if p i then v + 2 ^ i else v) 0 = v at ih ⊢
    obtain ⟨hlt, hbit⟩ := ih
    have hv : (if p n then v + 2 ^ n else v) = 2 ^ n * (p n).toNat + v := by
      cases p n <;> simp [Nat.add_comm]
    rw [hv]
    constructor
    · have := Nat.mul_le_mul_left (2 ^ n) (p n).toNat_le
      rw [Nat.pow_succ]
      omega
    · intro j
      rw [Nat.testBit_two_pow_mul_add _ hlt, Nat.testBit_bool_toNat, hbit]
      rcases Nat.lt_trichotomy j n with h | rfl | h
      · simp [h, Nat.lt_succ_of_lt h]
      · simp
      · have h0 : j - n ≠ 0 := by omega
        simp [h0, Nat.not_lt_of_gt h, Nat.not_lt.mpr (Nat.succ_le_of_lt h)]

/-- A packed compare writes the mask of the lanes for which its condition holds, and no general register. -/
theorem writesMask_of_packedCmp {s : State} {a b : Src} {d k : Reg} {t : Ty} {i : Instr} {f : Int → Int → Bool}
    (h : Ready s [a, b] [d]) (hi : exec i s = finish s (s.packedCmp t k a b f)) (R : Int → Int → Prop)
    [∀ x y, Decidable (R x y)] (hf : ∀ x y, f x y = decide (R x y)) :
    WritesMask s i [a, b] k fun j => decide (j < laneCount t ∧ R (laneInt t (s.g a.r) j) (laneInt t (s.g b.r) j)) := by
  have hbits := (foldl_bits (fun j => decide (R (laneInt t (s.g a.r) j) (laneInt t (s.g b.r) j))) (laneCount t)).2
  generalize hv : (List.range (laneCount t)).foldl _ 0 = v at hbits
  refine ⟨.ofNat 8 v, ?exec, fun j hj => ?bits⟩
  case exec =>
    rw [hi]
    simp only [State.packedCmp, State.readRegs_of_ready h none false (by simp), Act.ok_bind, State.maskOp, finish_ok, State.advance_eq,
      State.modCur_modCur, State.g_synced, laneVal_eq, completed, hf, hv]
    congr 2
    funext q
    exact Ctx.done_synced q [a, b] (fun q => (q.setMask k _).advance 4) fun q m => Ctx.done_undo_full ((q.setMask k _).advance 4) m
  case bits => simp only [BitVec.getLsbD_ofNat, decide_eq_true hj, Bool.true_and, hbits, Bool.decide_and]

/-! ### Selection and arrangement (R147) -/

/-- PSEL in a lane. -/
theorem laneBits_select (t : Ty) (c : Nat → Bool) (x y : W) {i : Nat} (hi : i < laneCount t) :
    laneBits t (ofLanes (tyWidth t) ((List.range (laneCount t)).map fun i => lane (tyWidth t) (if c i then x else y) i)) i
      = if c i then laneBits t x i else laneBits t y i := by
  rw [laneBits, extractLsb'_ofLanes_map _ hi (tyWidth_mul_laneCount_le t), ofNat_lane, apply_ite (fun z : W => z.extractLsb' _ _)]
  rfl

/-- PSHUF in a byte. -/
theorem extractLsb'_shuffleBytes (x y : W) {j : Nat} (hj : j < 8) :
    (shuffleBytes x y).extractLsb' (8 * j) 8 = if (y.extractLsb' (8 * j) 8).getLsbD 7 then 0#8
      else x.extractLsb' (8 * ((y.extractLsb' (8 * j) 8).toNat % 8)) 8 := by
  simp only [shuffleBytes, natBit_eq]
  rw [extractLsb'_ofLanes_map _ hj (by decide), apply_ite (BitVec.ofNat 8), ofNat_lane, lane_eq]
  rfl

/-- The narrowed lanes of a register, as PPACK makes them. -/
theorem ofNat_satTo (t : Ty) (n : Nat) (v : Int) : BitVec.ofNat n (satTo n (tySigned t) v % 2 ^ n).toNat = .ofInt n (clampTo t n v) := by
  rw [satTo_eq, ofNat_emod_pow]

/-- PPACK in a narrow lane: the first half of the lanes comes from gA, the second from gB. -/
theorem extractLsb'_packLanes (t : Ty) (x y : W) {i : Nat} (hi : i < laneCount t) :
    let n := tyWidth t / 2
    (packLanes t x y).extractLsb' (n * i) n = .ofInt n (clampTo t n (laneInt t x i)) ∧
    (packLanes t x y).extractLsb' (n * (laneCount t + i)) n = .ofInt n (clampTo t n (laneInt t y i)) := by
  intro n
  have hn : n * (laneCount t + laneCount t) ≤ 64 := by
    calc n * (laneCount t + laneCount t) = 2 * n * laneCount t := by rw [← Nat.two_mul, Nat.mul_left_comm, Nat.mul_assoc]
      _ ≤ tyWidth t * laneCount t := Nat.mul_le_mul_right _ (Nat.mul_div_le _ 2)
      _ ≤ 64 := tyWidth_mul_laneCount_le t
  constructor
  · rw [packLanes, extractLsb'_ofLanes (by simp; omega) (by simpa using hn), List.getElem_append_left (by simpa using hi),
      List.getElem_map, List.getElem_range, ofNat_satTo, laneVal_eq]
  · rw [packLanes, extractLsb'_ofLanes (by simp; omega) (by simpa using hn), List.getElem_append_right (by simp),
      List.getElem_map, List.getElem_range, ofNat_satTo, laneVal_eq]
    simp

/-- PUNPK in a wide lane. -/
theorem extractLsb'_unpackLanes (t : Ty) (hi : Bool) (x : W) {i : Nat} (h : i < laneCount t / 2) :
    (unpackLanes t hi x).extractLsb' (2 * tyWidth t * i) (2 * tyWidth t)
      = .ofInt (2 * tyWidth t) (laneInt t x ((if hi then laneCount t / 2 else 0) + i)) := by
  have hn : 2 * tyWidth t * (laneCount t / 2) ≤ 64 := by
    calc 2 * tyWidth t * (laneCount t / 2) = tyWidth t * (2 * (laneCount t / 2)) := by rw [Nat.mul_comm 2, Nat.mul_assoc]
      _ ≤ tyWidth t * laneCount t := Nat.mul_le_mul_left _ (Nat.mul_div_le _ 2)
      _ ≤ 64 := tyWidth_mul_laneCount_le t
  rw [unpackLanes, extractLsb'_ofLanes_map _ h hn, ofNat_emod_pow, laneVal_eq]

/-! ### Sums over lanes (R148) -/

/-- The machine's sum, from any start, runs over the lanes that count. -/
theorem sumLanes_eq (m : Bool) (k : BitVec 8) (l : List Nat) (f : Nat → Int) :
    sumLanes m k l f = ((l.filter fun i => !m || k.getLsbD i).map f).sum := by
  have hfold : ∀ n, l.foldl (fun n i => if m && !k.getLsbD i then n else n + f i) n
      = n + ((l.filter fun i => !m || k.getLsbD i).map f).sum := by
    induction l with
    | nil => simp
    | cons i l ih =>
      intro n
      rw [List.foldl_cons, ih, List.filter_cons]
      cases m <;> cases k.getLsbD i <;> simp [Int.add_assoc]
  rw [sumLanes, hfold, Int.zero_add]

/-- Without a mask all lanes count. -/
theorem sumLanes_unmasked (k : BitVec 8) (l : List Nat) (f : Nat → Int) : sumLanes false k l f = (l.map f).sum := by
  have hall : (l.filter fun i => !false || k.getLsbD i) = l := List.filter_eq_self.mpr fun _ _ => rfl
  rw [sumLanes_eq, hall]

/-- PMAC in an accumulator: k0 leaves it alone, or the products of its half of the lanes are added, modulo 2^32. -/
theorem extractLsb'_macLanes (t : Ty) (m : Bool) (k : BitVec 8) (acc x y : W) {j : Nat} (hj : j < 2) :
    let h := laneCount t / 2
    (macLanes t m k acc x y).extractLsb' (32 * j) 32 = if m = true ∧ k.getLsbD j = false then acc.extractLsb' (32 * j) 32
      else acc.extractLsb' (32 * j) 32
        + BitVec.ofInt 32 (((List.range h).map fun i => laneInt t x (h * j + i) * laneInt t y (h * j + i)).sum) := by
  intro h
  have hsum : sumLanes false k ((List.range h).map (· + h * j)) (fun i => laneVal t x i * laneVal t y i)
      = ((List.range h).map fun i => laneInt t x (h * j + i) * laneInt t y (h * j + i)).sum := by
    simp only [sumLanes_unmasked, List.map_map, Function.comp_def, laneVal_eq, Nat.add_comm]
  rw [macLanes, extractLsb'_ofLanes_map _ hj (by decide), apply_ite (BitVec.ofNat 32), ofNat_lane, ofNat_emod_pow, hsum,
    BitVec.ofInt_add, BitVec.ofInt_natCast, ofNat_lane]
  simp only [Bool.and_eq_true, Bool.not_eq_true']

/-! ### The statement -/

/-- Settles O6: each lane of a result is the manual's lane, by the lemmas above on doubles made of lanes. -/
theorem packedLanes : Obligations.PackedLanes := by
  constructor
  · intro s m t d a b h _
    refine ⟨?padd, ?psub, ?padds, ?psubs, ?pmul, ?pmulh, ?pmin, ?pmax, ?pavg, ?pabs, ?pshl, ?pshr⟩
    case padd => exact writesLanes_of_lanewise h rfl fun j => by simp only [State.g_synced, laneVal_eq]
    case psub => exact writesLanes_of_lanewise h rfl fun j => by simp only [State.g_synced, laneVal_eq]
    case padds => exact writesLanes_of_lanewise h rfl fun j => by simp only [State.g_synced, laneVal_eq, laneSat_eq]
    case psubs => exact writesLanes_of_lanewise h rfl fun j => by simp only [State.g_synced, laneVal_eq, laneSat_eq]
    case pmul => exact writesLanes_of_lanewise h rfl fun j => by simp only [State.g_synced, laneVal_eq]
    case pmulh => exact writesLanes_of_lanewise h rfl fun j => by simp only [State.g_synced, laneVal_eq]
    case pmin => exact writesLanes_of_lanewise h rfl fun j => by simp only [State.g_synced, laneVal_eq, Int.min_def]
    case pmax => exact writesLanes_of_lanewise h rfl fun j => by simp only [State.g_synced, laneVal_eq, Int.max_def]
    case pavg => exact writesLanes_of_lanewise h rfl fun j => by simp only [State.g_synced, laneVal_eq]
    case pabs =>
      exact fun _ => writesLanes_of_lanewise (ready_left h) rfl fun j => by
        simp only [State.g_synced, laneVal_eq, laneSat_eq, natAbs_eq_ite]
    case pshl => exact writesLanes_of_lanewise h rfl fun j => by simp only [State.g_synced, laneShl_eq]
    case pshr => exact writesLanes_of_lanewise h rfl fun j => by simp only [State.g_synced, laneShr_eq]
  · intro s m t d k a b h _ w lanes x y k0
    have ha : Ready s [a] [d] := ready_left h
    refine ⟨?eq, ?ne, ?lt, ?ge, ?psel, ?pshuf, ?ppack, ?lo, ?hi, ?pmac, ?phadd, ?psad⟩
    case eq => exact writesMask_of_packedCmp h rfl (· = ·) Bool.beq_eq_decide_eq
    case ne => exact writesMask_of_packedCmp h rfl (· ≠ ·) fun x y => by rw [bne, Bool.beq_eq_decide_eq, ← decide_not]
    case lt => exact writesMask_of_packedCmp h rfl (· < ·) fun _ _ => rfl
    case ge => exact writesMask_of_packedCmp h rfl (fun x y => y ≤ x) fun _ _ => rfl
    case psel =>
      exact ⟨_, exec_of_compute h rfl (by simp only [State.g_synced, State.k_synced]; rfl), fun i hi => laneBits_select t _ _ _ hi⟩
    case pshuf =>
      exact ⟨_, exec_of_compute h rfl (by simp only [State.g_synced]), fun j hj => extractLsb'_shuffleBytes _ _ hj⟩
    case ppack =>
      exact fun _ => ⟨_, exec_of_compute h rfl (by simp only [State.g_synced]), fun i hi => extractLsb'_packLanes t _ _ hi⟩
    case lo =>
      refine ⟨_, exec_of_compute ha rfl (by simp only [State.g_synced]; rfl), fun i hi => ?_⟩
      rw [extractLsb'_unpackLanes t false _ hi, if_neg Bool.false_ne_true, Nat.zero_add]
    case hi =>
      refine ⟨_, exec_of_compute ha rfl (by simp only [State.g_synced]; rfl), fun i hi => ?_⟩
      rw [extractLsb'_unpackLanes t true _ hi, if_pos rfl]
      rfl
    case pmac =>
      exact fun _ => ⟨_, exec_of_compute_alsoReads h rfl (by simp only [State.g_synced, State.k_synced]; rfl),
        fun j hj => extractLsb'_macLanes t m _ _ _ _ hj⟩
    case phadd =>
      exact exec_of_compute_masked h rfl (by simp only [State.g_synced, State.k_synced, sumLanes_eq, laneVal_eq]; rfl)
    case psad =>
      exact fun _ => exec_of_compute_masked h rfl (by simp only [State.g_synced, State.k_synced, sumLanes_eq, laneVal_eq]; rfl)

end Sys2Proof.Proofs.Packed
end

section
/-! SUPPORT. Stream registers: reads that pop, writes that push, stream control and elements fetched ahead, and the statements about them
(07 R150 to R158). -/

namespace Sys2Proof.Proofs.Streams

open Sys2Proof.Machine Sys2Proof.Spec Sys2Proof.Proofs.Integer

/-! ### Stream registers -/

theorem portOf_streamReg (p : Fin 4) : portOf (streamReg p) = some p := by
  revert p
  decide

theorem bound_streamReg (c : Ctx) (p : Fin 4) : c.bound (streamReg p) = (c.ports[p]).bound := by
  simp only [Ctx.bound, portOf_streamReg]

theorem boundWrite_streamReg (c : Ctx) (p : Fin 4) : c.boundWrite (streamReg p) = ((c.ports[p]).bound && (c.ports[p]).writes) := by
  simp only [Ctx.boundWrite, portOf_streamReg]

/-- A register is a stream register by its port being bound, wherever the port stands. -/
theorem bound_set_port (c : Ctx) (p : Fin 4) (q : Port) (hq : q.bound = (c.ports[p]).bound) (r : Reg) :
    ({ c with ports := c.ports.set p q } : Ctx).bound r = c.bound r := by
  unfold Ctx.bound
  cases portOf r with
  | none => rfl
  | some k =>
    by_cases h : p = k
    · subst h; simpa using hq
    · have h' : p.val ≠ k.val := fun e => h (Fin.ext e)
      simp [Vector.getElem_set_ne, h']

/-- The stream checks of an instruction that writes gD (R156). -/
theorem streamCheck_eq (c : Ctx) (srcs : List Src) (d : Reg) : c.streamCheck srcs (some d) false = (do
    faultIf (srcs.any fun a => a.f && c.bound a.r) .estream 5
    faultIf (srcs.any fun a => c.boundWrite a.r) .estream 6
    faultIf (c.bound d && !c.boundWrite d) .estream 6) := by
  simp [Ctx.streamCheck]

/-- With no synchronised operand nothing is waited for and no full bit changes (R73). -/
theorem syncRead_plain (c : Ctx) {srcs : List Src} (h : ∀ a ∈ srcs, a.f = false) : c.syncRead srcs = .ok c := by
  have hl : syncList srcs = [] := by
    have hf : srcs.filter (·.f) = [] := List.filter_eq_nil_iff.mpr fun a ha => by simp [h a ha]
    simp [syncList, hf]
  simp [Ctx.syncRead, hl]

theorem any_sync_plain {srcs : List Src} (h : ∀ a ∈ srcs, a.f = false) {c : Ctx} : (srcs.any fun a => a.f && c.bound a.r) = false :=
  List.any_eq_false.mpr fun a ha => by simp [h a ha]

/-! ### Pops (R155) -/

section
variable {c : Ctx} {p : Fin 4}

/-- A pop of a port with no element left. -/
theorem pop_spent (h : (c.ports[p]).remain = 0) : c.pop (streamReg p) = .error (.fault .estream 4 0) := by
  simp only [Ctx.pop, portOf_streamReg, faultIf_pos (decide_eq_true h), Act.error_bind]

/-- A pop of a port whose next element has not been fetched. -/
theorem pop_pending (h : (c.ports[p]).remain ≠ 0) (ha : (c.ports[p]).ahead = []) :
    c.pop (streamReg p) = .error (.park .stream (.element p.val)) := by
  simp only [Ctx.pop, portOf_streamReg, faultIf_neg (decide_eq_false h), ha, Act.ok_bind]

theorem pops_single (c : Ctx) (r : Reg) : c.pops [r] = c.pop r := bind_pure (c.pop r)

theorem bump_undo_comm (c : Ctx) (u : Undo) (e n : Nat) : Ctx.bump { c with undo := u } e n = { c.bump e n with undo := u } := by
  unfold Ctx.bump
  split <;> rfl

/-- A pop takes the next element, and keeps what it changed to be given back. -/
theorem pop_val {v : W} {r : List Elem} (h : (c.ports[p]).remain ≠ 0) (ha : (c.ports[p]).ahead = .val v :: r) :
    ∃ u : Undo, u.clamp = c.undo.clamp ∧ c.pop (streamReg p) = .ok { popped c p v with undo := u } := by
  refine ⟨{ c.undo with ports := c.undo.ports ++ [(p.val, c.ports[p], c.g[streamReg p])], pops := c.undo.pops + 1 }, rfl, ?_⟩
  simp only [Ctx.pop, portOf_streamReg, faultIf_neg (decide_eq_false h), ha, Act.ok_bind, Act.pure_eq, popped, ← bump_undo_comm]
  rfl

/-- Completing drops what was kept to be given back, whatever it is. -/
theorem done_undo {u : Undo} (h : u.clamp = c.undo.clamp) : Ctx.done { c with undo := u } = c.done := by
  have hc : Ctx.enterClamp { c with undo := u } = { c.enterClamp with undo := u } := by
    simp only [Ctx.enterClamp, h, bump_undo_comm]
    split <;> rfl
  simp only [Ctx.done, Ctx.tally, hc, bump_undo_comm]

end

/-! ### A stream register as a source (R155, R156)

The instruction reads the stream register first and other registers, which are no stream registers, plainly. -/

section
variable {s : State} {l : List Src} {d : Reg} {p : Fin 4} {i : Instr} {f : State → W} {sync : Bool}

/-- Among the sources the stream register is the only one that is popped. -/
theorem popList_stream {c : Ctx} (hp : (c.ports[p]).bound = true) (hl : ∀ e ∈ l, e.f = false ∧ c.bound e.r = false) :
    c.popList (⟨streamReg p, sync⟩ :: l) = [streamReg p] := by
  have hb : c.bound (streamReg p) = true := (bound_streamReg c p).trans hp
  have hr : ((l.map (·.r)).filter fun r => !r == streamReg p).eraseDups.filter c.bound = [] := by
    refine List.filter_eq_nil_iff.mpr fun r hr => ?_
    obtain ⟨e, he, rfl⟩ := List.mem_map.mp (List.mem_filter.mp (List.mem_eraseDups.mp hr)).1
    simp [(hl e he).2]
  rw [Ctx.popList, List.map_cons, List.eraseDups_cons, List.filter_cons_of_pos hb, hr]

theorem plain_stream {c : Ctx} (hl : ∀ e ∈ l, e.f = false ∧ c.bound e.r = false) :
    ∀ e ∈ ⟨streamReg p, false⟩ :: l, e.f = false :=
  List.forall_mem_cons.mpr ⟨rfl, fun e he => (hl e he).1⟩

variable (hp : (s.cur.ports[p]).bound = true) (hl : ∀ e ∈ l, e.f = false ∧ s.cur.bound e.r = false)
include hp

/-- A synchronised read of a stream. -/
theorem readRegs_stream_sync : s.readRegs (⟨streamReg p, true⟩ :: l) (some d) = .error (.fault .estream 5 0) := by
  have h5 : ((⟨streamReg p, true⟩ :: l).any fun a => a.f && s.cur.bound a.r) = true := by
    rw [List.any_cons, bound_streamReg, hp, Bool.and_self, Bool.true_or]
  simp only [State.readRegs, streamCheck_eq, faultIf_pos h5, Act.error_bind]

/-- An instruction that computes a register with a synchronised read of a stream takes ESTREAM 5. -/
theorem exec_of_compute_sync (hi : exec i s = finish s (s.compute (⟨streamReg p, true⟩ :: l) d 4 f)) :
    exec i s = .next (s.takeFault s.core s.ctx 11 5 0 (.ofNat 64 s.cur.iword.toNat)) := by
  rw [hi, State.compute, readRegs_stream_sync hp]
  rfl

include hl

/-- A read of a write stream. -/
theorem readRegs_stream_write (hw : (s.cur.ports[p]).writes = true) :
    s.readRegs (⟨streamReg p, false⟩ :: l) (some d) = .error (.fault .estream 6 0) := by
  have h6 : ((⟨streamReg p, false⟩ :: l).any fun a => s.cur.boundWrite a.r) = true := by
    rw [List.any_cons, boundWrite_streamReg, hp, hw, Bool.and_self, Bool.true_or]
  simp only [State.readRegs, streamCheck_eq, faultIf_neg (any_sync_plain (plain_stream hl)), faultIf_pos h6, Act.ok_bind,
    Act.error_bind]

/-- A read of a read stream pops it. -/
theorem readRegs_stream (hd : s.cur.bound d = false) (hw : (s.cur.ports[p]).writes = false) :
    s.readRegs (⟨streamReg p, false⟩ :: l) (some d) = (do return s.setCur (← s.cur.pop (streamReg p))) := by
  have h6 : ((⟨streamReg p, false⟩ :: l).any fun a => s.cur.boundWrite a.r) = false := by
    refine List.any_eq_false.mpr (List.forall_mem_cons.mpr ⟨?_, fun e he => ?_⟩)
    · simp only [boundWrite_streamReg, hw, Bool.and_false, Bool.false_eq_true, not_false_eq_true]
    · simp [Ctx.boundWrite_of_unbound (hl e he).2]
  simp only [State.readRegs, streamCheck_eq, faultIf_neg (any_sync_plain (plain_stream hl)), faultIf_neg h6, hd, Bool.false_and,
    faultIf_false, syncRead_plain _ (plain_stream hl), popList_stream hp hl, pops_single, Act.ok_bind, Act.pure_eq]

variable (hi : exec i s = finish s (s.compute (⟨streamReg p, false⟩ :: l) d 4 f))
include hi

/-- With a read of a write stream it takes ESTREAM 6. -/
theorem exec_of_compute_write (hw : (s.cur.ports[p]).writes = true) :
    exec i s = .next (s.takeFault s.core s.ctx 11 6 0 (.ofNat 64 s.cur.iword.toNat)) := by
  rw [hi, State.compute, readRegs_stream_write hp hl hw]
  rfl

variable (hd : s.cur.bound d = false) (hw : (s.cur.ports[p]).writes = false)
include hd hw

/-- With no element left it takes ESTREAM 4. -/
theorem exec_of_compute_spent (h : (s.cur.ports[p]).remain = 0) :
    exec i s = .next (s.takeFault s.core s.ctx 11 4 0 (.ofNat 64 s.cur.iword.toNat)) := by
  rw [hi, State.compute, readRegs_stream hp hl hd hw, pop_spent h]
  rfl

/-- With no element there yet it parks, without effect. -/
theorem exec_of_compute_pending (h : (s.cur.ports[p]).remain ≠ 0) (ha : (s.cur.ports[p]).ahead = []) :
    exec i s = .next (waits s .stream (.element p.val)) := by
  rw [hi, State.compute, readRegs_stream hp hl hd hw, pop_pending h ha]
  rfl

/-- With an element there it takes it, and computes from the registers as the pop leaves them. -/
theorem exec_of_compute_pop {v w : W} {r : List Elem} (h : (s.cur.ports[p]).remain ≠ 0) (ha : (s.cur.ports[p]).ahead = .val v :: r)
    (hv : ∀ t : State, t.cur.g = (s.cur.g.set (streamReg p) v) → f t = w) :
    exec i s = .next (s.modCur fun c => (((popped c p v).setG d w).advance 4).done) := by
  obtain ⟨u, hu, hpop⟩ := pop_val h ha
  have hb : ({ popped s.cur p v with undo := u } : Ctx).bound d = false :=
    (Ctx.bound_congr (by simp [popped]) d).trans ((bound_set_port s.cur p (s.cur.ports[p]).advance rfl d).trans hd)
  have hf : f (s.setCur { popped s.cur p v with undo := u }) = w := hv _ (by simp [popped])
  have hdone : ((({ popped s.cur p v with undo := u } : Ctx).setG d w).advance 4).done
      = (((popped s.cur p v).setG d w).advance 4).done :=
    done_undo (c := ((popped s.cur p v).setG d w).advance 4) (by simp [popped, hu])
  rw [hi, State.compute, readRegs_stream hp hl hd hw, hpop]
  simp only [Act.ok_bind, Act.pure_eq, hf, State.writeReg_unbound w ((congrArg (Ctx.bound · d) (State.cur_setCur _ _)).trans hb),
    finish_ok, State.advance_eq, State.modCur_modCur]
  simp only [State.modCur, State.cur_setCur, State.setCur_setCur, hdone]

end

/-! ### Local accesses (R78, R201) -/

section
variable {s : State}

/-- An access that passes every check of R78 has its address. -/
theorem seg_local {sg : Fin 8} {o : W} {n addr : Nat} {rights : List Right} (h : LocalAccess s sg o n rights addr) :
    s.seg sg o n n rights = .ok (true, addr) := by
  obtain ⟨hk, hl, hr, hp, rfl, ha⟩ := h
  have hr' : (rights.any fun q => !s.cur.sgl[sg].getLsbD q.bit) = false := List.any_eq_false.mpr fun q hq => by rw [hr q hq]; decide
  simp only [State.seg, segCheck, hk, hr', ha, Nat.not_lt.mpr hl, Nat.not_lt.mpr hp, faultIf_false, Act.ok_bind, Act.pure_eq, and_false,
    Nat.one_ne_zero, false_and, ne_eq, not_true_eq_false, decide_false, decide_true, ge_iff_le, Nat.reduceLeDiff]

/-- A tile that is open lets an access pass. -/
theorem tileGate_open {addr : Nat} (h : TileOpen s addr) : s.tileGate addr = .ok () := by
  unfold State.tileGate
  rcases h with h | ⟨hs, hr⟩
  · rw [if_pos h]
  · simp only [hs, hr, Option.isSome_none, Bool.false_eq_true, if_false, if_true, ite_self]

/-- A change of the executing context changes no tile. -/
theorem tileGate_modCur (f : Ctx → Ctx) (addr : Nat) : (s.modCur f).tileGate addr = s.tileGate addr := by
  simp only [State.tileGate, State.here_modCur]
  rfl

theorem seg_setCur_cur (sg : Fin 8) (o : W) (n al : Nat) (r : List Right) : (s.setCur s.cur).seg sg o n al r = s.seg sg o n al r := by
  simp only [State.seg, State.cur_setCur]

/-- A store into the scratchpad does not meet a change of the executing context. -/
theorem padStore_setCur (c : Ctx) (a n v : Nat) :
    (s.setCur c).padStore s.core a n v = (s.padStore s.core a n v).setCur c := by
  simp [State.padStore, State.modCore, State.setCur, State.setCtxAt, CoreSt.setCtx]

theorem cur_padStore (a n v : Nat) : (s.padStore s.core a n v).cur = s.cur := by
  simp [State.padStore, State.cur, State.ctxAt]

end

/-! ### A stream register as the destination of MOV (R155, R156) -/

/-- Of one plain source that is no stream register the destination alone is checked. -/
theorem streamCheck_plain {c : Ctx} {a : Reg} (ha : c.bound a = false) (d : Reg) :
    c.streamCheck [⟨a, false⟩] (some d) false = faultIf (c.bound d && !c.boundWrite d) .estream 6 := by
  simp only [streamCheck_eq, List.any_cons, List.any_nil, Bool.false_and, Bool.or_false, Ctx.boundWrite_of_unbound ha, faultIf_false,
    Act.ok_bind]

section
variable {s : State} {p : Fin 4} {a : Reg} (hp : (s.cur.ports[p]).bound = true) (ha : s.cur.bound a = false)
include hp ha

theorem execMov_streamReg_read (hw : (s.cur.ports[p]).writes = false) :
    exec (.mov (streamReg p) ⟨a, false⟩) s = .next (s.takeFault s.core s.ctx 11 6 0 (.ofNat 64 s.cur.iword.toNat)) := by
  change finish s (s.compute [⟨a, false⟩] (streamReg p) 4 fun r => r.g a) = _
  have hd : (s.cur.bound (streamReg p) && !s.cur.boundWrite (streamReg p)) = true := by
    simp only [bound_streamReg, boundWrite_streamReg, hp, hw, Bool.and_false, Bool.not_false, Bool.and_self]
  simp only [State.compute, State.readRegs, streamCheck_plain ha, faultIf_pos hd, Act.error_bind]
  rfl

variable (hw : (s.cur.ports[p]).writes = true)
include hw

/-- MOV to a register bound to a write stream pushes. -/
theorem execMov_streamReg_write : exec (.mov (streamReg p) ⟨a, false⟩) s
    = finish s (do return (← (s.setCur s.cur).push (streamReg p) p (s.g a)).advance 4) := by
  change finish s (s.compute [⟨a, false⟩] (streamReg p) 4 fun r => r.g a) = _
  have hd : (s.cur.bound (streamReg p) && !s.cur.boundWrite (streamReg p)) = false := by
    simp only [boundWrite_streamReg, hp, hw, Bool.and_self, Bool.not_true, Bool.and_false]
  have hl : s.cur.popList [⟨a, false⟩] = [] := Ctx.popList_ready rfl (List.forall_mem_singleton.mpr ha)
  have hg : (s.setCur s.cur).g a = s.g a := by simp only [State.g, State.cur_setCur]
  have h5 : ∀ e ∈ [(⟨a, false⟩ : Src)], e.f = false := List.forall_mem_singleton.mpr rfl
  simp only [State.compute, State.readRegs, streamCheck_plain ha, faultIf_neg hd, syncRead_plain _ h5, hl, Ctx.pops, Act.ok_bind,
    Act.pure_eq, hg, State.writeReg, portOf_streamReg, State.cur_setCur, hp, if_true]

/-- With no element left it takes ESTREAM 4. -/
theorem execMov_streamReg_spent (h : (s.cur.ports[p]).remain = 0) :
    exec (.mov (streamReg p) ⟨a, false⟩) s = .next (s.takeFault s.core s.ctx 11 4 0 (.ofNat 64 s.cur.iword.toNat)) := by
  rw [execMov_streamReg_write hp ha hw]
  simp only [State.push, State.cur_setCur, faultIf_pos (decide_eq_true h), Act.error_bind]
  rfl

/-- An element of a stream into a tile that is open is stored there. -/
theorem execMov_streamReg_push (h : (s.cur.ports[p]).remain ≠ 0) {addr : Nat}
    (hs : LocalAccess s (s.cur.ports[p]).sg ((s.cur.ports[p]).offset (s.cur.ports[p]).i0 (s.cur.ports[p]).i1)
      (szBytes (s.cur.ports[p]).sz) [.w] addr) (ho : TileOpen s addr) (hc : 0x0800 ≤ addr) :
    exec (.mov (streamReg p) ⟨a, false⟩) s = .next ((s.padStore s.core addr (szBytes (s.cur.ports[p]).sz)
      ((s.g a).toNat % 2 ^ (8 * szBytes (s.cur.ports[p]).sz))).modCur fun c =>
        ((({ c with ports := c.ports.set p (s.cur.ports[p]).advance }.setG (streamReg p) (s.g a)).bump 10 1).advance 4).done) := by
  rw [execMov_streamReg_write hp ha hw]
  have hg : (s.setCur s.cur).tileGate addr = .ok () := (tileGate_modCur id addr).trans (tileGate_open ho)
  have hn : ¬ addr < 0x0800 := Nat.not_lt.mpr hc
  simp only [State.push, State.cur_setCur, faultIf_neg (decide_eq_false h), seg_setCur_cur, seg_local hs, State.store, State.windowGuard,
    hn, false_and, decide_false, faultIf_false, hg, if_true, Act.ok_bind, Act.pure_eq, finish_ok, State.advance_eq,
    State.setCur_core, padStore_setCur, State.modCur_setCur, lowBits]
  simp only [State.modCur, cur_padStore]

end

/-! ### The first statement -/

/-- Settles O12: MOV and ADD both compute one register from a stream register and others, and MOV to a stream register pushes. -/
theorem streamOperands : Obligations.StreamOperands := by
  constructor
  · intro s t d p b hp hd hb q a fault
    have h0 : ∀ e ∈ ([] : List Src), e.f = false ∧ s.cur.bound e.r = false := List.forall_mem_nil _
    have h1 : ∀ e ∈ [(⟨b, false⟩ : Src)], e.f = false ∧ s.cur.bound e.r = false := List.forall_mem_singleton.mpr ⟨rfl, hb⟩
    have hne : streamReg p ≠ b := by
      rintro rfl
      rw [bound_streamReg, hp] at hb
      cases hb
    have hne' : (streamReg p).val ≠ b.val := fun e => hne (Fin.ext e)
    refine ⟨fun v r hw hr ha => ⟨?mov, ?add⟩, fun hw hr ha => ⟨?movPark, ?addPark⟩, fun hw hr => ⟨?mov4, ?add4⟩,
      ⟨?mov5, ?add5⟩, fun hw => ⟨?mov6, ?add6⟩⟩
    case mov => exact exec_of_compute_pop hp h0 rfl hd hw hr ha fun t ht => by simp [State.g, ht, a]
    case add =>
      exact exec_of_compute_pop hp h1 rfl hd hw hr ha fun t ht => by
        simp [State.g, ht, a, tyVal_eq, tyPut_eq, Vector.getElem_set_ne, hne']
    case movPark => exact exec_of_compute_pending hp h0 rfl hd hw hr ha
    case addPark => exact exec_of_compute_pending hp h1 rfl hd hw hr ha
    case mov4 => exact exec_of_compute_spent hp h0 rfl hd hw hr
    case add4 => exact exec_of_compute_spent hp h1 rfl hd hw hr
    case mov5 => exact exec_of_compute_sync hp rfl
    case add5 => exact exec_of_compute_sync hp rfl
    case mov6 => exact exec_of_compute_write hp h0 rfl hw
    case add6 => exact exec_of_compute_write hp h1 rfl hw
  · intro s p a hp ha q d fault
    refine ⟨?push, ?spent, ?read⟩
    case push => exact fun hw hr addr hs ho hc => execMov_streamReg_push hp ha hw hr hs ho hc
    case spent => exact fun hw hr => execMov_streamReg_spent hp ha hw hr
    case read => exact fun hw => execMov_streamReg_read hp ha hw

/-! ### Stream control (R154) -/

/-- A completed instruction that reads no register clears no full bit. -/
theorem completed_nil (s : State) (len : Nat) (f : Ctx → Ctx) : completed s [] len f = s.modCur fun c => (f (c.advance len)).done := by
  have hm : ∀ x : BitVec 16, x &&& ~~~(syncMask []) = x := fun _ => BitVec.and_allOnes
  simp only [completed, hm]
  rfl

/-- An instruction that has read its operands, and only changes a port, completes so. -/
theorem finish_setPort (s : State) (srcs : List Src) (p : Fin 4) (v : Port) :
    finish s (.ok (((s.modCur fun c => synced c srcs).setPort p v).advance 4))
      = .next (completed s srcs 4 fun c => { c with ports := c.ports.set p v }) := by
  simp only [finish_ok, State.setPort, State.advance_eq, State.modCur_modCur, completed]
  congr 2
  funext c
  exact Ctx.done_synced c srcs (fun c => ({ c with ports := c.ports.set p v } : Ctx).advance 4)
    fun c m => Ctx.done_undo_full (({ c with ports := c.ports.set p v } : Ctx).advance 4) m

section
variable {s : State} {k : Reg} {p : Fin 4} (hk : p = Fin.ofNat 4 k.val)
include hk

/-- SCFG of a port that is not bound, from a local segment, reads the descriptor there. -/
theorem execScfg_local {sg : Fin 8} {a : Src} {addr : Nat} (h : Ready s [a] []) (hb : (s.cur.ports[p]).bound = false)
    (hs : LocalAccess s sg (s.g a.r) 32 [.r] addr) (ho : TileOpen s addr)
    (hd : streamDescOk (Memory.load s.here.pad addr 32) = true) :
    exec (.scfg sg a k) s = .next (completed s [a] 4 fun c =>
      { c with ports := c.ports.set p (configured (Memory.load s.here.pad addr 32)) }) := by
  subst hk
  have hg : (s.modCur fun c => synced c [a]).seg sg (s.g a.r) 32 32 [.r] = s.seg sg (s.g a.r) 32 32 [.r] := by
    simp only [State.seg, State.sgb_synced, State.sgl_synced]
  change execScfg sg a k s = _
  simp only [execScfg, State.readRegs_of_ready h none false (by simp), Act.ok_bind, State.cur_modCur, synced_ports, faultIf_neg hb,
    State.g_synced, hg, seg_local hs, if_true, tileGate_open ho, State.pad_modCur, hd, Bool.not_true, faultIf_false, Act.pure_eq,
    finish_setPort]

/-- From memory it leaves a request to read it, whose translation begins with a walk. -/
theorem execScfg_global {sg : Fin 8} {a : Src} {addr : Nat} (h : Ready s [a] []) (hb : (s.cur.ports[p]).bound = false)
    (hs : s.seg sg (s.g a.r) 32 32 [.r] = .ok (false, addr)) (ht : s.here.stashAt s.cur.comp addr = none)
    (hu : s.cur.giveUp ≠ some (addr / 65536)) (hh : s.held s.core addr = none) :
    exec (.scfg sg a k) s = .next (asked s [a] .mem (.desc p.val addr .walk) 4) := by
  subst hk
  have hg : (s.modCur fun c => synced c [a]).seg sg (s.g a.r) 32 32 [.r] = s.seg sg (s.g a.r) 32 32 [.r] := by
    simp only [State.seg, State.sgb_synced, State.sgl_synced]
  have ht' : (s.modCur fun c => synced c [a]).here.stashAt s.cur.comp addr = none := by
    rw [State.here_modCur]
    exact ht
  have hx : (s.modCur fun c => synced c [a]).startXl addr { r := true } = .ok .walk := by
    have hh' : (s.modCur fun c => synced c [a]).held s.core addr = none := hh
    simp only [State.startXl, State.cur_modCur, synced_giveUp, hu, if_false, State.modCur_core, hh']
  change execScfg sg a k s = _
  simp only [execScfg, State.readRegs_of_ready h none false (by simp), Act.ok_bind, State.cur_modCur, synced_ports, faultIf_neg hb,
    State.g_synced, hg, hs, Bool.false_eq_true, if_false, synced_comp, ht', hx, finish_hold]

/-- SCFG of a bound port takes ESTREAM 1. -/
theorem execScfg_bound {sg : Fin 8} {a : Src} (h : Ready s [a] []) (hb : (s.cur.ports[p]).bound = true) :
    exec (.scfg sg a k) s = .next (s.takeFault s.core s.ctx 11 1 0 (.ofNat 64 s.cur.iword.toNat)) := by
  subst hk
  change execScfg sg a k s = _
  simp only [execScfg, State.readRegs_of_ready h none false (by simp), Act.ok_bind, State.cur_modCur, synced_ports, faultIf_pos hb,
    Act.error_bind]
  rfl

/-- SBIND of a bound port takes ESTREAM 1. -/
theorem execSbind_bound (hb : (s.cur.ports[p]).bound = true) :
    exec (.sbind k) s = .next (s.takeFault s.core s.ctx 11 1 0 (.ofNat 64 s.cur.iword.toNat)) := by
  subst hk
  change execSbind k s = _
  simp only [execSbind, faultIf_pos hb, Act.error_bind]
  rfl

/-- SBIND of a port that is not configured takes ESTREAM 2. -/
theorem execSbind_unconfigured (hb : (s.cur.ports[p]).bound = false) (hc : (s.cur.ports[p]).cfg = false) :
    exec (.sbind k) s = .next (s.takeFault s.core s.ctx 11 2 0 (.ofNat 64 s.cur.iword.toNat)) := by
  subst hk
  change execSbind k s = _
  simp only [execSbind, faultIf_neg hb, hc, Bool.not_false, faultIf_pos rfl, Act.ok_bind, Act.error_bind]
  rfl

/-- SBIND of another port binds it, with no element fetched. -/
theorem execSbind_ready (hb : (s.cur.ports[p]).bound = false) (hc : (s.cur.ports[p]).cfg = true) :
    exec (.sbind k) s = .next (completed s [] 4 fun c =>
      { c with ports := c.ports.set p { s.cur.ports[p] with bound := true, ahead := [], gone := none, page := none } }) := by
  subst hk
  change execSbind k s = _
  simp only [execSbind, faultIf_neg hb, hc, Bool.not_true, faultIf_false, Act.ok_bind, Act.pure_eq, finish_ok, State.setPort,
    State.advance_eq, State.modCur_modCur, completed_nil]
  rfl

/-- SSTOP of a bound port lets it go, drops what was fetched ahead and makes the register full. -/
theorem execSstop_bound (hb : (s.cur.ports[p]).bound = true) :
    exec (.sstop k) s = .next (completed s [] 4 fun c =>
      { c with ports := c.ports.set p { s.cur.ports[p] with bound := false, ahead := [], gone := none, page := none }
               full := c.full ||| (1#16 <<< (8 + p.val)) }) := by
  subst hk
  change execSstop k s = _
  simp only [execSstop, hb, if_true, Act.pure_eq, finish_ok, State.setPort, State.advance_eq, State.modCur_modCur, completed_nil]
  rfl

/-- SSTOP of a port that is not bound only moves on. -/
theorem execSstop_unbound (hb : (s.cur.ports[p]).bound = false) : exec (.sstop k) s = .next (completed s [] 4 id) := by
  subst hk
  change execSstop k s = _
  simp only [execSstop, hb, Bool.false_eq_true, if_false, Act.pure_eq, finish_ok, State.advance_eq, State.modCur_modCur, completed_nil]
  rfl

end

/-! ### Elements fetched ahead (R155, R157) -/

/-- An element is extended as its SZ code says (R63, R152). -/
theorem streamExtend_eq (z n : Nat) : streamExtend z n = elementValue z n := by
  have hw : 8 * szBytes z = 8 * 2 ^ (z % 4) := rfl
  have hp : 0 < 8 * 2 ^ (z % 4) := Nat.mul_pos (by decide) (Nat.two_pow_pos _)
  simp only [streamExtend, extend, elementValue, toNat_emod_pow, hw, BitVec.ofInt_natCast, ge_iff_le, decide_eq_true_eq]
  split
  · rw [signedOf_eq hp (BitVec.isLt _), BitVec.ofNat_toNat, BitVec.setWidth_eq, BitVec.signExtend]
  · rw [BitVec.ofInt_natCast, BitVec.ofNat_toNat]

/-- The next element of a bound read stream from a tile that is open joins those that are there. -/
theorem fetchElement_local {s : State} {p : Fin 4} {q : Port} {addr : Nat} (hq : s.cur.ports[p] = q) (hb : q.bound = true)
    (hw : q.writes = false) (h8 : q.ahead.length < 8) (hr : q.ahead.length < q.remain)
    (hs : let i := q.skip q.ahead.length (q.i0, q.i1)
          LocalAccess s q.sg (q.offset i.1 i.2) (szBytes q.sz) [.r] addr) (ho : TileOpen s addr) :
    s.fetchElement p = some (s.addAhead p (.val (elementValue q.sz (Memory.load s.here.pad addr (szBytes q.sz))))) := by
  simp only [State.fetchElement, hq, hb, hw, Nat.not_le.mpr h8, Nat.not_le.mpr hr, seg_local hs, tileGate_open ho, streamExtend_eq,
    Bool.not_true, Bool.or_false, decide_false, Bool.false_eq_true, if_false]

/-- A step on a context that is not FREE, of a core that is not saved, fetches its next element. -/
theorem exec_streamElementArrival {s : State} (hf : (s.ctxAt s.ev.g (ctxNo s.ev.x)).st ≠ .free) (ha : (s.coreAt s.ev.g).away = none) :
    exec .streamElementArrival s
      = event s (((s.focus s.ev.g (ctxNo s.ev.x)).fetchElement (Fin.ofNat 4 s.ev.n)).map (·.refocus s)) := by
  change execStreamElementArrival s = _
  unfold execStreamElementArrival
  split
  · next h => exact absurd h hf
  · next h _ => cases ha.symm.trans h
  · rfl

/-- A context that waits for an element may issue exactly when one is there. -/
theorem active_of_parked_element {s : State} {g : Nat} {x : Fin 16} {p : Fin 4} (h : (s.ctxAt g x).st = .parked (.element p.val)) :
    s.active g x = true ↔ ((s.ctxAt g x).ports[p]).ahead ≠ [] := by
  have hp : (Fin.ofNat 4 p.val : Fin 4) = p := by simp
  rw [State.active, h]
  change (!((s.ctxAt g x).ports[(Fin.ofNat 4 p.val : Fin 4)]).ahead.isEmpty) = true ↔ _
  simp only [hp, Bool.not_eq_true', List.isEmpty_eq_false_iff]

/-! ### The second statement -/

/-- Settles O13: each instruction of stream control by its lemma above; an element joins through the fetch of its context. -/
theorem streams : Obligations.Streams := by
  refine ⟨?control, ?arrival, fun s g x p h => active_of_parked_element h⟩
  case control =>
    intro s k p hk q fault
    refine ⟨?scfg, ?scfgBound, ?sbindBound, ?sbindUnconfigured, ?sbind, ?sstop, ?sstopUnbound, ?scnt⟩
    case scfg =>
      intro sg a h hb
      exact ⟨fun addr hs ho hd => execScfg_local hk h hb hs ho hd, fun addr hs ht hu hh => execScfg_global hk h hb hs ht hu hh⟩
    case scfgBound => exact fun sg a h hb => execScfg_bound hk h hb
    case sbindBound => exact execSbind_bound hk
    case sbindUnconfigured => exact execSbind_unconfigured hk
    case sbind => exact execSbind_ready hk
    case sstop => exact execSstop_bound hk
    case sstopUnbound => exact execSstop_unbound hk
    case scnt =>
      subst hk
      exact fun d h => exec_of_compute h rfl (by simp only [State.cur_modCur, synced_ports]; rfl)
  case arrival =>
    intro s p g x f q hf ha hp hb hw h8 hr addr hs ho e
    have hfetch : f.fetchElement (Fin.ofNat 4 s.ev.n) = some (f.addAhead p e) := by
      rw [← hp]
      exact fetchElement_local rfl hb hw h8 hr hs ho
    rw [exec_streamElementArrival hf ha, hfetch]
    rfl

end Sys2Proof.Proofs.Streams
end

section
/-! SUPPORT. Scalar and packed floating point in the manual's terms, and the statements about those instructions (08 R173 to R179, R185). -/

namespace Sys2Proof.Proofs.Floating

open Sys2Proof.Machine Sys2Proof.Spec Sys2Proof.Proofs.Integer Sys2Proof.Proofs.Packed

/-! ### What the operands of a floating instruction are -/

section
variable (s : State) (srcs : List Src) (t : Ty)

/-- Reading the operands leaves the pattern of a source as it was (R173). -/
theorem fsrc_synced (r : Reg) : (s.modCur fun c => synced c srcs).fsrc t r = bits t (s.g r) := by
  rw [State.fsrc, State.g_synced, lowBits_eq]

/-- Reading the operands leaves the rounding mode and the flush mode as they were (R83). -/
theorem fenv_synced : (s.modCur fun c => synced c srcs).fenv t = fenv t s.cur.fpc := by
  rw [State.fenv, State.fpc_synced]

end

/-! ### Instructions that compute one register and flags -/

section
variable {s : State} {srcs : List Src} {a b : Src} {d : Reg} {m n7 : Bool} {t : Ty} {i : Instr} {f : State → W × FFlags} {r : W × FFlags}

/-- An instruction whose meaning is to compute a register with flags from operands that are ready does so and completes (R170). -/
theorem exec_of_computeF (h : Ready s srcs [d]) (hi : exec i s = finish s (s.computeF srcs d n7 f))
    (hv : f (s.modCur fun c => synced c srcs) = r) : exec i s = .next (wroteF s srcs d r) :=
  hi.trans (computeF_ready h hv)

/-- The same for an instruction that reads its destination too (R71). -/
theorem exec_of_computeF_alsoReads (h : Ready s srcs [d]) (hi : exec i s = finish s (s.computeF (alsoReads d srcs) d n7 f))
    (hv : f (s.modCur fun c => synced c (alsoReads d srcs)) = r) : exec i s = .next (wroteF s srcs d r) := by
  rw [exec_of_computeF (ready_alsoReads h) hi hv]
  simp only [wroteF, completed, syncMask_alsoReads]

/-- The same for a masked form, which reads gD, and its plain form, which does not (R145). -/
theorem exec_of_computeF_masked (h : Ready s srcs [d]) (hi : exec i s = finish s (s.computeF (maskedSrcs m d srcs) d n7 f))
    (hv : f (s.modCur fun c => synced c (maskedSrcs m d srcs)) = r) : exec i s = .next (wroteF s srcs d r) := by
  cases m with
  | false => exact exec_of_computeF h hi hv
  | true => exact exec_of_computeF_alsoReads h hi hv

/-- A floating instruction of two operands writes the pattern of its operation (R173). -/
theorem exec_of_float2 {op : FEnv → Nat → Nat → FRes} (h : Ready s [a, b] [d]) (hi : exec i s = finish s (s.float2 t d a b op)) :
    exec i s = .next (wroteF s [a, b] d (pattern (op (fenv t s.cur.fpc) (bits t (s.g a.r)) (bits t (s.g b.r))))) :=
  exec_of_computeF h hi (by simp only [fsrc_synced, fenv_synced, asReg, pattern])

/-- A floating compare writes the truth of its relation (R173). -/
theorem exec_of_floatCmp {rel : FRel} (h : Ready s [a, b] [d]) (hi : exec i s = finish s (s.floatCmp t d a b rel)) :
    let v := (fenv t s.cur.fpc).cmp rel (bits t (s.g a.r)) (bits t (s.g b.r))
    exec i s = .next (wroteF s [a, b] d (if v.1 then 1 else 0, v.2)) :=
  exec_of_computeF h hi (by simp only [fsrc_synced, fenv_synced, setIf])

end

/-- Settles O7: the operands are the manual's patterns, and each operation is the format's own. -/
theorem scalarFloat : Obligations.ScalarFloat := by
  intro s t z o d a b h v x y truth
  have ha : Ready s [a] [d] := ready_left h
  refine ⟨?fadd, ?fsub, ?fmul, ?ffma, ?fmin, ?fmax, ?fabs, ?fneg, ?eq, ?lt, ?le, ?un, ?frnd, ?fclass, ?fcvt⟩
  case fadd => exact exec_of_float2 (op := FEnv.add) h rfl
  case fsub => exact exec_of_float2 (op := FEnv.sub) h rfl
  case fmul => exact exec_of_float2 (op := FEnv.mul) h rfl
  case ffma => exact exec_of_computeF_alsoReads h rfl (by simp only [fsrc_synced, fenv_synced]; rfl)
  case fmin => exact exec_of_float2 (op := fun v => v.pickOf false) h rfl
  case fmax => exact exec_of_float2 (op := fun v => v.pickOf true) h rfl
  case fabs => exact exec_of_compute ha rfl (by simp only [fsrc_synced]; rfl)
  case fneg => exact exec_of_compute ha rfl (by simp only [fsrc_synced]; rfl)
  case eq => exact exec_of_floatCmp h rfl
  case lt => exact exec_of_floatCmp h rfl
  case le => exact exec_of_floatCmp h rfl
  case un => exact exec_of_floatCmp h rfl
  case frnd => exact exec_of_computeF ha rfl (by simp only [fsrc_synced, fenv_synced]; rfl)
  case fclass => exact exec_of_compute ha rfl (by simp only [fsrc_synced]; rfl)
  case fcvt => exact exec_of_computeF ha rfl (by simp only [State.g_synced, State.fpc_synced])

/-! ### Packed floating instructions (R178) -/

section
variable (t : Ty) (m : Bool) (k : BitVec 8) (old : W) (f : Nat → FRes)

/-- A lane that counts has the operation's pattern, and a lane that k0 leaves out keeps its contents (R178). -/
theorem laneBits_packedFloat {j : Nat} (hj : j < laneCount t) :
    laneBits t (packedFloat t m k old f).1 j = if !m || k.getLsbD j then BitVec.ofNat (tyWidth t) (f j).1 else laneBits t old j := by
  rw [laneBits, packedFloat, List.map_map, ← laneCount, extractLsb'_ofLanes_map _ hj (tyWidth_mul_laneCount_le t), Function.comp_apply]
  cases m <;> cases k.getLsbD j
  case true.false => exact ofNat_lane _ old j
  all_goals rfl

/-- A flag of results that are set together is set where one of them sets it (R170). -/
theorem flag_foldl_or {p : FFlags → Bool} (hor : ∀ x y, p (x.or y) = (p x || p y)) (l : List FRes) (x : FFlags) :
    p (l.foldl (fun x r => x.or r.2) x) = (p x || l.any fun r => p r.2) := by
  induction l generalizing x with
  | nil => simp
  | cons r l ih => rw [List.foldl_cons, ih, hor, List.any_cons, Bool.or_assoc]

/-- A flag is set where a lane that counts sets it (R178). -/
theorem flag_packedFloat {p : FFlags → Bool} (h0 : p {} = false) (hor : ∀ x y, p (x.or y) = (p x || p y)) :
    p (packedFloat t m k old f).2 = (List.range (laneCount t)).any fun j => (!m || k.getLsbD j) && p (f j).2 := by
  have hlane : ∀ j, p (if m && !k.getLsbD j then (lane (tyWidth t) old j, {}) else f j).2 = ((!m || k.getLsbD j) && p (f j).2) := by
    intro j
    cases m <;> cases k.getLsbD j
    case true.false => exact h0
    all_goals rfl
  rw [packedFloat, flag_foldl_or hor, h0, Bool.false_or, List.any_map]
  simp only [Function.comp_def, hlane]
  rfl

end

section
variable {s : State} {srcs : List Src} {a b : Src} {d : Reg} {m : Bool} {t : Ty} {i : Instr}

/-- An instruction that leaves the packed result in gD works in every lane as the manual says. -/
theorem writesFloatLanes_of_packedFloat {f : Nat → FRes}
    (h : exec i s = .next (wroteF s srcs d (packedFloat t m (s.cur.k[(0 : Fin 4)]) (s.g d) f))) : WritesFloatLanes s i srcs m t d f :=
  ⟨_, h, fun _ hj => laneBits_packedFloat t m _ _ f hj,
    flag_packedFloat t m _ _ f (p := FFlags.nv) rfl fun _ _ => rfl, flag_packedFloat t m _ _ f (p := FFlags.dz) rfl fun _ _ => rfl,
    flag_packedFloat t m _ _ f (p := FFlags.ov) rfl fun _ _ => rfl, flag_packedFloat t m _ _ f (p := FFlags.uf) rfl fun _ _ => rfl,
    flag_packedFloat t m _ _ f (p := FFlags.nx) rfl fun _ _ => rfl⟩

/-- A packed floating instruction of two operands works in every lane as its operation does (R178). -/
theorem writesFloatLanes_of_pfloat2 {op : FEnv → Nat → Nat → FRes} (h : Ready s [a, b] [d])
    (hi : exec i s = finish s (s.pfloat2 m t d a b op)) :
    WritesFloatLanes s i [a, b] m t d fun j =>
      op (fenv t s.cur.fpc) (laneBits t (s.g a.r) j).toNat (laneBits t (s.g b.r) j).toNat := by
  refine writesFloatLanes_of_packedFloat (exec_of_computeF_masked h hi ?value)
  simp only [State.g_synced, State.k_synced, fenv_synced, lane_eq]
  rfl

end

/-- PFCVT reads the sources that its pair of types uses, and converts their lanes (R179). -/
theorem exec_pfcvt {s : State} {srcs : List Src} {a b : Src} {d : Reg} {o : Bool} {t z : Ty} (h : Ready s srcs [d])
    (hs : (if pfcvtUsesB t z then [a, b] else [a]) = srcs) :
    exec (.pfcvt o t z d a b) s = .next (wroteF s srcs d (packedConvert o t z s.cur.fpc (s.g a.r) (s.g b.r))) := by
  subst hs
  exact exec_of_computeF h rfl (by simp only [State.g_synced, State.fpc_synced])

/-- DSEXP in a lane: eight times the weight of a byte of the half it names (R185). -/
theorem extractLsb'_expandWeights (x : W) (lo : Nat) {j : Nat} (hj : j < 4) :
    (ofLanes 16 ((List.range 4).map fun j => (ds8Eighths (lane 8 x (lo + j)) % (65536 : Int)).toNat)).extractLsb' (16 * j) 16
      = BitVec.ofInt 16 (ds8Eighths (x.extractLsb' (8 * (lo + j)) 8).toNat) := by
  rw [extractLsb'_ofLanes_map _ hj (by decide), lane_eq]
  exact ofNat_emod_pow 16 _

/-- Settles O8: a packed result is made of lanes that are each rounded and flagged alone. -/
theorem packedFloat : Obligations.PackedFloat := by
  intro s m o t z d a b h v x y c
  have ha : Ready s [a] [d] := ready_left h
  refine ⟨fun _ => ⟨?pfadd, ?pfmul, ?pfmax, ?pffma⟩, ?narrowing, ?other, ?dsexp⟩
  case pfadd => exact writesFloatLanes_of_pfloat2 (op := FEnv.add) h rfl
  case pfmul => exact writesFloatLanes_of_pfloat2 (op := FEnv.mul) h rfl
  case pfmax => exact writesFloatLanes_of_pfloat2 (op := fun v => v.pickOf true) h rfl
  case pffma =>
    refine writesFloatLanes_of_packedFloat (exec_of_computeF_alsoReads h rfl ?value)
    simp only [State.g_synced, State.k_synced, fenv_synced, lane_eq]
    rfl
  case narrowing => exact fun hb => exec_pfcvt h (if_pos hb)
  case other => exact fun hb => exec_pfcvt ha (if_neg (Bool.eq_false_iff.mp hb))
  case dsexp =>
    exact ⟨_, exec_of_compute ha rfl (by simp only [State.g_synced]), fun j hj => extractLsb'_expandWeights _ _ hj⟩

end Sys2Proof.Proofs.Floating
end

section
/-! SUPPORT. Self-describing blocks: operands that pass their checks, an operation in flight and its end, and the statement about the block
operations (08 R167, R168, R181 to R186). -/

namespace Sys2Proof.Proofs.Blocks

open Sys2Proof.Machine Sys2Proof.Spec Sys2Proof.Proofs.Integer Sys2Proof.Proofs.Streams Sys2Proof.Proofs.Floating

/-! ### Operands (R181) -/

section
variable {s : State} {n : Nat}

/-- Bytes that may each be accessed pass the gate of their tiles together. -/
theorem tileGates_open {addr : Nat} (hn : 0 < n) (h : ∀ i, i < n → TileOpen s (addr + i)) : s.tileGates addr n = .ok () := by
  have hlast : TileOpen s (addr + n - 1) := Nat.add_sub_assoc hn addr ▸ h (n - 1) (Nat.sub_lt hn Nat.one_pos)
  have hstash : ¬ (0x0800 ≤ addr + n - 1 ∧ (s.here.tileAt (addr + n - 1)).stash.isSome ∧
      ((s.here.tileAt addr).stash.isNone ∨ addr < 0x0800)) := by
    rintro ⟨hlo, hs, -⟩
    rcases hlast with hlt | ⟨hnone, -⟩
    · exact Nat.not_lt.mpr hlo hlt
    · rw [hnone] at hs
      cases hs
  have hfirst : s.tileGate addr = .ok () := tileGate_open (h 0 hn)
  simp only [State.tileGates, decide_eq_false hstash, faultIf_false, hfirst, tileGate_open hlast, Act.ok_bind, Act.pure_eq, ite_self]

/-- A good operand passes its checks and gives its address. -/
theorem blockOperand_good {a : W} {align lo : Nat} (hn : 0 < n) (h : GoodBlock s a n align lo) :
    s.blockOperand a n align lo = .ok a.toNat := by
  obtain ⟨hlo, hhi, hal, htiles⟩ := h
  have hopen : ∀ i, i < n → TileOpen s (a.toNat + i) := fun i hi => (Nat.lt_or_ge (a.toNat + i) 0x0800).imp id (htiles i hi)
  have hrange : ¬ (a.toNat < lo ∨ a.toNat + n > 0x6000) := by omega
  simp only [State.blockOperand, decide_eq_false hrange, hal, ne_eq, not_true_eq_false, decide_false, faultIf_false, Act.ok_bind,
    tileGates_open hn hopen, Act.pure_eq]

/-- A change of the executing context changes no block operand. -/
theorem goodBlock_modCur {a : W} {align lo : Nat} (f : Ctx → Ctx) (h : GoodBlock s a n align lo) :
    GoodBlock (s.modCur f) a n align lo := by
  obtain ⟨hlo, hhi, hal, htiles⟩ := h
  refine ⟨hlo, hhi, hal, fun i hi ha => ?_⟩
  rw [State.here_modCur]
  exact htiles i hi ha

/-- A good operand passes its checks once the operands have been read. -/
theorem blockOperand_synced {a : W} {align lo : Nat} (srcs : List Src) (hn : 0 < n) (h : GoodBlock s a n align lo) :
    (s.modCur fun c => synced c srcs).blockOperand a n align lo = .ok a.toNat :=
  blockOperand_good hn (goodBlock_modCur _ h)

end

/-! ### The block that is written (R182, R183) -/

/-- Requant makes a block of 64 bytes from 62 values (R167, R182). -/
theorem requant_length (t : Ty) (fixed : Option Nat) {l : List FV} (h : l.length = 62) : (requant t fixed l).1.length = 64 := by
  unfold requant
  simp only [List.length_map, List.length_cons]
  split
  · simp
  · simp [h]

theorem blockSum_length (t : Ty) (p q : List Byte) : (blockSum t p q).1.length = 64 := by
  simp only [blockSum]
  exact requant_length t none (by rw [List.length_map, List.length_map, List.length_range])

theorem blockOf_length (t : Ty) (s : State) (a b : W) : (blockOf t s a b).1.length = 64 := by
  simp only [blockOf]
  exact requant_length t _ (by rw [List.length_map, List.length_range])

/-! ### An operation that completes (R186) -/

/-- The state when a block operation of context x of core g has completed: its bytes are written, its flags are set and the context goes
on (R181, R186). -/
def blockWritten (s : State) (g : Nat) (x : Fin 16) (d : Nat) (bs : List Byte) (fl : W) : State :=
  (s.modCore g fun c => { c with pad := Memory.putAll c.pad d bs }).modCtx g x fun c => Ctx.retire { c with fpc := c.fpc ||| fl }

section
variable {s : State} {g : Nat} {x : Fin 16} {d : Nat} {bs : List Byte} {fl : W}

/-- BLOCK_OPERATION_COMPLETE for a context that is parked on a block operation. -/
theorem exec_blockOperationComplete {w : Wait} (hs : (s.ctxAt s.ev.g (ctxNo s.ev.x)).st = .parked w)
    (hr : (s.ctxAt s.ev.g (ctxNo s.ev.x)).req = some (.block d bs fl)) :
    exec .blockOperationComplete s = .next (blockWritten s s.ev.g (ctxNo s.ev.x) d bs fl) := by
  change execBlockOperationComplete s = _
  simp only [execBlockOperationComplete, hs, hr, event, Option.getD_some]
  rfl

theorem pad_blockWritten : ((blockWritten s g x d bs fl).coreAt g).pad = Memory.putAll (s.coreAt g).pad d bs := by
  simp only [blockWritten, State.coreAt_modCtx, CoreSt.setCtx_pad, State.coreAt_modCore]

/-- The bytes of the block stand at its address. -/
theorem byte_blockWritten_in {i : Nat} (h : i < bs.length) :
    Memory.byte ((blockWritten s g x d bs fl).coreAt g).pad (d + i) = bs[i] := by
  rw [pad_blockWritten, Memory.byte_putAll_in _ _ _ _ h]

/-- The other bytes of the scratchpad stay. -/
theorem byte_blockWritten_out {j : Nat} (h : j < d ∨ d + bs.length ≤ j) :
    Memory.byte ((blockWritten s g x d bs fl).coreAt g).pad j = Memory.byte (s.coreAt g).pad j := by
  rw [pad_blockWritten, Memory.byte_putAll_out _ _ _ _ h]

theorem ctxAt_blockWritten :
    (blockWritten s g x d bs fl).ctxAt g x = Ctx.retire { s.ctxAt g x with fpc := (s.ctxAt g x).fpc ||| fl } := by
  simp only [blockWritten, State.ctxAt_modCtx, State.ctxAt_modCore]
  rfl

theorem ctxAt_blockWritten_ne {y : Fin 16} (h : y ≠ x) : (blockWritten s g x d bs fl).ctxAt g y = s.ctxAt g y := by
  rw [blockWritten, State.ctxAt_modCtx_ne _ _ _ _ _ _ (.inr h.symm), State.ctxAt_modCore]
  rfl

theorem coreAt_blockWritten_ne {k : Nat} (h : k ≠ g) : (blockWritten s g x d bs fl).coreAt k = s.coreAt k := by
  rw [blockWritten, State.coreAt_modCtx_ne _ _ _ _ _ h.symm, State.coreAt_modCore_ne _ _ _ _ h.symm]

end

/-- A parked context moves on by its instruction's length and runs again when its request ends (R266). -/
theorem retire_of_parked {c : Ctx} {w : Wait} (h : c.st = .parked w) :
    c.retire = { c.tally with req := none, undo := {}, prog := none, deadline := none, step := 0, back := 0,
                              pc := c.pc + .ofNat 64 c.step, st := .run } := by
  simp only [Ctx.retire, Ctx.tally_st, h, Ctx.advance, Ctx.tally_pc]

/-! ### An operation in flight (R186) -/

section
variable {s : State} {srcs : List Src} {d : Nat} {i : Instr} {r : List Byte × FFlags}

/-- The state with a block operation in flight, from operands that are ready; its destination is a source (R181, R186). -/
theorem finish_blockHold {e : Reg} : finish s ((s.modCur fun c => synced c (alsoReads e srcs)).blockHold d r)
    = .next (asked s srcs s.cur.park (.block d r.1 r.2.bits) 4) := by
  have hp : (s.modCur fun c => synced c (alsoReads e srcs)).cur.park = s.cur.park := by rw [State.cur_modCur, synced_park]
  rw [State.blockHold, hp, finish_hold]
  simp only [asked, synced, syncMask_alsoReads]

theorem pad_asked (p : Park) (q : Req) (len : Nat) : (asked s srcs p q len).here.pad = s.here.pad := State.pad_modCur s _

theorem cur_asked (p : Park) (q : Req) (len : Nat) : (asked s srcs p q len).cur
    = { synced s.cur srcs with st := .parked .agent, park := p, parkedAt := s.cycle, req := some q, step := len } :=
  State.cur_modCur s _

/-- The state in which the completion comes of an operation that was put in flight (R186). -/
def inFlight (s : State) (srcs : List Src) (d : Nat) (r : List Byte × FFlags) : State :=
  { asked s srcs s.cur.park (.block d r.1 r.2.bits) 4 with ev := { g := s.core, x := s.ctx.val } }

theorem ctxAt_inFlight : (inFlight s srcs d r).ctxAt s.core s.ctx = { synced s.cur srcs with
    st := .parked .agent, park := s.cur.park, parkedAt := s.cycle, req := some (.block d r.1 r.2.bits), step := 4 } :=
  cur_asked s.cur.park (.block d r.1 r.2.bits) 4

theorem pad_inFlight : ((inFlight s srcs d r).coreAt s.core).pad = s.here.pad :=
  pad_asked s.cur.park (.block d r.1 r.2.bits) 4

/-- The completion of an operation in flight writes its block. -/
theorem exec_blockOperationComplete_inFlight : exec .blockOperationComplete (inFlight s srcs d r)
    = .next (blockWritten (inFlight s srcs d r) s.core s.ctx d r.1 r.2.bits) := by
  have hx : ctxNo (inFlight s srcs d r).ev.x = s.ctx := Fin.ofNat_val_eq_self s.ctx
  have hc : (inFlight s srcs d r).ctxAt (inFlight s srcs d r).ev.g (ctxNo (inFlight s srcs d r).ev.x) = _ := hx ▸ ctxAt_inFlight
  rw [exec_blockOperationComplete (congrArg Ctx.st hc) (congrArg Ctx.req hc), hx]
  rfl

/-- An instruction that puts its block in flight writes it when the operation completes. -/
theorem writesBlock_of_asked (hl : r.1.length = 64) (hi : exec i s = .next (asked s srcs s.cur.park (.block d r.1 r.2.bits) 4)) :
    WritesBlock s i srcs d r := by
  have hst : ((inFlight s srcs d r).ctxAt s.core s.ctx).st = .parked .agent := by rw [ctxAt_inFlight]
  have hcur : (blockWritten (inFlight s srcs d r) s.core s.ctx d r.1 r.2.bits).cur = _ :=
    ctxAt_blockWritten.trans (retire_of_parked hst)
  refine ⟨hl, hi, _, exec_blockOperationComplete_inFlight, fun j hj => byte_blockWritten_in hj, fun j hj => ?out,
    ?fpc, ?pc, ?st, ?req, ?g⟩
  case out => exact (byte_blockWritten_out (hl ▸ hj)).trans (congrArg (Memory.byte · j) pad_inFlight)
  all_goals rw [hcur]
  case fpc => simp only [Ctx.tally_fpc, ctxAt_inFlight, synced_fpc]
  case pc => simp only [ctxAt_inFlight, synced_pc]; rfl
  case g => simp only [Ctx.tally_g, ctxAt_inFlight, synced_g]

end

/-- BADDQ with good operands puts the sum of its blocks in flight (R181 to R183). -/
theorem exec_baddq {s : State} {t : Ty} {d : Reg} {a b : Src} (h : Ready s [a, b] [d]) (hd : GoodBlock s (s.g d) 64 64 0x0800)
    (ha : GoodBlock s (s.g a.r) 64 64 0) (hb : GoodBlock s (s.g b.r) 64 64 0) :
    let r := blockSum t (blockAt s (s.g a.r)) (blockAt s (s.g b.r))
    exec (.baddq t d a b) s = .next (asked s [a, b] s.cur.park (.block (s.g d).toNat r.1 r.2.bits) 4) := by
  intro r
  change execBaddq t d a b s = _
  have hx := blockOperand_synced (alsoReads d [a, b]) (by decide) ha
  have hy := blockOperand_synced (alsoReads d [a, b]) (by decide) hb
  have hz := blockOperand_synced (alsoReads d [a, b]) (by decide) hd
  rw [← finish_blockHold (e := d), execBaddq, State.readRegs_of_ready (ready_alsoReads h) none false (by simp)]
  simp only [Act.ok_bind, State.g_synced, State.pad_modCur, hx, hy, hz]
  rfl

/-- BQUANT with good operands puts the block of its values in flight (R181 to R183). -/
theorem exec_bquant {s : State} {t : Ty} {d : Reg} {a b : Src} (h : Ready s [a, b] [d]) (hd : GoodBlock s (s.g d) 64 64 0x0800)
    (ha : GoodBlock s (s.g a.r) 248 8 0) :
    let r := blockOf t s (s.g a.r) (s.g b.r)
    exec (.bquant t d a b) s = .next (asked s [a, b] s.cur.park (.block (s.g d).toNat r.1 r.2.bits) 4) := by
  intro r
  change execBquant t d a b s = _
  have hx := blockOperand_synced (alsoReads d [a, b]) (by decide) ha
  have hz := blockOperand_synced (alsoReads d [a, b]) (by decide) hd
  rw [← finish_blockHold (e := d), execBquant, State.readRegs_of_ready (ready_alsoReads h) none false (by simp)]
  simp only [Act.ok_bind, State.g_synced, State.pad_modCur, hx, hz]
  rfl

/-! ### The description of a block (R168, R184) -/

/-- What BDESC writes for a block of a type byte and a scale byte, with its flags, in the manual's terms (R168, R184). -/
def described (ty scale : Nat) : W × FFlags :=
  let known := decide (ty ∈ [0x00, 0x03, 0x04, 0x13, 0x14, 0x15])
  let width := if ty = 0x04 then 4 else if ty ≠ 0 ∧ known then 8 else 0
  (.ofNat 64 (width * 2 ^ 24 + (if known then 62 else 0) * 2 ^ 16 + scale * 2 ^ 8 + ty), { nv := !known })

/-- A type byte is reserved where it is none of the listed ones (R168). -/
theorem blockReserved_typeByte {ty : Nat} (h : ty < 256) :
    blockReserved [.ofNat 8 ty] = !decide (ty ∈ [0x00, 0x03, 0x04, 0x13, 0x14, 0x15]) := by
  have hb : (([BitVec.ofNat 8 ty][0]?).getD 0).toNat = ty := Nat.mod_eq_of_lt h
  rw [blockReserved, hb, List.contains_eq_mem]

/-- BDESC with a good operand describes its block (R168, R184). -/
theorem exec_bdesc {s : State} {d : Reg} {a : Src} (h : Ready s [a] [d]) (ha : GoodBlock s (s.g a.r) 64 64 0) :
    exec (.bdesc d a) s = .next (wroteF s [a] d
      (described (Memory.load s.here.pad (s.g a.r).toNat 1) (Memory.load s.here.pad ((s.g a.r).toNat + 1) 1))) := by
  have hx := blockOperand_synced [a] (by decide) ha
  have hlt : Memory.load s.here.pad (s.g a.r).toNat 1 < 256 := Memory.load_lt _ _ 1
  refine exec_of_computeF (n7 := false) (f := fun _ => described _ _) h ?meaning rfl
  change execBdesc d a s = _
  simp only [execBdesc, State.computeF, State.readRegs_of_ready h (some d) false (by simp), Act.ok_bind, State.g_synced, hx,
    State.pad_modCur]
  generalize Memory.load s.here.pad (s.g a.r).toNat 1 = ty at hlt ⊢
  rw [blockReserved_typeByte hlt]
  -- the types of the table of widths have their value; any other is type 0 or reserved
  split
  case h_6 h3 h13 h14 h15 h4 =>
    rcases Nat.eq_zero_or_pos ty with rfl | hpos
    · rfl
    · have hk : ty ∉ [0x00, 0x03, 0x04, 0x13, 0x14, 0x15] := by
        simp only [List.mem_cons, List.not_mem_nil, or_false, not_or]
        exact ⟨Nat.ne_of_gt hpos, h3, h4, h13, h14, h15⟩
      simp only [described, decide_eq_false hk, if_neg h4, Bool.not_false, if_true, Bool.false_eq_true, and_false, if_false, Nat.reducePow]
      rfl
  all_goals rfl

/-- Settles O9: an instruction with good operands puts its block in flight, and the completion writes it into the scratchpad. -/
theorem blockOperations : Obligations.BlockOperations := by
  refine ⟨?operations, ?bdesc, ?complete⟩
  case operations =>
    intro s t d a b h hd
    exact ⟨fun ha hb => writesBlock_of_asked (blockSum_length t _ _) (exec_baddq h hd ha hb),
      fun ha => writesBlock_of_asked (blockOf_length t s _ _) (exec_bquant h hd ha)⟩
  case bdesc => exact fun s d a h ha => exec_bdesc h ha
  case complete =>
    intro s w d bs fl g x hs hr
    exact ⟨_, exec_blockOperationComplete hs hr, fun i hi => byte_blockWritten_in hi, fun j hj => byte_blockWritten_out hj,
      ctxAt_blockWritten, fun y hy => ctxAt_blockWritten_ne hy, fun k hk => coreAt_blockWritten_ne hk, rfl⟩

end Sys2Proof.Proofs.Blocks
end
